-- ==== Sys2Proof/Word.lean ====
section
/-! DEFINITION. Word types of the device: register words, bytes and the wider words its memories hold. -/
namespace Sys2Proof

/-- A 32-bit register or core word (R353, R553). -/
abbrev Word := BitVec 32

/-- A byte, the smallest addressable unit of every byte memory of the device. -/
abbrev Byte := BitVec 8

end Sys2Proof
end

