-- ==== Sys2Proof/Syntax.lean ====
section
/-! DEFINITION. The commands of the block: one constructor per row of spec/opcode_table.json, with the data the row's event carries. -/
namespace Sys2Proof

/-- Who makes a register access or submits a command (R501, R550). -/
inductive Requester where
  | host
  | core
  | dma
  | bridge
  | fabric (addr : BitVec 9)
  deriving DecidableEq, Repr

/-- The two views of the register space (R550). -/
inductive View where
  | p
  | u
  deriving DecidableEq, Repr


/-- What the world outside gives an NVM_WRITE (R484): the bytes fetched from host memory, none when the fetch fails, and what the flash
cells hold after programming, none when they hold what was written. -/
structure NvmEnv where
  fetch : Option (List (BitVec 8))
  cells : Option (List (BitVec 8))
  deriving DecidableEq, Repr

/-- A loss of R31 that both dies notice on the die link: the Lagg die, the link, a core rail of the processing die. -/
inductive DieLoss where
  | lagg | link | rail
  deriving DecidableEq, Repr

/-- A pair of an encoder input (R32). -/
inductive EncPair where
  | a | b | z
  deriving DecidableEq, Repr

/-- A 66-bit word as the receive pair of a lane or port carries it (R72): its sync header, bit 0 first on the wire, and its payload before
descrambling, bit 0 first, byte b in bits [8b+7:8b]. -/
structure KslWord where
  sync : BitVec 2
  bits : BitVec 64
  deriving DecidableEq, Repr

/-- A word that arrives on a lane. -/
structure LaneWord where
  lane : Fin 32
  word : KslWord
  deriving DecidableEq, Repr

/-- The end of a lane's adaptation (R93), with the vertical and the horizontal eye margin of IGL_Lnn_EQ (R113). -/
structure LaneEye where
  lane : Fin 32
  eye : BitVec 16
  deriving DecidableEq, Repr

/-- The block lock of a lane (R93), with the last 58 payload bits received, the oldest in bit 0: what the descrambler holds (R72). -/
structure LaneLock where
  lane : Fin 32
  last : BitVec 58
  deriving DecidableEq, Repr

/-- What a CoaXPress packet from the head is (R109 to R112). A stream packet names its place in the line: sensor plane, index of its
first pixel, whether it begins and ends the line, its pixels, whether its CRC holds and its format is supported. -/
inductive CxpPacket where
  | stream (plane ofs : Nat) (first last : Bool) (pix : List Nat) (crcOk supported : Bool)
  | control (bytes : List (BitVec 8))
  | trigger
  deriving DecidableEq, Repr


/-- What a tile's parity and check bits show in a cycle (R168, R178): nothing wrong, wrong parity of the move word, of the slot table
entry or of a lookup table entry, a single-bit or a double-bit error in the word an LSU load reads. -/
inductive TileUpset where
  | clean | moveWord | slotEntry | lutEntry | memSingle | memDouble
  deriving DecidableEq, Repr


/-- A word of tile `tile` taken through its memory port, and what its check bits show (R168). -/
structure TilePort where
  tile : Fin 272
  upset : TileUpset
  deriving DecidableEq, Repr

/-- A word of the PCS of a fabric port (R296): a control word, its type byte in bits [7:0], or a data word; byte b in bits [8b+7:8b]. -/
structure FabWord where
  ctl : Bool
  bits : BitVec 64
  deriving DecidableEq, Repr

/-- The words of a payload block as they came, IDLE words before them among them, and the codewords corrected and not correctable at the
port since the block before (R294, R296). -/
structure FabIn where
  words : List FabWord
  corrected : Nat
  uncorrectable : Nat
  deriving DecidableEq, Repr


/-- A supply rail as it comes up (R567), times in µs from the first rail's start: when it begins to rise, when it is in range, how long it
takes from 10 % to 90 %, and its voltage in mV. -/
structure RailUp where
  start : Nat
  inRange : Nat
  rise : Nat
  mv : Nat
  deriving DecidableEq, Repr

/-- The supplies of R566 and R567 at power-up. -/
structure PowerUp where
  ld33 : RailUp
  mram : RailUp
  ld : RailUp
  sram : RailUp
  core : RailUp
  arr : RailUp
  sdsL : RailUp
  sdsH : RailUp
  gdq : RailUp
  io18 : RailUp
  deriving DecidableEq, Repr


/-- Who made a GDDR7 request (R447): a slice's slot write, a stream engine's read of line `j` of the next frame, a clip read, a matrix
master through a window, or the controller's and the loader's own. -/
inductive GddrReq where
  | slot (head : Fin 32) (plane : Fin 4) (line : Int)
  | stream (head : Fin 32) (plane : Fin 4) (j : Fin 128)
  | clip (head : Fin 32) (plane : Fin 4) (line : Int)
  | window (master : Fin 7) (addr : BitVec 32)
  | own
  deriving DecidableEq, Repr

/-- How a GDDR7 request ended (R445, R446): its port, whether it wrote, how often its CRC was bad, what the device reported of on-die ECC,
its byte address on the port, and its requester. -/
structure GddrDone where
  port : Fin 8
  write : Bool
  bad : Nat
  corrected : Bool
  uncorrectable : Bool
  addr : BitVec 40
  req : GddrReq
  deriving DecidableEq, Repr

/-- How an outbound access that is not posted failed (R564): whether it was a write, and whether a completion with UR or CA came. -/
structure OutEnd where
  write : Bool
  answered : Bool
  deriving DecidableEq, Repr

/-- The end of a port's training (R442): whether it passed, attempts made, the step last passed, ms taken, eye margins. -/
structure GddrTrain where
  port : Fin 8
  passed : Bool
  attempts : Fin 4
  step : Fin 6
  ms : BitVec 16
  eyes : List (BitVec 16)
  deriving DecidableEq, Repr

/-- A request to the control core through the debug gate (R510; log 115). -/
inductive DebugReq where
  | halt
  | step
  /-- D registers 0 to 15, A registers 16 to 23 -/
  | readReg (n : Fin 32)
  | writeReg (n : Fin 32) (w : BitVec 32)
  | readCsr (n : BitVec 12)
  | writeCsr (n : BitVec 12) (w : BitVec 32)
  /-- a read of the word, and a write of bytes within one word, at this address of the matrix -/
  | readMem (addr : BitVec 32)
  | writeMem (addr : BitVec 32) (data : List (BitVec 8))
  deriving DecidableEq, Repr

/-- A configuration request, or an access to BAR4 (R544, R548, R549, R562). -/
inductive CfgReq where
  | msixEnable (on : Bool)
  | mask (vector : Fin 64) (on : Bool)
  /-- address low, address high or data word of a table entry -/
  | table (vector : Fin 64) (word : Fin 3) (w : BitVec 32)
  | busMaster (on : Bool)
  | d3hot (on : Bool)
  /-- any other word of the configuration space -/
  | write (off : BitVec 12) (w : BitVec 32)
  | read (off : BitVec 12)
  /-- a word of the pending bit array -/
  | readPba (high : Bool)
  /-- a read of the word at this byte of BAR4 (log 120) -/
  | bar4Read (off : BitVec 29)
  /-- a write of bytes within one word, from this byte of BAR4 (log 120) -/
  | bar4Write (off : BitVec 29) (data : List (BitVec 8))
  /-- a read of the word, and a write of bytes within one word, by the Lagg bridge at this address of the matrix (R418; log 123) -/
  | laggRead (addr : BitVec 32)
  | laggWrite (addr : BitVec 32) (data : List (BitVec 8))
  | debug (r : DebugReq)
  deriving DecidableEq, Repr

/-- A PCIe AtomicOp (R543, R557). -/
inductive AtOp where
  | fetchAdd
  | swap
  | cas (compare : BitVec 64)
  deriving DecidableEq, Repr

/-- The rows of spec/opcode_table.json, in its order. -/
inductive Instr where
  /-- POWER_ON (R567): Supplies come up in the required sequence and the device begins in reset. -/
  | powerOn (p : PowerUp)
  /-- RESET_N_ASSERT (R581): A low level on RESET_N of at least 10 µs resets the whole device and puts the TRG, MRK and GPO balls at high impedance. -/
  | resetNAssert (ns : Nat)
  /-- RESET_N_RELEASE (R581): The rising edge of RESET_N releases the Lagg die, which starts BOOT and drives the outputs safe within 1 ms. -/
  | resetNRelease
  /-- BOOT_SELFTEST_DONE (R455): The ROM self-tests end; the Lagg die releases the PD and moves to VERIFY, HOLD or WIPED by life cycle, or stays in BOOT on a failure. -/
  | bootSelftestDone (fail : Option (Fin 9))
  /-- IMAGE_VERIFY_DONE (R465): The header checks of a slot end, leading to LOAD or to the slot choice of R469. -/
  | imageVerifyDone
  /-- LOAD_SECTION_DONE (R466): One section has streamed in and been hashed and checked against its digest and its own rules. -/
  | loadSectionDone
  /-- LOAD_DONE (R467): With every section good, LOAD applies the patch, pages, presets, plans and marker offsets, makes the register checks and enters TRAIN. -/
  | loadDone
  /-- FLASH_READ_TIMEOUT (R459): A flash read that gets no response within 1 ms is a flash read failure with code 0x30. -/
  | flashReadTimeout
  /-- TRAIN_REREAD_DONE (R468): The second read of the schedule and table sections into the system area ends, checked against the manifest digests. -/
  | trainRereadDone
  /-- TRAIN_END (R458): The end conditions of TRAIN hold and the device enters ARMED, then RUNNING under autostart. -/
  | trainEnd
  /-- START_OUTPUTS (R456): Command 0x01 enables the outputs in the dispatch gap before the next frame, taking the device to RUNNING. -/
  | startOutputs (who : Requester) (intent : BitVec 64) (args : Vector (BitVec 8) 48)
  /-- STOP_OUTPUTS (R456): Command 0x02 brings every output safe within 2 µs and returns the device to ARMED. -/
  | stopOutputs (who : Requester) (intent : BitVec 64) (args : Vector (BitVec 8) 48)
  /-- SELECT_RECIPE (R30): Command 0x03 selects a recipe to take effect at the first frame boundary of the named domain at or after the given coordinate. -/
  | selectRecipe (who : Requester) (intent : BitVec 64) (args : Vector (BitVec 8) 48)
  /-- SET_MODE (R210): Command 0x04 changes the mode of the recipe in force at frame f_s, seamlessly or by a reload switch. -/
  | setMode (who : Requester) (intent : BitVec 64) (args : Vector (BitVec 8) 48)
  /-- SWAP_CUSTOMER_PAGE (R259): Command 0x05 is journalled, then the PSQ checks the parity of the inactive page before the swap. -/
  | swapCustomerPage (who : Requester) (intent : BitVec 64) (args : Vector (BitVec 8) 48)
  /-- CLEAR_FAULT (R455): Command 0x06 restarts halted tiles in ARMED or RUNNING, or restarts the device from FAULT_STOP. -/
  | clearFault (who : Requester) (intent : BitVec 64) (args : Vector (BitVec 8) 48)
  /-- FREEZE_RECORD (R535): Command 0x07 writes a FREEZE entry and a snapshot and freezes a peat region. -/
  | freezeRecord (who : Requester) (intent : BitVec 64) (args : Vector (BitVec 8) 48)
  /-- RESTART_FROM_NVM (R485): Command 0x08 sets the boot selector, passes through the safe outputs and restarts the device in BOOT, optionally going to HOLD. -/
  | restartFromNvm (who : Requester) (intent : BitVec 64) (args : Vector (BitVec 8) 48)
  /-- NVM_WRITE (R484): Command 0x09 erases or programs flash in HOLD, with a blank check, a fetch from the host, page programming and read-back. -/
  | nvmWrite (who : Requester) (intent : BitVec 64) (args : Vector (BitVec 8) 48) (env : NvmEnv)
  /-- ATTEST (R516): Command 0x0A signs an attestation report with the identity key and writes it to host memory. -/
  | attest (who : Requester) (intent : BitVec 64) (args : Vector (BitVec 8) 48)
  /-- CENSUS_NOW (R342): Command 0x0B sends a CEN_REQ to the root for an immediate census round. -/
  | censusNow (who : Requester) (intent : BitVec 64) (args : Vector (BitVec 8) 48)
  /-- SET_MARKER_ENABLE (R287): Command 0x0C writes the marker enable mask at execution, discarding or cancelling the markings of newly disabled outputs. -/
  | setMarkerEnable (who : Requester) (intent : BitVec 64) (args : Vector (BitVec 8) 48)
  /-- EPOCH_SWITCH (R343): Command 0x0D proposes a new census epoch at a coordinate of a domain through the root. -/
  | epochSwitch (who : Requester) (intent : BitVec 64) (args : Vector (BitVec 8) 48)
  /-- OPEN_DEBUG (R511): Command 0x0E processes a DEBUG token with full zeroisation and opens the debug gate with the stored scope. -/
  | openDebug (who : Requester) (intent : BitVec 64) (args : Vector (BitVec 8) 48)
  /-- LIFECYCLE_ADVANCE (R508): Command 0x0F processes a life-cycle token and carries out the transition steps. -/
  | lifecycleAdvance (who : Requester) (intent : BitVec 64) (args : Vector (BitVec 8) 48)
  /-- FIRMWARE_COMMAND (R527): A command of code 0x80 to 0xFF is handed to the control core as the open firmware command. -/
  | firmwareCommand (who : Requester) (code : BitVec 7) (intent : BitVec 64) (args : Vector (BitVec 8) 48)
  /-- COMMAND_EXECUTE (R526): The command at the head of the queue is executed, with its state check made at that moment. -/
  | commandExecute (env : NvmEnv)
  /-- JNL_FW_DONE (R527): Firmware writes GO with an outcome to complete the open firmware command. -/
  | jnlFwDone (who : Requester) (view : View) (ocode : BitVec 8) (ostat : BitVec 3)
  /-- FW_COMMAND_TIMEOUT (R527): An open firmware command not completed within 1 s completes FAILED with OCODE TIMEOUT. -/
  | fwCommandTimeout
  /-- JNL_BUFFER_RELEASE (R522): A fabric requester's command buffer is released after 1 s without a write from it. -/
  | jnlBufferRelease
  /-- UCIE_LINK_TIMEOUT (R31): A die-link timeout of 2 µs detects the loss of the Lagg die, the link or a PD core rail, holds the outputs safe and raises FATAL. -/
  | ucieLinkTimeout (cause : DieLoss)
  /-- OUTPUT_EVENT_ARRIVE (R13): A trigger, marker or GPO event reaches the LD over the die link and is held for its stated time, or counted when late. -/
  | outputEventArrive
  /-- OUTPUT_CANCEL_ARRIVE (R13): A cancel reaches the LD and withdraws the event only when it arrives before the event's stated time. -/
  | outputCancelArrive
  /-- OUTPUT_EVENT_FIRE (R14): The LD fires a held trigger, marker or GPO event at its stated time while the device is RUNNING. -/
  | outputEventFire
  /-- TRG_PULSE_END (R56): A TRG pulse ends after WIDTH TS units. -/
  | trgPulseEnd (ball : Fin 16)
  /-- MARKER_PULSE_END (R283): A SPOT marking goes inactive after WIDTH; a SPAN ends at its end time, lasting at least WIDTH. -/
  | markerPulseEnd (n : Fin 8)
  /-- ENCODER_EDGE (R33): A filtered A or B level change is decoded into a count in the input's mode and stamped with its first transition. -/
  | encoderEdge (n : Fin 4) (a b : Option Bool) (stamp : Nat)
  /-- Z_EDGE (R60): An accepted rising Z edge with Z_EN set captures the count in ZCAP and is checked against Z_COUNTS. -/
  | zEdge (n : Fin 4) (level : Bool) (stamp : Nat)
  /-- ENC_RX_FAULT (R37): A receiver pair below 100 mV for 1 µs enters receiver fault, moving its domain to the check encoder or into COAST. -/
  | encRxFault (n : Fin 4) (p : EncPair)
  /-- ENC_RX_FAULT_CLEAR (R37): A receiver pair at or above 100 mV for 1 µs leaves receiver fault, so its source returns. -/
  | encRxFaultClear (n : Fin 4) (p : EncPair)
  /-- POS_CHECK_COMPARE (R62): After each 1 m of primary travel the check distance is compared with the primary distance and POS_CHECK_DIFF is raised beyond CHECK_TOL. -/
  | posCheckCompare (d : Fin 16)
  /-- EDGE_REPORT_SEND (R38): At the end of each 64-TS interval with edges, or at a direction change, the LD sends the PD an edge report. -/
  | edgeReportSend (n : Fin 4)
  /-- EDGE_REPORT_RECEIVE (R42): The PD updates the domain's velocity estimate and motion state from an edge report. -/
  | edgeReportReceive
  /-- MOTION_CREEP_TIMEOUT (R42): CREEP_T passing after the newest edge without a further edge puts the domain in CREEP. -/
  | motionCreepTimeout (d : Fin 16)
  /-- MOTION_STOP_TIMEOUT (R43): T_STOP passing without an edge puts the domain in STOPPED with v and a at 0. -/
  | motionStopTimeout (d : Fin 16)
  /-- TRIGGER_COMMIT (R47): A generator commits its next trigger to the LD once the predicted fire time is at most COMMIT away. -/
  | triggerCommit (g : Fin 32)
  /-- COAST_COORD_UPDATE (R63): Every 64 TS units in COAST the predicted coordinate is evaluated and HWM follows it. -/
  | coastCoordUpdate (d : Fin 16)
  /-- COAST_LOST_TIMEOUT (R64): After 2 ms in COAST the domain enters LOST and cancels its committed triggers and markings. -/
  | coastLostTimeout (d : Fin 16)
  /-- TRACK_SAMPLE_RECEIVE (R332): A TRACK_SAMPLE message extends the device's copy of the tracking table, or restarts it. -/
  | trackSampleReceive
  /-- GPI_EDGE (R288): A filtered GPI edge is stamped and serves product start, PSQ waits and IOX_GPI_EDGE. -/
  | gpiEdge (b : Fin 16) (level : Bool) (stamp : Nat)
  /-- LANE_BC_LOCK_DONE (R93): After 5 ms of back-channel IDLE the lane moves to EQUALISE. -/
  | laneBcLockDone (n : Fin 32)
  /-- LANE_EQUALISE_DONE (R93): The receiver has adapted to PRBS31 and the lane moves to BLOCK_LOCK. -/
  | laneEqualiseDone (n : LaneEye)
  /-- LANE_BLOCK_LOCK_DONE (R93): 64 valid sync headers in a row and then none invalid in 2²⁰ words move the lane to CAPABILITY. -/
  | laneBlockLockDone (n : LaneLock)
  /-- CAP_WORD_RECEIVE (R94): A CAP_A or CAP_B word is checked against IGL_Lnn_HEAD; two equal pairs bring the lane UP, a mismatch sends it to FAILED. -/
  | capWordReceive (n : Fin 32) (w : KslWord)
  /-- TRAIN_MESSAGE_REPEAT (R93): The current TRAIN message is repeated every 100 µs during EQUALISE, BLOCK_LOCK and CAPABILITY. -/
  | trainMessageRepeat (n : Fin 32)
  /-- LANE_TRAIN_STEP_TIMEOUT (R94): A training step passing its limit fails the attempt with LINK_DOWN reason 4, and after 3 attempts the lane enters FAILED. -/
  | laneTrainStepTimeout (n : Fin 32)
  /-- LANE_SYNC_LOSS (R95): 16 or more invalid sync headers among 64 words take an UP lane down with LINK_DOWN reason 1. -/
  | laneSyncLoss (n : Fin 32)
  /-- LANE_IDLE_TIMEOUT (R95): No IDLE word for 10 µs takes an UP lane down with LINK_DOWN reason 2. -/
  | laneIdleTimeout (n : Fin 32)
  /-- LANE_RETRAIN_WRITE (R95): A write of 1 to IGL_Lnn_CTRL.RETRAIN takes the lane down with reason 0, or restarts training, and resets the attempt count. -/
  | laneRetrainWrite (who : Requester) (view : View) (n : Fin 32) (w : BitVec 32)
  /-- KSL_IDLE_WORD (R100): An IDLE word arrives, and its NEXT_SEQ can show SEQs to be missing. -/
  | kslIdleWord (n : Fin 32) (w : KslWord)
  /-- KSL_STRAY_WORD (R76): A data word outside a block, or a control word of unknown type, is ignored and counted in SYNC_ERR. -/
  | kslStrayWord (n : LaneWord)
  /-- KSL_BLOCK_RECEIVE (R80): A forward-channel block is checked as good or bad, settled in the window and passed to line assembly. -/
  | kslBlockReceive (n : Fin 32) (before : List KslWord) (w0 w1 : KslWord) (payload : List KslWord) (term : KslWord) (start : Nat)
  /-- KSL_RESEND_TIMEOUT (R100): RESEND_TO after a request, a still-missing SEQ is requested again or, after 3 requests, declared lost. -/
  | kslResendTimeout (n : Fin 32)
  /-- KSL_ACK_TIMER (R99): ACK_T after the first unacknowledged good block the device sends an ACK. -/
  | kslAckTimer (n : Fin 32)
  /-- KSL_ACK_REPEAT (R99): The latest ACK is repeated every 10 µs while the lane is UP. -/
  | kslAckRepeat (n : Fin 32)
  /-- LINE_TIMEOUT (R105): LINE_TO after the fire time, or after the first block when free-running, declares the line incomplete. -/
  | lineTimeout (n : Fin 32)
  /-- CXP_PACKET_RECEIVE (R112): A CoaXPress stream, control or trigger packet is received; a CRC error declares its line incomplete. -/
  | cxpPacketReceive (n : Fin 32) (p : CxpPacket)
  /-- MG_SEND (R113): A write of SEND sends TX_LEN bytes from MG_TX as MGMT or a CoaXPress control packet. -/
  | mgSend (who : Requester) (view : View) (n : Fin 32) (len : BitVec 7)
  /-- MG_TX_WRITE (R113): Each write to MG_TX appends 4 bytes to the message to send, unless TX_BUSY. -/
  | mgTxWrite (who : Requester) (view : View) (n : Fin 32) (w : BitVec 32)
  /-- MG_RX_READ (R113): Each read of MG_RX returns the next 4 bytes of the received message. -/
  | mgRxRead (who : Requester) (view : View) (n : Fin 32)
  /-- MG_RX_DONE (R113): A write of RX_DONE releases the received message and clears RX_READY. -/
  | mgRxDone (who : Requester) (view : View) (n : Fin 32) (len : BitVec 7)
  /-- SLICE_SLOT_WRITE (R133): A slice writes an output line's slot into the line store, pixels first and header last. -/
  | sliceSlotWrite (n : Fin 32)
  /-- EDGE_STRIP_RECEIVE (R126): An edge strip arrives and is blended, or discarded with EDGE_LATE. -/
  | edgeStripReceive
  /-- EDGE_STRIP_TIMEOUT (R126): EDGE_TO passing without the strip lets the head's own columns stand, with STITCH_MISSING. -/
  | edgeStripTimeout (n : Fin 32)
  /-- TABLE_BANK_LOAD_DONE (R129): The load of a new table set into a slice's other bank ends. -/
  | tableBankLoadDone (n : Fin 32)
  /-- MOVE_WORD_EXECUTE (R143): A tile executes one cycle of a move word, performing all its moves and triggers. -/
  | moveWordExecute (t : Fin 272) (u : TileUpset)
  /-- TILE_BUDGET_END (R178): Cycle L − 1 ends with the program short of its EOF, a BUDGET fault. -/
  | tileBudgetEnd (t : Fin 272)
  /-- OUTQ_DRAIN (R162): At least one OUTQ entry leaves for the results engine every 16 ACLK cycles. -/
  | outqDrain (t : Fin 272)
  /-- STREAM_PORT_WRITE (R165): A waiting stream word is written into tile memory in a free cycle. -/
  | streamPortWrite (t : TilePort)
  /-- TILE_SPACE_ACCESS (R166): An access through tile space is served in free cycles, or refused for a running tile's stores and tables. -/
  | tileSpaceAccess (who : Requester) (t : TilePort) (a : BitVec 19) (data : Option (List (BitVec 8))) (len : Fin 65)
  /-- SCRUB_READ (R167): The scrubber reads one word per 2^SCRUB_SHIFT unused free cycles. -/
  | scrubRead (t : Fin 272) (u : TileUpset)
  /-- SCRUB_WRITEBACK (R167): A corrected word is written back in the next unused free cycle unless written in between. -/
  | scrubWriteback (t : Fin 272)
  /-- TILE_RESTART_WRITE (R179): A write of TILE_CTRL.RESTART restarts a HALTED tile at the next frame boundary. -/
  | tileRestartWrite (who : Requester) (view : View) (t : Fin 272) (w : BitVec 32)
  /-- TILE_HWM_CLEAR (R182): A write of TILE_CTRL.HWM_CLR clears TILE_QHWM. -/
  | tileHwmClear (who : Requester) (view : View) (t : Fin 272) (w : BitVec 32)
  /-- FRAME_DISPATCH (R186): The PSQ dispatches a due and ready frame, delivering its context words to every mapped tile. -/
  | frameDispatch
  /-- FRAME_SLIP (R198): SA after becoming due, an undispatched frame slips under LATE or is dropped under DROP. -/
  | frameSlip
  /-- STREAM_LINE_STAGE (R192): A stream engine reads a written slot and stages its words into tile memory, or zeroes an overwritten line. -/
  | streamLineStage (h : Fin 32) (q : Fin 4) (j : Fin 128)
  /-- ACLK_STEP_APPLY (R197): A requested ACLK step is applied in the next dispatch gap, lengthening it by at most 2 µs. -/
  | aclkStepApply
  /-- RECIPE_SWITCH_EFFECT (R206): A recipe or mode switch takes effect at frame f_s, seamlessly or by a reload. -/
  | recipeSwitchEffect
  /-- RELOAD_SWITCH_DONE (R208): The reload of a new schedule set into the tiles ends. -/
  | reloadSwitchDone
  /-- FALLBACK_RECIPE_SELECT (R475): After a GDDR7 port is lost, the FALLBACK chain is followed at the next frame boundary to a recipe with no ring on a lost port. -/
  | fallbackRecipeSelect
  /-- RESULT_FRAME_FORM (R264): With every end entry of a frame in, the results engine forms its blind-band and defect records. -/
  | resultFrameForm
  /-- FRAME_CHECK_RECEIVE (R217): The TWIN primary compares a frame check with its own records and flags them. -/
  | frameCheckReceive
  /-- TWIN_WAIT_TIMEOUT (R217): With no frame check within TWIN_WAIT the primary exports its records with TWIN_UNCHECKED. -/
  | twinWaitTimeout
  /-- MIRROR_SLOT_RECEIVE (R310): A TWIN secondary writes a mirrored slot into its own line store, header last. -/
  | mirrorSlotReceive
  /-- TWIN_PEER_LOSS (R218): Both mirror ports down for 100 µs, or the peer absent from the MAP, raises TWIN_PEER_LOST. -/
  | twinPeerLoss
  /-- TRACKED_HOLD_TIMEOUT (R267): A record held 2 s is handled as OUT_OF_RANGE. -/
  | trackedHoldTimeout
  /-- CLIP_CUT (R274): A clip is cut from the line store into the next clip buffer and its header written last. -/
  | clipCut
  /-- CLIP_LINE_TIMEOUT (R274): A clip line not written 2 ms after formation reads as 0 and the clip carries PART. -/
  | clipLineTimeout
  /-- RECORD_RING_WRITE (R276): A queued record is written to the record ring when there is room, followed by the producer write-back. -/
  | recordRingWrite
  /-- RING_IRQ_TIMER (R278): IRQ_T after the first unsignalled entry the ring's interrupt falls due. -/
  | ringIrqTimer
  /-- TOKEN_RECEIVE (R280): A received token requests TOKMK markings and is optionally written to the record ring. -/
  | tokenReceive
  /-- MARKER_COMMIT (R282): A marking is committed to the LD once its fire time is at most COMMIT away, or is found late. -/
  | markerCommit (n : Fin 8)
  /-- MARKER_SPAN_LOST_END (R282): An active SPAN goes inactive COMMIT after entry to LOST, or after WIDTH. -/
  | markerSpanLostEnd (n : Fin 8)
  /-- MICROWORD_ISSUE (R251): A PSQ context issues a microword, performs its actions in order and forms the next address. -/
  | microwordIssue (c : Fin 8) (upset : Bool)
  /-- PSQ_WAIT_END (R247): A context's wait condition holds, CAP is taken and the word's actions follow. -/
  | psqWaitEnd (c : Fin 8)
  /-- PSQ_WAIT_TIMEOUT (R249): A wait with TOSEL ends by timeout and the context continues at TARGET without the actions. -/
  | psqWaitTimeout (c : Fin 8)
  /-- PSQ_CX_RESTART (R246): A write of PSQ_CXc_CTRL.RESTART restarts the context at its entry word. -/
  | psqCxRestart (who : Requester) (view : View) (c : Fin 2) (w : BitVec 32)
  /-- CS_HOLDING_WRITE (R244): A write to offsets 0x0 to 0x8 of a control-store word goes to the holding register. -/
  | csHoldingWrite (who : Requester) (view : View) (a : BitVec 13) (k : Fin 3) (w : BitVec 32)
  /-- CS_WORD_COMMIT (R258): A write to offset 0xC commits a customer microword after checks, or refuses it. -/
  | csWordCommit (who : Requester) (view : View) (a : BitVec 13) (w : BitVec 32)
  /-- PAGE_SWAP_CHECK_DONE (R259): The parity check of the inactive page ends, and the swap is refused or becomes pending. -/
  | pageSwapCheckDone (bad : Option (Fin 1024))
  /-- PAGE_SWAP_EFFECT (R260): The active page changes in the dispatch gap and C0 and C1 restart on the new page. -/
  | pageSwapEffect
  /-- PSQ_UEVT_READ (R263): A read of PSQ_UEVT pops the user event queue and latches its coordinate. -/
  | psqUevtRead (who : Requester) (view : View)
  /-- FAB_LINK_UP (R293): A port reaches block lock and FEC alignment on all lanes and receives a HELLO. -/
  | fabLinkUp (p : Fin 4)
  /-- FAB_RATE_ALTERNATE (R293): With RATE auto a port alternates PAM4 and NRZ every 200 ms until the link comes up. -/
  | fabRateAlternate (p : Fin 4)
  /-- FAB_BLOCK_LOCK_LOSS (R294): Block lock lost on a lane for 1 µs takes the link down. -/
  | fabBlockLockLoss (p : Fin 4)
  /-- FAB_FEC_BURST (R294): More than 16 uncorrectable codewords within 10 µs take the link down. -/
  | fabFecBurst (p : Fin 4) (n : Nat)
  /-- FAB_HELLO_TIMEOUT (R294): No HELLO for 50 µs takes the link down. -/
  | fabHelloTimeout (p : Fin 4)
  /-- FAB_RETRAIN_WRITE (R294): A write of FAB_Pp_CTRL.RETRAIN takes the link down and trains it again. -/
  | fabRetrainWrite (who : Requester) (view : View) (p : Fin 4) (w : BitVec 32)
  /-- FAB_HOLDDOWN_END (R294): After 3 downs within 1 s, the 10 ms wait before the next attempt ends. -/
  | fabHolddownEnd (p : Fin 4)
  /-- HELLO_SEND (R311): HELLO_A and HELLO_B are sent alternately every 5 µs on each up link. -/
  | helloSend (p : Fin 4)
  /-- HELLO_RECEIVE (R312): A HELLO updates the peer data and the root election, distance and up port. -/
  | helloReceive (p : Fin 4) (start : FabWord) (data : List FabWord) (last : FabWord)
  /-- FAB_PAYLOAD_BLOCK_RECEIVE (R305): A payload block is checked, ordered in its class window and assembled into a message or forwarded. -/
  | fabPayloadBlockReceive (p : Fin 4) (b : FabIn)
  /-- FAB_BLOCK_TRANSMIT (R300): A waiting payload block is sent once a credit for its class is held, in strict priority. -/
  | fabBlockTransmit (p : Fin 4)
  /-- FAB_ACK_RECEIVE (R302): An ACK settles blocks, returns credits and requests re-sends of NAKed SEQs. -/
  | fabAckReceive (p : Fin 4) (w0 w1 w2 w3 w4 : FabWord)
  /-- TXSTATE_RECEIVE (R303): A TXSTATE shows the sender's next SEQs, making lower ones missing. -/
  | txstateReceive (p : Fin 4) (w0 w1 w2 w3 w4 : FabWord)
  /-- FAB_ACK_TIMER (R302): ACK_T after the first unacknowledged block an ACK is sent. -/
  | fabAckTimer (p : Fin 4) (tc : Fin 4)
  /-- FAB_ACK_REPEAT (R302): The ACK of a class is repeated every 1 µs while its blocks are held. -/
  | fabAckRepeat (p : Fin 4) (tc : Fin 4)
  /-- FAB_TXSTATE_SEND (R302): A TXSTATE is sent every 1 µs while any block is unsettled. -/
  | fabTxstateSend (p : Fin 4)
  /-- FAB_RESEND_TIMEOUT (R303): RESEND_TO after a request a missing block is requested again or declared lost. -/
  | fabResendTimeout (p : Fin 4) (tc : Fin 4)
  /-- FAB_MSG_TIMEOUT (R306): A message not whole within MSG_TO of its first fragment is discarded and counted in MSG_INC. -/
  | fabMsgTimeout
  /-- TOPO_SEND (R312): A device sends TOPO towards the root when a link changes and every 100 ms. -/
  | topoSend
  /-- TOPO_RECEIVE (R313): The root takes a TOPO into its map, or a device relays it upwards. -/
  | topoReceive
  /-- MAP_BROADCAST (R313): The root broadcasts a MAP after each change and every 100 ms, assigning addresses. -/
  | mapBroadcast
  /-- MAP_RECEIVE (R313): A device takes its address from a MAP and starts computing its routing table. -/
  | mapReceive
  /-- ROUTE_TABLE_SWITCH (R316): The new routing table computed from the MAP is switched in within 2 ms. -/
  | routeTableSwitch
  /-- ROOT_SEQ_TICK (R312): The root increments ROOT_SEQ every 10 µs. -/
  | rootSeqTick
  /-- ROOT_SEQ_TIMEOUT (R312): A root whose ROOT_SEQ has not advanced for 100 µs is dropped and the election runs again. -/
  | rootSeqTimeout
  /-- ADDR_RESERVE_EXPIRY (R314): An address left by a departed device is released after 10 s. -/
  | addrReserveExpiry
  /-- DISCOVERY_TIMEOUT (R315): DISC_TO passing before discovery ends sets PARTIAL and ends discovery. -/
  | discoveryTimeout
  /-- REMOTE_ACCESS_GO (R322): A write of FAB_RA_CMD.GO sends a REG_REQ to another device. -/
  | remoteAccessGo (who : Requester) (view : View) (w : BitVec 32)
  /-- REG_REQ_RECEIVE (R319): The fabric remote agent serves a remote register access under its view and session rules. -/
  | regReqReceive
  /-- REG_RSP_RECEIVE (R319): A REG_RSP completes the remote access with its data and status. -/
  | regRspReceive
  /-- REG_REQ_TIMEOUT (R319): A REG_REQ with no response within 100 µs ends with STATUS TIMEOUT. -/
  | regReqTimeout
  /-- FW_MSG_RECEIVE (R309): An FW_MSG from another device is passed to firmware. -/
  | fwMsgReceive
  /-- SYNC_EXCHANGE_START (R325): A non-root device sends SYNC_REQ on its up port every 10 µs. -/
  | syncExchangeStart
  /-- SYNC_REQ_RECEIVE (R325): A parent answers a SYNC_REQ with a SYNC_RSP within 1 µs. -/
  | syncReqReceive (p : Fin 4) (start : FabWord) (data : List FabWord)
  /-- SYNC_RSP_RECEIVE (R326): The child computes delay and offset and slews or steps its fabric time. -/
  | syncRspReceive (p : Fin 4) (w0 w1 w2 w3 w4 : FabWord)
  /-- TIME_HOLDOVER_TIMEOUT (R327): No valid SYNC_RSP for 50 µs, or the up port lost, puts the time state in HOLDOVER. -/
  | timeHoldoverTimeout
  /-- BEACON_SEND (R329): The active root of a domain sends a BEACON every 1 µs. -/
  | beaconSend (d : Fin 16)
  /-- BEACON_RECEIVE (R330): A beacon is accepted or discarded, forwarded, and drives a remote domain's estimator and lock state. -/
  | beaconReceive (p : Fin 4) (start : FabWord) (data : List FabWord) (last : FabWord)
  /-- BEACON_TIMEOUT (R63): No accepted beacon for 8 µs puts a remote domain in COAST, or keeps it in ACQUIRE. -/
  | beaconTimeout (d : Fin 16)
  /-- STANDBY_TAKEOVER (R334): A standby root with no LOCKED beacon for 3 µs takes over with a new generation. -/
  | standbyTakeover (d : Fin 16)
  /-- DIGEST_RECOMPUTE_DONE (R337): The configuration digest is recomputed within 1 ms of a change and STALE clears. -/
  | digestRecomputeDone
  /-- CENSUS_ROUND_START (R340): The root sends CEN_POLL every PERIOD. -/
  | censusRoundStart
  /-- CEN_POLL_RECEIVE (R340): A device answers CEN_POLL with CEN_REPORT within 1 ms. -/
  | cenPollReceive
  /-- CEN_REPORT_RECEIVE (R340): The root collects a device's digest report. -/
  | cenReportReceive
  /-- CENSUS_ROUND_DECIDE (R340): After WAIT the root decides each group's reference and listing and sends CEN_RESULT. -/
  | censusRoundDecide
  /-- CEN_RESULT_RECEIVE (R341): A listed device applies TAG or STOP until a result no longer lists it. -/
  | cenResultReceive
  /-- CEN_RESULT_TIMEOUT (R341): No CEN_RESULT for 3 periods sets NORES. -/
  | cenResultTimeout
  /-- CEN_REQ_RECEIVE (R342): The root starts a census round within 1 ms of a CEN_REQ. -/
  | cenReqReceive
  /-- EPOCH_PROPOSE_RECEIVE (R343): The root broadcasts a proposal, or aborts it as busy; a device answers with EPOCH_ACK. -/
  | epochProposeReceive
  /-- EPOCH_ACK_RECEIVE (R343): The root collects an epoch acknowledgement and commits once every device has accepted. -/
  | epochAckReceive
  /-- EPOCH_ACK_TIMEOUT (R343): Without every acceptance within 10 ms the root broadcasts an abort. -/
  | epochAckTimeout
  /-- EPOCH_COMMIT_RECEIVE (R343): A device records a committed or aborted epoch for application. -/
  | epochCommitReceive
  /-- EPOCH_COMMIT_TIMEOUT (R344): A device with neither commit nor abort within 20 ms treats the proposal as aborted. -/
  | epochCommitTimeout
  /-- EPOCH_APPLY (R343): A committed epoch is applied at the first frame boundary, or dispatch gap, at or after its coordinate. -/
  | epochApply
  /-- ADD (R354): Dd becomes Da + Db modulo 2³². -/
  | add (d a b z : BitVec 4)
  /-- SUB (R354): Dd becomes Da − Db. -/
  | sub (d a b z : BitVec 4)
  /-- AND (R354): Dd becomes Da & Db. -/
  | and (d a b z : BitVec 4)
  /-- OR (R354): Dd becomes Da | Db. -/
  | or (d a b z : BitVec 4)
  /-- XOR (R354): Dd becomes Da ^ Db. -/
  | xor (d a b z : BitVec 4)
  /-- SHL (R354): Dd becomes Da shifted left by bits [7:0] of Db. -/
  | shl (d a b z : BitVec 4)
  /-- SHR (R354): Dd becomes Da shifted right logically. -/
  | shr (d a b z : BitVec 4)
  /-- SAR (R354): Dd becomes Da shifted right arithmetically. -/
  | sar (d a b z : BitVec 4)
  /-- ROL (R354): Dd becomes Da rotated left by the amount modulo 32. -/
  | rol (d a b z : BitVec 4)
  /-- NEG (R354): Dd becomes 0 − Da. -/
  | neg (d a b z : BitVec 4)
  /-- ABS (R354): Dd becomes the absolute value of Da. -/
  | abs (d a b z : BitVec 4)
  /-- MIN (R354): Dd becomes the signed minimum of Da and Db. -/
  | min (d a b z : BitVec 4)
  /-- MAX (R354): Dd becomes the signed maximum of Da and Db. -/
  | max (d a b z : BitVec 4)
  /-- CLZ (R354): Dd becomes the count of leading zero bits of Da. -/
  | clz (d a b z : BitVec 4)
  /-- ADD_IMM (R355): Dd becomes Da plus the sign-extended IMM16. -/
  | addImm (d a : BitVec 4) (imm : BitVec 16)
  /-- AND_IMM (R355): Dd becomes Da & the zero-extended IMM16. -/
  | andImm (d a : BitVec 4) (imm : BitVec 16)
  /-- OR_IMM (R355): Dd becomes Da | the zero-extended IMM16. -/
  | orImm (d a : BitVec 4) (imm : BitVec 16)
  /-- XOR_IMM (R355): Dd becomes Da ^ the zero-extended IMM16. -/
  | xorImm (d a : BitVec 4) (imm : BitVec 16)
  /-- SHL_IMM (R355): Dd becomes Da shifted left by AMT. -/
  | shlImm (d a : BitVec 4) (z : BitVec 6) (amt : BitVec 8)
  /-- SHR_IMM (R355): Dd becomes Da shifted right logically by AMT. -/
  | shrImm (d a : BitVec 4) (z : BitVec 6) (amt : BitVec 8)
  /-- SAR_IMM (R355): Dd becomes Da shifted right arithmetically by AMT. -/
  | sarImm (d a : BitVec 4) (z : BitVec 6) (amt : BitVec 8)
  /-- ROL_IMM (R355): Dd becomes Da rotated left by AMT. -/
  | rolImm (d a : BitVec 4) (z : BitVec 6) (amt : BitVec 8)
  /-- MOVI (R355): Dd becomes the sign-extended IMM20. -/
  | movi (d : BitVec 4) (imm : BitVec 20)
  /-- MOVHI (R355): IMM16 is written into bits [31:16] of Dd. -/
  | movhi (d z : BitVec 4) (imm : BitVec 16)
  /-- MOV (R356): A register is copied between D, A, MPL and MPH as KIND selects. -/
  | mov (d src kind : BitVec 4) (z : BitVec 12)
  /-- LD_B (R358): A byte is loaded into Dr, sign-extended. -/
  | ldB (r ab : BitVec 4) (mode : BitVec 2) (ofs : BitVec 14)
  /-- LD_BU (R358): A byte is loaded into Dr, zero-extended. -/
  | ldBu (r ab : BitVec 4) (mode : BitVec 2) (ofs : BitVec 14)
  /-- LD_H (R358): A halfword is loaded into Dr, sign-extended. -/
  | ldH (r ab : BitVec 4) (mode : BitVec 2) (ofs : BitVec 14)
  /-- LD_HU (R358): A halfword is loaded into Dr, zero-extended. -/
  | ldHu (r ab : BitVec 4) (mode : BitVec 2) (ofs : BitVec 14)
  /-- LD_W (R358): A word is loaded into Dr. -/
  | ldW (r ab : BitVec 4) (mode : BitVec 2) (ofs : BitVec 14)
  /-- ST_B (R358): Bits [7:0] of Dr are stored. -/
  | stB (r ab : BitVec 4) (mode : BitVec 2) (ofs : BitVec 14)
  /-- ST_H (R358): Bits [15:0] of Dr are stored. -/
  | stH (r ab : BitVec 4) (mode : BitVec 2) (ofs : BitVec 14)
  /-- ST_W (R358): Dr is stored as a word. -/
  | stW (r ab : BitVec 4) (mode : BitVec 2) (ofs : BitVec 14)
  /-- LDA (R358): A word is loaded into Ar. -/
  | lda (r ab : BitVec 4) (mode : BitVec 2) (ofs : BitVec 14)
  /-- STA (R358): Ar is stored as a word. -/
  | sta (r ab : BitVec 4) (mode : BitVec 2) (ofs : BitVec 14)
  /-- ADDA (R360): Ad becomes Ab plus the sign-extended IMM16. -/
  | adda (d b : BitVec 4) (imm : BitVec 16)
  /-- LEA (R358): The effective address is written into Ar without touching memory. -/
  | lea (r ab : BitVec 4) (mode : BitVec 2) (ofs : BitVec 14)
  /-- MUL (R361): The signed 64-bit product of Da and Db is issued towards MPL and MPH. -/
  | mul (z1 a b z2 : BitVec 4)
  /-- MULU (R361): The unsigned 64-bit product is issued towards MPL and MPH. -/
  | mulu (z1 a b z2 : BitVec 4)
  /-- MUL_PRODUCT_WRITE (R362): MPL and MPH are written exactly 4 cycles after a MUL or MULU issues. -/
  | mulProductWrite
  /-- MAC (R361): ACCn is increased by the signed product of Da and Db. -/
  | mac (z1 n : BitVec 2) (a b z2 : BitVec 4)
  /-- MACS (R361): ACCn is decreased by the signed product of Da and Db. -/
  | macs (z1 n : BitVec 2) (a b z2 : BitVec 4)
  /-- ACCR (R361): Dd is read from ACCn with rounding and saturation, or as raw bits, as MODE selects. -/
  | accr (d : BitVec 4) (mode n : BitVec 2) (sh : BitVec 8)
  /-- ACCZ (R361): ACCn is set to 0. -/
  | accz (z : BitVec 6) (n : BitVec 2) (sh : BitVec 8)
  /-- ACCZ_LONG (R361): ACCn is loaded from Dg, Dh and Dl. -/
  | acczLong (g : BitVec 4) (z n : BitVec 2) (lo hi : BitVec 4)
  /-- DIV (R363): A signed division of Da by Db is started, checking for a zero divisor. -/
  | div (d a b z : BitVec 4)
  /-- DIVU (R363): An unsigned division is started. -/
  | divu (d a b z : BitVec 4)
  /-- REM (R363): A signed remainder is started. -/
  | rem (d a b z : BitVec 4)
  /-- REMU (R363): An unsigned remainder is started. -/
  | remu (d a b z : BitVec 4)
  /-- DIV_COMPLETE (R363): A division writes Dd after 34 cycles. -/
  | divComplete
  /-- CB_EQ (R366): The branch is taken when Da equals Db. -/
  | cbEq (a b : BitVec 4) (disp : BitVec 16)
  /-- CB_NE (R366): The branch is taken when Da differs from Db. -/
  | cbNe (a b : BitVec 4) (disp : BitVec 16)
  /-- CB_LT (R366): The branch is taken when Da is less than Db, signed. -/
  | cbLt (a b : BitVec 4) (disp : BitVec 16)
  /-- CB_GE (R366): The branch is taken when Da is at least Db, signed. -/
  | cbGe (a b : BitVec 4) (disp : BitVec 16)
  /-- CB_LTU (R366): The branch is taken when Da is less than Db, unsigned. -/
  | cbLtu (a b : BitVec 4) (disp : BitVec 16)
  /-- CB_GEU (R366): The branch is taken when Da is at least Db, unsigned. -/
  | cbGeu (a b : BitVec 4) (disp : BitVec 16)
  /-- CBZ_EQ (R366): The branch is taken when Da equals 0. -/
  | cbzEq (a : BitVec 4) (disp : BitVec 16)
  /-- CBZ_NE (R366): The branch is taken when Da is not 0. -/
  | cbzNe (a : BitVec 4) (disp : BitVec 16)
  /-- CBZ_LT (R366): The branch is taken when Da is below 0. -/
  | cbzLt (a : BitVec 4) (disp : BitVec 16)
  /-- CBZ_GE (R366): The branch is taken when Da is at least 0. -/
  | cbzGe (a : BitVec 4) (disp : BitVec 16)
  /-- CBZ_GT (R366): The branch is taken when Da is above 0. -/
  | cbzGt (a : BitVec 4) (disp : BitVec 16)
  /-- CBZ_LE (R366): The branch is taken when Da is at most 0. -/
  | cbzLe (a : BitVec 4) (disp : BitVec 16)
  /-- J (R367): Execution continues at the address plus DISP24 × 4. -/
  | j (disp : BitVec 24)
  /-- CALL (R367): The following address is pushed on the return stack and execution jumps by DISP24. -/
  | call (disp : BitVec 24)
  /-- JA (R367): Execution continues at Ab. -/
  | ja (z1 ab : BitVec 4) (z2 : BitVec 16)
  /-- CALLA (R367): The following address is pushed and execution continues at Ab. -/
  | calla (z1 ab : BitVec 4) (z2 : BitVec 16)
  /-- RET (R369): Execution continues at a KIND 0 entry popped from the return stack. -/
  | ret (z : BitVec 24)
  /-- RETE (R411): The exception PC and status are checked and popped, STATUS is restored and the repeat resumes. -/
  | rete (z : BitVec 24)
  /-- PUSH (R371): A7 is decremented by 4 and the register is stored there. -/
  | push (r cls : BitVec 4) (z : BitVec 16)
  /-- POP (R371): The register is loaded from A7 and A7 is incremented by 4. -/
  | pop (r cls : BitVec 4) (z : BitVec 16)
  /-- NOP (R372): No operation. -/
  | nop (z imm : BitVec 8)
  /-- WFI (R408): Fetch stops until an enabled interrupt above IPL, or the NMI, is pending. -/
  | wfi (z imm : BitVec 8)
  /-- WFI_WAKE (R408): A pending interrupt or NMI resumes fetch after WFI. -/
  | wfiWake
  /-- FENCE_I (R386): The store buffer is drained, the I-cache and fetch buffers invalidated and the following word refetched. -/
  | fenceI (z imm : BitVec 8)
  /-- PFLUSH (R397): The branch predictor is cleared. -/
  | pflush (z imm : BitVec 8)
  /-- PBAR (R400): Prediction is barred with #1 or the bar is cleared with #0. -/
  | pbar (z imm : BitVec 8)
  /-- SYNC (R393): Execution waits until every earlier load and store has completed and the store buffer is empty. -/
  | sync (z imm : BitVec 8)
  /-- BKPT (R372): The core halts when debug is open, or raises the BKPT exception. -/
  | bkpt (z imm : BitVec 8)
  /-- TRAP (R372): The TRAP exception is raised with cause IMM8. -/
  | trap (z imm : BitVec 8)
  /-- MFC (R373): A CSR is read into Dd. -/
  | mfc (d : BitVec 4) (z : BitVec 8) (n : BitVec 12)
  /-- MTC (R373): Ds is written to a CSR after the retire buffer empties. -/
  | mtc (r : BitVec 4) (z : BitVec 8) (n : BitVec 12)
  /-- REP (R374): The next word is executed n times with no interrupt between iterations. -/
  | rep (z : BitVec 16) (n : BitVec 8) (next : BitVec 32)
  /-- REPI (R375): The next word is executed n times with interrupts admitted between iterations. -/
  | repi (z : BitVec 16) (n : BitVec 8) (next : BitVec 32)
  /-- PAIRED_WORD (R377): A paired word executes its two short operations as one instruction. -/
  | pairedWord (w : BitVec 31)
  /-- INTERRUPT_ENTRY (R404): A pending enabled interrupt above IPL is taken at an instruction boundary. -/
  | interruptEntry
  /-- NMI_REQUEST (R405): A rising edge of a FATAL event pending or NMI_N low latches an NMI request. -/
  | nmiRequest (low : Bool)
  /-- NMI_ENTRY (R405): A latched NMI is taken at the next boundary, setting NMIACT. -/
  | nmiEntry
  /-- TIMER_COMPARE (R403): CYCLE reaching TIMECMP makes interrupt source 11 pending. -/
  | timerCompare
  /-- STORE_BUFFER_DRAIN (R391): A buffered store to the scratchpad or mailbox drains to memory in program order. -/
  | storeBufferDrain
  /-- CORE_RESET_WRITE (R414): A write of CCD_CTRL.CORE_RST resets the core, which restarts under R387. -/
  | coreResetWrite (who : Requester) (view : View)
  /-- SECURE_WINDOW_WIPE (R422): On the Lagg die's order the secure window of the scratchpad is zeroed within 14 µs. -/
  | secureWindowWipe
  /-- SPM_TEST_STEP (R423): The background test borrows a scratchpad line, marches it and restores it. -/
  | spmTestStep (wrong : Bool) (upsets : List (BitVec 19 × Bool))
  /-- MAILBOX_ACCESS (R425): A host-port access to the mailbox RAM is served, losing a write that collides with a core write. -/
  | mailboxAccess (who : Requester) (w : BitVec 10) (data : Option (BitVec 32)) (strb : BitVec 4) (collides : Bool)
  /-- MATRIX_TIMEOUT (R429): A transaction without response for TIMEOUT µs is answered with a slave error. -/
  | matrixTimeout (m : Fin 7) (target : Fin 7) (write : Bool) (addr : BitVec 32)
  /-- MATRIX_LOCK_BREAK (R429): A locked sequence held past LOCK_MAX is released and answered with slave errors. -/
  | matrixLockBreak (bridge : Bool) (target : Fin 7) (write : Bool) (addr : BitVec 32)
  /-- DMA_GO (R433): A write of GO starts a DMA channel copying LEN bytes. -/
  | dmaGo (who : Requester) (view : View) (c : Fin 4)
  /-- DMA_ABORT (R432): A write of ABORT resets a DMA channel's transactions. -/
  | dmaAbort (who : Requester) (view : View) (c : Fin 4)
  /-- DMA_BURST_DONE (R433): A DMA burst completes, setting DONE at the end of the copy or ERR on an error response. -/
  | dmaBurstDone (c : Fin 4)
  /-- MBX_DOORBELL_IN_SET (R437): A write to MTX_MBX_DB_INSET rings the core. -/
  | mbxDoorbellInSet (who : Requester) (view : View) (w : BitVec 32)
  /-- MBX_DOORBELL_OUT_SET (R437): A write to MTX_MBX_DB_OUTSET rings the host. -/
  | mbxDoorbellOutSet (who : Requester) (view : View) (w : BitVec 32)
  /-- CDC_TRANSFER_END (R435): A toggle-pulse transfer's acknowledgement returns and a pending pulse starts the next transfer. -/
  | cdcTransferEnd (x : BitVec 8) (pulses : BitVec 8) (dropped : Bool)
  /-- GDDR7_TRAIN_DONE (R442): A port's training ends UP, or LOST after 3 attempts. -/
  | gddr7TrainDone (t : GddrTrain)
  /-- GDDR7_TRACKING (R443): Read and WCK timing tracking is repeated at least every 1 ms on an UP port. -/
  | gddr7Tracking (p : Fin 8) (temp : BitVec 8) (bwWr bwRd : BitVec 32)
  /-- GDDR7_REFRESH (R444): The controller issues a per-bank refresh as the standard requires. -/
  | gddr7Refresh (p : Fin 8) (stall share : BitVec 16)
  /-- GDDR7_REQUEST_DONE (R445): A request completes, is retried on a CRC or ECC error, or is exhausted after RETRY_MAX. -/
  | gddr7RequestDone (r : GddrDone)
  /-- SEC_CLAIM (R501): A write of SEC_CLAIM.CLAIM to a free buffer gives it to the writer with a fresh challenge. -/
  | secClaim (who : Requester) (view : View)
  /-- SEC_RELEASE (R501): A write of RELEASE by the holder ends the claim. -/
  | secRelease (who : Requester) (view : View)
  /-- SEC_CLAIM_TIMEOUT (R501): A claim ends 1 s after the holder's last write. -/
  | secClaimTimeout
  /-- SESSION (R506): A SESSION token submitted by GO opens a session for its requester. -/
  | session (who : Requester) (view : View)
  /-- ENROL (R505): An ENROL token submitted by GO places a public key in an empty owner slot. -/
  | enrol (who : Requester) (view : View)
  /-- REVOKE (R505): A REVOKE token submitted by GO revokes an owner slot and closes its sessions. -/
  | revoke (who : Requester) (view : View)
  /-- PROVISION (R504): A PROVISION token generates the identity key and moves BLANK to PROVISIONED. -/
  | provision (who : Requester) (intent : BitVec 64)
  /-- OWN (R504): An OWN token enrols the owner key in slot 0 and moves to OWNED. -/
  | own (who : Requester) (intent : BitVec 64)
  /-- RETURN (R504): A RETURN token fully zeroises and moves to RETURNED. -/
  | returnToken (who : Requester) (intent : BitVec 64)
  /-- SCRAP (R504): A SCRAP token fully zeroises and moves to SCRAPPED, burned into OTP. -/
  | scrap (who : Requester) (intent : BitVec 64)
  /-- REPROVISION (R504): A REPROVISION token makes a new identity key, clears DEBUG_OPENED and moves to PROVISIONED. -/
  | reprovision (who : Requester) (intent : BitVec 64)
  /-- DEBUG (R510): A DEBUG token opens debug with the scope given by ARG. -/
  | debug (who : Requester) (intent : BitVec 64)
  /-- SESSION_CLOSE (R506): A write of SEC_SESS_CLOSE closes the writer's session. -/
  | sessionClose (who : Requester) (view : View)
  /-- SESSION_TIMEOUT (R506): A session without an applied P-view write for SESS_TO minutes closes. -/
  | sessionTimeout
  /-- TAMPER_ARM (R513): A write of 1 to a bit of SEC_TMP_EN persistently arms a TMP_IN input. -/
  | tamperArm (who : Requester) (view : View) (mask : BitVec 4)
  /-- TAMPER_DETECT (R514): A sensor detects tamper; the ENV response follows, and a full zeroisation for PHYS. -/
  | tamperDetect (code : Fin 10)
  /-- ZEROISE_SCRUB_DONE (R514): The secure partition scrub ends, the life cycle is written RETURNED and the pending mark is cleared. -/
  | zeroiseScrubDone
  /-- NOISE_SAMPLE (R494): Each entropy noise sample passes the repetition and proportion tests. -/
  | noiseSample (ok : Bool)
  /-- RANDOM_READ (R501): A read of the Lagg bridge random window returns 32 fresh DRBG bits, or a slave error. -/
  | randomRead
  /-- PEAT_ENTRY_WRITE (R534): The Lagg die writes a queued peat entry, skipping frozen regions. -/
  | peatEntryWrite
  /-- HEALTH_SAMPLE (R534): A HEALTH peat entry is written every 100 ms. -/
  | healthSample
  /-- FREEZE_RELEASE (R535): A write to JNL_FRZ_REL releases a frozen region. -/
  | freezeRelease (who : Requester) (view : View) (mask : BitVec 4)
  /-- FIRMWARE_PEAT_COMMIT (R537): A write to word 3 of the Lagg bridge window commits a FIRMWARE peat entry, or a slave error comes within 100 µs. -/
  | firmwarePeatCommit (w0 w1 w2 w3 : BitVec 32)
  /-- ERU_SLOT_FREE (R539): A write of 1 to a slot's VALID frees the slot. -/
  | eruSlotFree (who : Requester) (view : View) (k : Fin 8)
  /-- FATAL_TIMEOUT (R541): FATAL_TO passing after a FATAL event enters FAULT_STOP. -/
  | fatalTimeout
  /-- ENDPOINT_RESET (R546): PERST_N low, a hot reset, a link down or an FLR resets the PCIe endpoint alone. -/
  | endpointReset (cause : Fin 4) (n : Fin 17) (link : Option (Fin 6 × Fin 9))
  /-- RECORD_CI_DOORBELL (R559): A write of PCIE_DB_REC_CI returns record ring entries, or is ignored with DB_RANGE. -/
  | recordCiDoorbell (page : Bool) (who : Requester) (ci : BitVec 32)
  /-- CLIP_CI_DOORBELL (R559): A write of PCIE_DB_CLIP_CI returns clip buffers, or is ignored with DB_RANGE. -/
  | clipCiDoorbell (page : Bool) (who : Requester) (ci : BitVec 32)
  /-- ATOMIC_OP (R557): A PCIe AtomicOp runs as a locked read and write on the mailbox or scratchpad. -/
  | atomicOp (off : BitVec 29) (wide : Bool) (op : AtOp) (v : BitVec 64) (lo hi : Bool)
  /-- MSIX_SEND (R562): A vector becoming pending sends one MSI-X message within 2 µs when unmasked. -/
  | msixSend (v : Fin 64) (again : Bool)
  /-- OUTBOUND_CPL_TIMEOUT (R564): An outbound request without completion within CPL_TO is answered with a slave error. -/
  | outboundCplTimeout (m : Fin 7) (e : OutEnd) (addr : BitVec 32)
  /-- REGISTER_WRITE (R552): A write to a register without behaviour of its own passes the view, gate, access, encoding and class steps. -/
  | registerWrite (who : Requester) (view : View) (off : BitVec 25) (data : BitVec 32) (strb : BitVec 4)
  /-- LO_REGISTER_READ (R70): Reading a _LO register latches its _HI partner for the next read. -/
  | loRegisterRead (who : Requester) (view : View) (off : BitVec 25)
  /-- THERMAL_SAMPLE (R575): Every 1 ms the thermal control samples the sensors and requests a slower or faster ACLK step. -/
  | thermalSample (pd : Vector (BitVec 16) 8) (ld : BitVec 16)
  /-- AVS_VOUT_SETTLED (R571): READ_VOUT within 10 mV of a faster step's target lets that step be applied. -/
  | avsVoutSettled (reply : Option (BitVec 16))
  /-- AVS_TIMEOUT (R571): A target not reached within 500 µs raises AVS_FAULT and the step is not taken. -/
  | avsTimeout
  /-- AVS_RETRY (R571): A failed step request is retried after 100 ms. -/
  | avsRetry
  /-- PMB_ALERT_INPUT (R570): PMB_ALERT_N low causes status reads, CLEAR_FAULTS and PMB_ALERT. -/
  | pmbAlertInput (acked : Bool)
  /-- SUPPLY_WARN_TIMER (R590): A monitored rail outside its range for more than 100 µs raises SUPPLY_WARN. -/
  | supplyWarnTimer (mv : Vector (BitVec 16) 4)
  /-- POWER_SAMPLE (R591): Every 100 ms READ_POUT is read from each regulator and summed into CLK_PWR. -/
  | powerSample (pout : Vector (Option (BitVec 16)) 4)
  /-- POWER_LOSS (R568): The supplies fall, at power-down or by a loss of power in any order; the MRK and GPO balls go high impedance, queued peat entries are lost and an unfinished life-cycle transition has not happened. -/
  | powerLoss
  /-- ENV_CONDITION_END (R515): An ENV tamper condition, a supply or clock disturbance, ceases, so BOOT may again release the PD. -/
  | envConditionEnd
  /-- PERST_N_RELEASE (R545): PERST_N rises, and the endpoint begins link training once the PD has been released. -/
  | perstNRelease (speed : Fin 6) (width : Fin 9)
  /-- CONFIGURATION_REQUEST (R562): A host configuration-space or MSI-X table access changes MSI-X enable, vector masks, bus mastering or D3hot; unmasking a vector whose pending bit is set sends its message. -/
  | configurationRequest (r : CfgReq)
  deriving DecidableEq, Repr

end Sys2Proof
end

