-- ==== Sys2Proof/Decode.lean ====
section
/-! DEFINITION. The decoder of the table's words (the rows of spec/opcode_table.json give no bits, so no word spells a command), and the
instruction words of the control core's rows (R351 to R353). -/
namespace Sys2Proof

/-- The command that a word of `nbits` bits spells by the table: none, for the table gives no row any bits (log 3). -/
def decodeTableWord (_nbits _w : Nat) : Option Instr := none

/-- Long words from their major opcode and fields. -/
def wRrr (m : BitVec 7) (d a b z : BitVec 4) (f : BitVec 8) : Word := 0#1 ++ m ++ d ++ a ++ b ++ z ++ f
def wRri (m : BitVec 7) (d a : BitVec 4) (imm : BitVec 16) : Word := 0#1 ++ m ++ d ++ a ++ imm
def wShi (d a : BitVec 4) (k : BitVec 2) (z : BitVec 6) (amt : BitVec 8) : Word := 0#1 ++ 0x06#7 ++ d ++ a ++ k ++ z ++ amt
def wMem (m : BitVec 7) (r ab : BitVec 4) (mode : BitVec 2) (ofs : BitVec 14) : Word := 0#1 ++ m ++ r ++ ab ++ mode ++ ofs
def w24 (m : BitVec 7) (x : BitVec 24) : Word := 0#1 ++ m ++ x
def wSys (z imm f : BitVec 8) : Word := 0#1 ++ 0x38#7 ++ z ++ imm ++ f

/-- The instruction word of a row of the control core, from the layouts of R352 and the codes of R353; `none` for every other row. -/
def coreEncode : Instr → Option Word
  | .add d a b z => some (wRrr 0x01 d a b z 0x00)
  | .sub d a b z => some (wRrr 0x01 d a b z 0x01)
  | .and d a b z => some (wRrr 0x01 d a b z 0x02)
  | .or d a b z => some (wRrr 0x01 d a b z 0x03)
  | .xor d a b z => some (wRrr 0x01 d a b z 0x04)
  | .shl d a b z => some (wRrr 0x01 d a b z 0x05)
  | .shr d a b z => some (wRrr 0x01 d a b z 0x06)
  | .sar d a b z => some (wRrr 0x01 d a b z 0x07)
  | .rol d a b z => some (wRrr 0x01 d a b z 0x08)
  | .neg d a b z => some (wRrr 0x01 d a b z 0x09)
  | .abs d a b z => some (wRrr 0x01 d a b z 0x0A)
  | .min d a b z => some (wRrr 0x01 d a b z 0x0B)
  | .max d a b z => some (wRrr 0x01 d a b z 0x0C)
  | .clz d a b z => some (wRrr 0x01 d a b z 0x0D)
  | .addImm d a imm => some (wRri 0x02 d a imm)
  | .andImm d a imm => some (wRri 0x03 d a imm)
  | .orImm d a imm => some (wRri 0x04 d a imm)
  | .xorImm d a imm => some (wRri 0x05 d a imm)
  | .shlImm d a z amt => some (wShi d a 0 z amt)
  | .shrImm d a z amt => some (wShi d a 1 z amt)
  | .sarImm d a z amt => some (wShi d a 2 z amt)
  | .rolImm d a z amt => some (wShi d a 3 z amt)
  | .movi d imm => some (0#1 ++ 0x08#7 ++ d ++ imm)
  | .movhi d z imm => some (wRri 0x09 d z imm)
  | .mov d src kind z => some (0#1 ++ 0x1C#7 ++ d ++ src ++ kind ++ z)
  | .ldB r ab mode ofs => some (wMem 0x10 r ab mode ofs)
  | .ldBu r ab mode ofs => some (wMem 0x11 r ab mode ofs)
  | .ldH r ab mode ofs => some (wMem 0x12 r ab mode ofs)
  | .ldHu r ab mode ofs => some (wMem 0x13 r ab mode ofs)
  | .ldW r ab mode ofs => some (wMem 0x14 r ab mode ofs)
  | .stB r ab mode ofs => some (wMem 0x15 r ab mode ofs)
  | .stH r ab mode ofs => some (wMem 0x16 r ab mode ofs)
  | .stW r ab mode ofs => some (wMem 0x17 r ab mode ofs)
  | .lda r ab mode ofs => some (wMem 0x18 r ab mode ofs)
  | .sta r ab mode ofs => some (wMem 0x19 r ab mode ofs)
  | .adda d b imm => some (wRri 0x1A d b imm)
  | .lea r ab mode ofs => some (wMem 0x1B r ab mode ofs)
  | .mul z1 a b z2 => some (wRrr 0x20 z1 a b z2 0x00)
  | .mulu z1 a b z2 => some (wRrr 0x20 z1 a b z2 0x01)
  | .mac z1 n a b z2 => some (wRrr 0x20 (z1 ++ n) a b z2 0x02)
  | .macs z1 n a b z2 => some (wRrr 0x20 (z1 ++ n) a b z2 0x03)
  | .accr d mode n sh => some (0#1 ++ 0x20#7 ++ d ++ mode ++ n ++ sh ++ 0x04#8)
  | .accz z n sh => some (0#1 ++ 0x20#7 ++ z ++ n ++ sh ++ 0x05#8)
  | .acczLong g z n lo hi => some (wRrr 0x20 g (z ++ n) lo hi 0x06)
  | .div d a b z => some (wRrr 0x21 d a b z 0x00)
  | .divu d a b z => some (wRrr 0x21 d a b z 0x01)
  | .rem d a b z => some (wRrr 0x21 d a b z 0x02)
  | .remu d a b z => some (wRrr 0x21 d a b z 0x03)
  | .cbEq a b disp => some (wRri 0x28 a b disp)
  | .cbNe a b disp => some (wRri 0x29 a b disp)
  | .cbLt a b disp => some (wRri 0x2A a b disp)
  | .cbGe a b disp => some (wRri 0x2B a b disp)
  | .cbLtu a b disp => some (wRri 0x2C a b disp)
  | .cbGeu a b disp => some (wRri 0x2D a b disp)
  | .cbzEq a disp => some (wRri 0x2E a 0 disp)
  | .cbzNe a disp => some (wRri 0x2E a 1 disp)
  | .cbzLt a disp => some (wRri 0x2E a 2 disp)
  | .cbzGe a disp => some (wRri 0x2E a 3 disp)
  | .cbzGt a disp => some (wRri 0x2E a 4 disp)
  | .cbzLe a disp => some (wRri 0x2E a 5 disp)
  | .j disp => some (w24 0x30 disp)
  | .call disp => some (w24 0x31 disp)
  | .ja z1 ab z2 => some (wRri 0x32 z1 ab z2)
  | .calla z1 ab z2 => some (wRri 0x33 z1 ab z2)
  | .ret z => some (w24 0x34 z)
  | .rete z => some (w24 0x35 z)
  | .push r cls z => some (wRri 0x36 r cls z)
  | .pop r cls z => some (wRri 0x37 r cls z)
  | .nop z imm => some (wSys z imm 0)
  | .wfi z imm => some (wSys z imm 1)
  | .fenceI z imm => some (wSys z imm 2)
  | .pflush z imm => some (wSys z imm 3)
  | .pbar z imm => some (wSys z imm 4)
  | .sync z imm => some (wSys z imm 5)
  | .bkpt z imm => some (wSys z imm 6)
  | .trap z imm => some (wSys z imm 7)
  | .mfc d z n => some (0#1 ++ 0x39#7 ++ d ++ z ++ n)
  | .mtc r z n => some (0#1 ++ 0x3A#7 ++ r ++ z ++ n)
  | .rep z n _ => some (0#1 ++ 0x3C#7 ++ z ++ n)
  | .repi z n _ => some (0#1 ++ 0x3D#7 ++ z ++ n)
  | .pairedWord w => some (1#1 ++ w)
  | _ => none

end Sys2Proof
end

