-- ==== Sys2Proof/Machine/Bits.lean ====
section
/-! DEFINITION. Bit fields, byte orders, signed readings, saturating counts and the two checksums (R79, R86). -/
namespace Sys2Proof.Machine

/-- Bits `hi` to `lo` of a number. -/
def bitsN (n hi lo : Nat) : Nat := n / 2 ^ lo % 2 ^ (hi + 1 - lo)

/-- Bits `hi` to `lo` of a word, as a number. -/
def bits (w : Word) (hi lo : Nat) : Nat := bitsN w.toNat hi lo

/-- Bit `i` of a number. -/
def bitN (n i : Nat) : Bool := n / 2 ^ i % 2 == 1

/-- `n` with bits `hi` to `lo` replaced by the low bits of `v`. -/
def putBitsN (n hi lo v : Nat) : Nat :=
  n - bitsN n hi lo * 2 ^ lo + v % 2 ^ (hi + 1 - lo) * 2 ^ lo

/-- A word with bits `hi` to `lo` replaced. -/
def putBits (w : Word) (hi lo v : Nat) : Word := BitVec.ofNat 32 (putBitsN w.toNat hi lo v)

/-- A field value `v` of bits `hi` to `lo`, placed in a word of zeros; fields of one word are added. -/
def fld (hi lo v : Nat) : Nat := v % 2 ^ (hi + 1 - lo) * 2 ^ lo

/-- A Boolean as a bit. -/
def b2n (b : Bool) : Nat := if b then 1 else 0

/-- The word of a number, modulo 2^32. -/
def w32 (n : Nat) : Word := BitVec.ofNat 32 n

/-- The word of a signed number, modulo 2^32. -/
def w32i (n : Int) : Word := BitVec.ofInt 32 n

/-- `n` modulo `2^k` read as a two's complement number of `k` bits. -/
def signed (k n : Nat) : Int :=
  let m := n % 2 ^ k
  if m < 2 ^ (k - 1) then (m : Int) else (m : Int) - (2 ^ k : Nat)

/-- A signed number as a number of `k` bits, modulo `2^k`. -/
def unsigned (k : Nat) (z : Int) : Nat := (z % ((2 ^ k : Nat) : Int)).toNat

/-- Wrap a signed number into the range of `k` bits. -/
def wrapS (k : Nat) (z : Int) : Int := signed k (unsigned k z)

/-- The number, held at most at `2^k - 1`: a counter that saturates. -/
def sat (k n : Nat) : Nat := min n (2 ^ k - 1)

/-- A signed number held inside the range of `k` bits. -/
def satS (k : Nat) (z : Int) : Int :=
  max (-((2 ^ (k - 1) : Nat) : Int)) (min z (((2 ^ (k - 1) : Nat) : Int) - 1))

/-- Number of one bits among the low `k`. -/
def popcount (k n : Nat) : Nat := ((List.range k).filter (bitN n)).length

/-- The `k` bytes of a number, least significant first. -/
def leBytes (k n : Nat) : List Byte := (List.range k).map fun i => BitVec.ofNat 8 (n / 2 ^ (8 * i))

/-- The number spelled by bytes, least significant first. -/
def leNat : List Byte → Nat
  | [] => 0
  | b :: r => b.toNat + 256 * leNat r

/-- `k` bytes from offset `i`, absent ones reading 0. -/
def bslice (bs : List Byte) (i k : Nat) : List Byte := (List.range k).map fun j => bs.getD (i + j) 0

/-- The little-endian field of `k` bytes at offset `i`. -/
def fieldAt (bs : List Byte) (i k : Nat) : Nat := leNat (bslice bs i k)

/-- Exactly `k` bytes: cut or padded with zeros. -/
def fitBytes (k : Nat) (bs : List Byte) : List Byte := bslice bs 0 k

/-- One byte into the CRC-16 of R86: polynomial 0x1021, no reflection. -/
def crc16Byte (c : Nat) (b : Byte) : Nat :=
  (List.range 8).foldl
    (fun c _ => if c / 32768 % 2 == 1 then (c * 2 % 65536) ^^^ 0x1021 else c * 2 % 65536)
    (c ^^^ (b.toNat * 256))

/-- The CRC-16 of R86 over bytes, initial value 0xFFFF. -/
def crc16 (bs : List Byte) : Nat := bs.foldl crc16Byte 0xFFFF

/-- One byte into the CRC-32C of R79: the reflected form of polynomial 0x1EDC6F41. -/
def crc32cByte (c : Nat) (b : Byte) : Nat :=
  (List.range 8).foldl
    (fun c _ => if c % 2 == 1 then (c / 2) ^^^ 0x82F63B78 else c / 2) (c ^^^ b.toNat)

/-- The CRC-32C of R79 over bytes, initial value and final XOR 0xFFFFFFFF. -/
def crc32c (bs : List Byte) : Nat := (bs.foldl crc32cByte 0xFFFFFFFF) ^^^ 0xFFFFFFFF

/-- Integer division that truncates towards zero, as the pseudocode's `/` on signed values. -/
def tdiv (a b : Int) : Int := Int.tdiv a b

/-- Round half up of a ratio. -/
def rdiv (a : Int) (b : Nat) : Int := (2 * a + (b : Int)) / (2 * (b : Int))

/-- Sum of a list of numbers. -/
def sumN (l : List Nat) : Nat := l.foldl (· + ·) 0

/-- The 40-bit or narrower number as bits, helper for headers packed most significant field first. -/
def fldsOr (l : List (Nat × Nat × Nat)) : Nat := sumN (l.map fun f => fld f.1 f.2.1 f.2.2)

end Sys2Proof.Machine
end

