-- ==== Sys2Proof/Machine/Mem.lean ====
section
/-! DEFINITION. Sparse storage in one canonical form: keys strictly rising, no entry equal to what an unlisted key reads as. -/
namespace Sys2Proof.Machine

/-- A sparse map by number: the form of every memory and register file of the model. -/
abbrev SMap (α : Type) := List (Nat × α)

/-- Read key `k`; an unlisted key reads `d k`. -/
def smGet {α : Type} (d : Nat → α) : SMap α → Nat → α
  | [], k => d k
  | (k', v) :: r, k => if k = k' then v else smGet d r k

/-- Write `v` at key `k`, keeping the canonical form. -/
def smPut {α : Type} [DecidableEq α] (d : Nat → α) : SMap α → Nat → α → SMap α
  | [], k, v => if v = d k then [] else [(k, v)]
  | (k', v') :: r, k, v =>
    if k < k' then (if v = d k then (k', v') :: r else (k, v) :: (k', v') :: r)
    else if k = k' then (if v = d k then r else (k, v) :: r)
    else (k', v') :: smPut d r k v

/-- The canonical form: every key above `lo`, strictly rising, no default entry. -/
def smWfFrom {α : Type} [DecidableEq α] (d : Nat → α) : Nat → SMap α → Bool
  | _, [] => true
  | lo, (k, v) :: r => decide (lo ≤ k) && decide (v ≠ d k) && smWfFrom d (k + 1) r

/-- The canonical form of a whole map. -/
def smWf {α : Type} [DecidableEq α] (d : Nat → α) (m : SMap α) : Bool := smWfFrom d 0 m

/-- A byte memory, as cells of the host's form. -/
abbrev Memory := List Host.Cell

/-- What an unlisted byte of RAM reads as. DESIGN CHOICE (log 4): 0. -/
def ramDefault (_ : Nat) : Byte := 0

/-- What an unlisted byte of flash reads as: erased flash, 0xFF. DESIGN CHOICE (log 5). -/
def flashDefault (_ : Nat) : Byte := 0xFF

/-- The canonical form of a byte memory. -/
def Memory.wf (d : Nat → Byte) (m : Memory) : Bool := smWf d m

/-- One byte. -/
def memGet (d : Nat → Byte) (m : Memory) (a : Nat) : Byte := smGet d m a

/-- Store bytes at rising addresses. -/
def memPutBytes (d : Nat → Byte) : Memory → Nat → List Byte → Memory
  | m, _, [] => m
  | m, a, b :: r => memPutBytes d (smPut d m a b) (a + 1) r

/-- `k` bytes from address `a`. -/
def memGetBytes (d : Nat → Byte) (m : Memory) (a k : Nat) : List Byte :=
  (List.range k).map fun i => smGet d m (a + i)

/-- Remove every entry of a key range: the range reads its default again. -/
def smClearRange {α : Type} (m : SMap α) (lo hi : Nat) : SMap α :=
  m.filter fun e => decide (e.1 < lo) || decide (hi ≤ e.1)

end Sys2Proof.Machine
end

