-- ==== Sys2Proof/Machine/State.lean ====
section
/-! DEFINITION. The whole state of the device as plain data: every register, queue, memory and mode the spec names, the queue of
waiting commands, the reasons a step can stop, and the state after reset. -/
namespace Sys2Proof.Machine

/-- The device states of R25, in the order of their codes. -/
inductive DState where
  | boot | verify | load | train | armed | running | hold | faultStop | wiped
  deriving DecidableEq, Repr

/-- Level of an output ball: driven low, driven high, or high impedance (R15, R25, R569). -/
inductive Level where
  | low | high | hiZ
  deriving DecidableEq, Repr

/-- A symbol of the back channel (R73, R85): a special symbol or a byte of a message. -/
inductive Sym where
  | k (b : Byte)
  | d (b : Byte)
  deriving DecidableEq, Repr

/-- A message the device put on one of its ports. The list of them is the model's own record, not a part of the chip. -/
inductive Sent where
  /-- symbols on the back channel of lane `n` (R85, R86, R89): the filler bits before them, the symbols and their ten-bit codes. The first
  bit of the first symbol starts `start` bits of 0.64 ns after TS 0. IDLE pairs follow until the next entry of the lane; the entry of one
  pair alone says that the lane begins to send IDLE (R93). -/
  | lane (n : Nat) (start : Int) (filler : List Bool) (syms : List Sym) (codes : List (BitVec 10))
  /-- CoaXPress trigger packet on lane `n` (R111): the time in 1/16 TS at which the trigger derived from its delay field falls, and the
  field -/
  | cxpTrigger (n : Nat) (time : Int) (delay : Nat)
  /-- CoaXPress control packet or KSL MGMT payload on lane `n` (R113) -/
  | mgmt (n : Nat) (payload : List Byte)
  /-- a message to the fabric: class, type code, destination, payload (R309) -/
  | fabMsg (tc mtype dst : Nat) (payload : List Byte)
  /-- the words of a payload block on a fabric port; IDLE words follow until the port's next entry (R296, R297) -/
  | fabBlock (port : Nat) (words : List FabWord)
  /-- the words of a control block on a fabric port, likewise (R296, R298) -/
  | fabCtl (port : Nat) (words : List FabWord)
  /-- a message to the other die over the die link -/
  | die (what : String) (args : List Int)
  /-- a write into host memory -/
  | hostWrite (addr : Nat) (data : List Byte)
  /-- a write into a GDDR7 window by the results engine -/
  | winWrite (addr : Nat) (data : List Byte)
  /-- an MSI-X message -/
  | msix (vector : Nat)
  /-- an ERR_FATAL or ERR_NONFATAL message of the PCIe endpoint (R556) -/
  | errMsg (fatal : Bool)
  /-- a PMBus transaction: address, command name, data -/
  | pmbus (addr : Nat) (cmd : String) (data : Nat)
  /-- a response to a bus or port requester -/
  | resp (who : String) (code : String) (data : Nat)
  /-- bytes written to the flash, or a pulse of XSPI_RST_N -/
  | flash (op : String) (addr len : Nat)
  deriving DecidableEq, Repr

/-- The system state of the Lagg die: R11, R25, R455, R490, R567, R581. -/
structure SysState where
  /-- present state, SYS_STATE.STATE -/
  st : DState
  /-- previous state, SYS_STATE.PREV -/
  prev : DState
  /-- HOLD_CAUSE (R482) -/
  holdCause : Nat
  /-- cause of the last start, SYS_RESET -/
  resetCause : Nat
  /-- SYS_OUT.OUT_EN -/
  outEn : Bool
  /-- SYS_OUT.CEN_STOP, census STOP in force -/
  cenStop : Bool
  /-- SYS_T_ARMED -/
  tArmed : Nat
  /-- TS at the release of the Lagg die -/
  releaseTs : Nat
  /-- every rail in range -/
  powered : Bool
  /-- TS of the entry into the present state -/
  stAt : Nat
  /-- level of RESET_N -/
  resetN : Bool
  /-- TS at the last fall of RESET_N -/
  resetFall : Nat
  /-- the processing die is out of reset (R11) -/
  pdReleased : Bool
  /-- the die link is up (R12) -/
  dieLink : Bool
  /-- the Lagg die is lost: its balls are high impedance (R15, R31) -/
  laggLost : Bool
  /-- FAULT_N driven low (R582) -/
  faultN : Bool
  /-- the image of the present start has been applied, so MRK balls are driven (R569) -/
  mrkLive : Bool
  /-- a FATAL event arose in VERIFY or LOAD (R541) -/
  fatalPend : Bool
  /-- no further frame is dispatched after a FATAL event (R541) -/
  noDispatch : Bool
  /-- the BOOT in progress goes to HOLD with HOLD_CAUSE 3 (R485) -/
  restartHold : Bool
  /-- SYS_STARTS, in eMRAM -/
  starts : Nat
  deriving DecidableEq, Repr

/-- The one-time programmable values of the Lagg die (R4, R6, R175, R496, R505, R570). -/
structure Otp where
  grade : Nat
  range : Nat
  serial : Nat
  /-- disabled physical column, `none` when the spare is unused (R175) -/
  discol : Option Nat
  /-- hashes of the four Kabrimor root keys -/
  rootHash : Vector (List Byte) 4
  rootRevoked : Vector Bool 4
  scrapped : Bool
  /-- fused AVS targets, mV (R570) -/
  avs : Vector Nat 5
  subsysId : Nat
  /-- the device seed and the family patch key, 32 bytes each, read by the Lagg die alone (R496, R497) -/
  seed : List Byte
  kfam : List Byte
  deriving DecidableEq, Repr

/-- The LD balls of R14 and the open drain pair of R582. -/
structure Balls where
  trg : Vector Level 16
  mrk : Vector Level 8
  gpo : Vector Level 16
  /-- CC_LOCKUP (R414) -/
  ccLockup : Bool
  deriving DecidableEq, Repr

/-- A write of a peat entry that waits in the queue of the Lagg die (R534). -/
structure PeatReq where
  type : Nat
  sub : Nat
  time : Nat
  body : List Byte
  deriving DecidableEq, Repr

/-- A peat entry in eMRAM (R532); `ok` is its CRC's verdict. -/
structure PeatEntry where
  pseq : Nat
  start : Nat
  type : Nat
  sub : Nat
  time : Nat
  body : List Byte
  ok : Bool
  deriving DecidableEq, Repr

/-- A frozen region of the peat ring (R535). -/
structure FrzRegion where
  cause : Nat
  first : Nat
  pseq : Nat
  /-- its ring indices as spans: start and length -/
  spans : List (Nat × Nat)
  deriving DecidableEq, Repr

/-- The peat record (R532 to R537). -/
structure Peat where
  ring : SMap (Option PeatEntry)
  /-- ring index of the newest entry, when one was written -/
  head : Option Nat
  /-- PSEQ of the next entry -/
  next : Nat
  queue : List PeatReq
  /-- regions 0 to 3, and the order in which they were made, oldest first -/
  regions : Vector (Option FrzRegion) 4
  order : List Nat
  drop : Nat
  /-- TS of the last entry written from the queue (R534) -/
  wroteAt : Option Nat
  /-- TS of the last firmware commit (R537) -/
  fwLast : Option Nat
  /-- words of the FIRMWARE entry being written (R537) -/
  fwWords : Vector Word 4
  deriving DecidableEq, Repr

/-- A journal entry (R528). -/
structure JEntry where
  seq : Nat
  intent : Nat
  code : Nat
  dom : Nat
  state : Nat
  req : Nat
  ft : Nat
  coord : Int
  argdig : List Byte
  ostat : Nat
  ocode : Nat
  dur : Nat
  odata : Nat
  /-- TS at acceptance -/
  at_ : Nat
  acrcOk : Bool
  ocrcOk : Bool
  /-- TS at completion; and the transition that the command asks for was made, as the transition count shows (R508, R530) -/
  doneAt : Nat
  made : Bool
  deriving DecidableEq, Repr

/-- The command buffer of one requester (R522). -/
structure CmdBuf where
  words : Vector Word 16
  disp : Nat
  rej : Nat
  ocode : Nat
  ostat : Nat
  seq : Nat
  last : Nat
  deriving DecidableEq, Repr

/-- The read selectors of one requester (R542). -/
structure ReadSel where
  rdSelLo : Word
  rdSelHi : Word
  peatSel : Word
  deriving DecidableEq, Repr

/-- An accepted command that has not completed: its sequence number, requester and descriptor. -/
structure QCmd where
  seq : Nat
  req : Requester
  desc : List Byte
  at_ : Nat
  deriving DecidableEq, Repr

/-- The command journal block (R520 to R531). -/
structure Jnl where
  /-- entries of the eMRAM ring, newest first, at most 65,536 -/
  entries : List JEntry
  host : CmdBuf
  core : CmdBuf
  /-- fabric buffers, at most 8 -/
  fab : List (Nat × CmdBuf)
  /-- read selectors, by requester (R542) -/
  sels : List (Nat × ReadSel)
  queue : List QCmd
  wait : List QCmd
  /-- the open firmware command and the TS of its hand-over (R527) -/
  fw : Option (QCmd × Nat)
  /-- a command in execution that holds the queue: CENSUS_NOW until its round is decided (R342, R526) -/
  run : Option QCmd
  /-- TS of acceptances in the last second (R523) -/
  accepts : List Nat
  deriving DecidableEq, Repr

/-- A capture slot of the ERU (R539). -/
structure EruSlot where
  valid : Bool
  event : Nat
  src : Nat
  detail : Nat
  addr : Nat
  time : Nat
  deriving DecidableEq, Repr

/-- The error reporting unit (R538 to R541). -/
structure Eru where
  slots : Vector EruSlot 8
  ovf : Vector Nat 4
  cnt : Vector Nat 4
  udrop : Nat
  fatalActive : Bool
  /-- TS at which FATAL_TO passes -/
  fatalDue : Nat
  /-- TS of the last raising of each rate-limited event, by event and instance -/
  rate : List ((Nat × Nat) × Nat)
  deriving DecidableEq, Repr

/-- An edge report of R38: first and newest stamp, newest count, direction before INVERT. -/
structure EdgeReport where
  enc : Nat
  first : Nat
  newest : Nat
  count : Int
  up : Bool
  deriving DecidableEq, Repr

/-- An encoder input of the Lagg die (R32 to R38, R60). -/
structure Encoder where
  /-- accepted levels of A, B and Z (R34) -/
  a : Bool
  b : Bool
  z : Bool
  /-- the next level of A, of B, of Z that passes the filter is taken silently (R34) -/
  quietA : Bool
  quietB : Bool
  quietZ : Bool
  /-- whole count difference since reset; IOX_ENCn_COUNT reads its low 32 bits -/
  count : Int
  zcap : Int
  qerrCnt : Nat
  zerr : Bool
  qerr : Bool
  ovsp : Bool
  rxfA : Bool
  rxfB : Bool
  rxfZ : Bool
  /-- stamp and direction (before INVERT) of the newest count -/
  lastStamp : Option Nat
  lastUp : Option Bool
  /-- the open interval of R38, and closed reports not yet sent, oldest first -/
  openRep : Option EdgeReport
  closed : List EdgeReport
  /-- previous forward Z capture of the pair check (R60) -/
  prevZ : Option Int
  deriving DecidableEq, Repr

/-- Lock states of R63, in code order. -/
inductive Lock where
  | off | acquire | locked | coast | lost
  deriving DecidableEq, Repr

/-- Motion states of R43, in code order. -/
inductive Motion where
  | stopped | creep | track | reverse
  deriving DecidableEq, Repr

/-- A position domain as the processing die holds it (R40 to R46, R61 to R65). -/
structure Domain where
  lock : Lock
  motion : Motion
  /-- newest-edge samples of R42, newest first, at most 256 -/
  hist : List (Int × Nat)
  tPrev : Option Nat
  /-- velocity, nm per TS in Q32.32, and acceleration, nm per TS² in Q32.32 -/
  v : Int
  acc : Int
  /-- coordinate and stamp of the newest edge used by the estimator -/
  pe : Int
  te : Nat
  /-- newest count of the last report, after INVERT -/
  lastC : Option Int
  /-- coordinate of the newest edge, predicted coordinate in COAST, held coordinate in LOST -/
  coord : Int
  hwm : Int
  /-- count origin c₀ and the coordinate held there (R40, R62, R65) -/
  c0 : Int
  base : Int
  everLocked : Bool
  onCheck : Bool
  origin : Int
  product : Nat
  coastCnt : Nat
  coastSince : Nat
  /-- edges known to R41, newest first: stamp and coordinate -/
  known : List (Nat × Int)
  /-- counts of primary and check encoder at the start of the present 1 m of R62 -/
  cmpP : Int
  cmpC : Int
  deriving DecidableEq, Repr

/-- A committed trigger (R47): its event number at the LD, fire time in 1/16 TS, line, target and flags (R58). -/
structure Trig where
  id : Nat
  fire : Int
  k : Int
  target : Int
  x : Int
  phase : Nat
  coast : Bool
  creep : Bool
  /-- a cancel has been sent (R49) -/
  cancelled : Bool
  deriving DecidableEq, Repr

/-- A trigger generator (R45 to R50). -/
structure Gen where
  /-- least line not yet passed over by a skip -/
  kMin : Option Int
  prevFire : Option Int
  /-- last line fired (R65) -/
  lastK : Option Int
  /-- first line not acquired since the last loss of position (R65) -/
  lossFrom : Option Int
  /-- lines passed while gated off, not yet handed on as not acquired (R255) -/
  gated : List Int
  trigs : List Trig
  fired : Nat
  skipCnt : Nat
  lateCnt : Nat
  deriving DecidableEq, Repr

/-- A tracking table (R66 to R69): deltas newest first, at most 16,384. -/
structure TrkTable where
  /-- e of the oldest held sample -/
  base : Int
  count : Nat
  deltas : List Nat
  /-- newest x -/
  lastX : Int
  /-- its own high-water mark of c_e − D_E -/
  hw : Option Int
  nonmono : Nat
  deriving DecidableEq, Repr

/-- What an event sent to the Lagg die makes it do (R13). -/
inductive OutKind where
  /-- the trigger of generator `g` -/
  | trg (g : Nat)
  /-- marker `n` goes active, or inactive -/
  | mrkOn (n : Nat)
  | mrkOff (n : Nat)
  /-- the 2-bit phase code of generator `g` on GPO balls `ball` and `ball` + 1 (R59) -/
  | phase (g ball code : Nat)
  deriving DecidableEq, Repr

/-- An output event: its number, what it does, its time in 1/16 TS. -/
structure OutEvent where
  id : Nat
  kind : OutKind
  time : Int
  deriving DecidableEq, Repr

/-- Messages in flight to the Lagg die, oldest first (R12, R13). -/
inductive LdMsg where
  | event (e : OutEvent)
  | cancel (id : Nat)
  deriving DecidableEq, Repr

/-- Position timebase, encoders, triggers and the LD's output timing (R32 to R70). -/
structure Pos where
  enc : Vector Encoder 4
  /-- edge reports on the die link, oldest first -/
  reports : List EdgeReport
  dom : Vector Domain 16
  /-- a standby root's own encoder, run as a domain beside the one its beacons drive (R333) -/
  shadowDom : Vector Domain 16
  gen : Vector Gen 32
  tt : Vector TrkTable 4
  /-- copies of remote tracking tables: tracked domain, exit domain, table (R69) -/
  ttCopy : List (Nat × Nat × TrkTable)
  toLd : List LdMsg
  held : List OutEvent
  nextEv : Nat
  /-- end of the running pulse of each TRG ball, 1/16 TS (R56) -/
  trgEnd : Vector (Option Int) 16
  deriving DecidableEq, Repr

/-- Training phase of a lane (R93). RETRAIN, code 6, is any of the middle phases with `retraining` set. -/
inductive LanePhase where
  | off | bcLock | equalise | blockLock | capability | up | failed
  deriving DecidableEq, Repr

/-- A SEQ found missing: requests made and TS of the last (R100). -/
structure Missing where
  seq : Nat
  reqs : Nat
  last : Nat
  deriving DecidableEq, Repr

/-- An ingress lane (R71 to R113). Sequence numbers are whole counts since LINK_UP; the wire carries them modulo 2^16. -/
structure Lane where
  phase : LanePhase
  retraining : Bool
  attempts : Nat
  failed : Nat
  /-- TS at entry to the present phase -/
  since : Nat
  base : Nat
  got : List Nat
  lost : List Nat
  missing : List Missing
  /-- one above the highest SEQ shown -/
  top : Nat
  /-- good line blocks held for R105: SEQ and LINE, newest first -/
  goods : List (Nat × Nat)
  ackCnt : Nat
  ackFirst : Option Nat
  lastAck : Nat
  capA : Option (List Byte)
  /-- last complete CAP pair -/
  capPair : Option (List Byte × List Byte)
  /-- the last 58 payload bits received, the oldest in bit 0: the descrambler (R72) -/
  descr : Nat
  /-- words received since LINK_UP, and the numbers of the last 16 of them with an invalid sync header, newest first (R95) -/
  words : Nat
  badAt : List Nat
  /-- 16 invalid sync headers were seen among 64 words (R95) -/
  syncLoss : Bool
  /-- TS of the last IDLE word, and of the last TRAIN message sent (R93, R95) -/
  lastIdle : Nat
  lastTrain : Nat
  /-- payload of the latest ACK (R99) -/
  ack : List Byte
  /-- end of the last symbol sent that is not IDLE, in bits of 0.64 ns from TS 0; running disparity there, and the last bit sent -/
  bcEnd : Int
  rd : Bool
  lastBit : Bool
  /-- messages that wait for a committed TTS to pass: type code and payload (R90) -/
  bcq : List (Nat × List Byte)
  /-- end of the last MGMT message sent, in bits: TX_BUSY reads 1 before it (R113) -/
  mgEnd : Int
  /-- the CoaXPress line in progress matched no trigger record (R112) -/
  cxpSkip : Bool
  mgTx : List Byte
  mgRx : List Byte
  mgPos : Nat
  rxReady : Bool
  deriving DecidableEq, Repr

/-- One good block of a line under assembly: lane index, plane, first pixel, marks, pixels. -/
structure LineBlk where
  idx : Nat
  plane : Nat
  ofs : Nat
  first : Bool
  last : Bool
  pix : List Nat
  deriving DecidableEq, Repr

/-- An entry of a head's trigger record (R103), with what has arrived of its line (R105). -/
structure TrigRec where
  /-- low 32 bits of k, or the head's own count when free-running -/
  line : Nat
  x : Int
  phase : Nat
  coast : Bool
  creep : Bool
  free : Bool
  /-- fire time, 1/16 TS; for a free-running head the arrival of its first block -/
  fire : Int
  /-- the LINE its blocks carry, once matched -/
  wire : Option Nat
  stampErr : Bool
  /-- its line came with TRG_BAD -/
  bad : Bool
  /-- plane and LANE_IDX of the FIRST blocks seen with TRG_BAD -/
  seen : List (Nat × Nat)
  done : Bool
  blks : List LineBlk
  deriving DecidableEq, Repr

/-- A line that matched no entry of its head's trigger record (R103): the LINE of its blocks, and plane and LANE_IDX of those of them that
were FIRST. -/
structure OrphanLine where
  line : Nat
  seen : List (Nat × Nat)
  deriving DecidableEq, Repr

/-- An input line of one output plane, conditioned up to step 5 (R116, R121): stamp, line number, flags, pixels; `none` when the
line is incomplete. -/
structure InLine where
  s : Int
  line : Nat
  flags : Nat
  sat : Nat
  pix : Option (List Nat)
  deriving DecidableEq, Repr

/-- An output line formed and not yet written (R122, R126, R132). -/
structure OutLine where
  m : Int
  q : Nat
  y : Int
  line : Nat
  flags : Nat
  sat : Nat
  pix : List Nat
  filled : Bool
  formed : Nat
  /-- waits for the strip of its left neighbour -/
  waits : Bool
  deriving DecidableEq, Repr

/-- An edge strip received before its line was formed (R125). -/
structure Strip where
  m : Int
  q : Nat
  flags : Nat
  pix : List Nat
  deriving DecidableEq, Repr

/-- The line generator of an output plane (R122, R123), and the output lines written to its ring. -/
structure PlaneGen where
  mNext : Option Int
  prev : Option InLine
  lastGood : Option (List Nat)
  /-- first and last output line written (R134) -/
  wFirst : Option Int
  wLast : Option Int
  deriving DecidableEq, Repr

/-- A table bank: the table set it holds or loads, and whether the load has ended (R128). -/
structure Bank where
  ts : Option Nat
  ready : Bool
  deriving DecidableEq, Repr

/-- A conditioning slice (R114 to R138). -/
structure Slice where
  bank : Nat
  banks : Vector Bank 2
  /-- banks whose load has begun and has not ended, in their order: one load runs at a time (R130) -/
  loads : List Nat
  planes : Vector PlaneGen 4
  /-- output lines formed, oldest first -/
  lines : List OutLine
  strips : List Strip
  /-- input lines discarded: STAMP_ORDER (R122) -/
  stampOrder : Nat
  deriving DecidableEq, Repr

/-- A socket, queue, link or tile-memory word (R140). -/
abbrev V128 := BitVec 128

/-- States of a tile, in code order (TILE_STATUS.STATE). -/
inductive TileSt where
  | off | idle | run | faulted | halted
  deriving DecidableEq, Repr

/-- An active counted loop (R157). -/
structure Loop where
  first : Nat
  last : Nat
  left : Nat
  it : Nat
  deriving DecidableEq, Repr

/-- What lands at the end of a unit's latency (R148). -/
inductive Land where
  | alu (u : Nat) (v : V128)
  /-- a multiply on accumulator `acc` of unit `u`, clearing first or not, with its eight products -/
  | mac (u acc : Nat) (clear : Bool) (prods : List Int)
  | csu (sel mask cnt : V128)
  | lut (v : V128)
  | rf (port : Nat) (v : V128)
  | lsu (v : V128)
  deriving DecidableEq, Repr

/-- An OUTQ entry (R161). -/
structure OutqEnt where
  isEnd : Bool
  data : V128
  tag : Nat
  cycle : Nat
  prog : Nat
  vcol : Nat
  vrow : Nat
  frame : Nat
  fault : Bool
  poison : Bool
  discarded : Nat
  deriving DecidableEq, Repr

/-- A word on its way over a link: input direction at the receiver (0 N, 1 E, 2 S, 3 W), arrival cycle, value, POISON (R170). -/
structure LinkWord where
  dir : Nat
  cyc : Nat
  val : V128
  poison : Bool
  deriving DecidableEq, Repr

/-- A tile of the Askak array (R139 to R182). -/
structure Tile where
  st : TileSt
  pc : Nat
  rep : Nat
  loops : List Loop
  /-- next cycle of the frame, program and frame number -/
  cyc : Nat
  prog : Nat
  frame : Int
  /-- the program has passed its EOF word or stopped -/
  done : Bool
  stopped : Bool
  aluA : Vector V128 2
  aluR : Vector V128 2
  macA : Vector V128 2
  macSh : Vector V128 2
  /-- accumulators MAC0 ACC0, ACC1, MAC1 ACC0, ACC1, eight lanes of 40 bits, lane 0 lowest -/
  acc : Vector (BitVec 320) 4
  csuA : V128
  csuX : V128
  csuY : V128
  csuSel : V128
  csuMask : V128
  csuCnt : V128
  lutBase : V128
  lutR : V128
  lsuAddr : V128
  lsuStride : V128
  rf : Vector V128 32
  /-- RF addresses wa0, wa1, ra0, ra1 -/
  rfAd : Vector V128 4
  rfR : Vector V128 2
  tag : V128
  seqCount : V128
  k : Vector V128 2
  /-- results in flight: cycle at which they land -/
  pipe : List (Nat × Land)
  /-- NET input queues N, E, S, W with POISON -/
  net : Vector (List (V128 × Bool)) 4
  lsuQ : List V128
  strm : List V128
  outq : List OutqEnt
  /-- words waiting in the stream port, at most 8, and those the stream engine still holds -/
  port : List (Nat × V128)
  engine : List (Nat × V128)
  links : List LinkWord
  mem : SMap V128
  /-- words of tile memory whose check bits show one wrong bit (1) or two (2), by address (R163, R168) -/
  bad : SMap Nat
  moves : SMap (BitVec 160)
  slots : SMap Word
  lut : Memory
  /-- stores of the frame's fault state (R178 to R180) -/
  fCode : Nat
  fSrc : Bool
  fSlot : Nat
  fSock : Nat
  fPc : Nat
  fCyc : Nat
  fFrame : Int
  fProg : Nat
  fMore : Nat
  /-- a fault occurred in the present frame -/
  fNow : Bool
  /-- a fault occurred in the last frame that has ended (R238) -/
  fLast : Bool
  popPoison : Bool
  /-- pushes discarded after a fault in the present frame -/
  dropNow : Nat
  restartReq : Bool
  frames : Nat
  lastCyc : Nat
  free : Nat
  freeNow : Nat
  /-- it has been dispatched since the array was loaded in TRAIN: TILE_FREE counts from its dispatches (R182) -/
  ran : Bool
  /-- queue high-water marks: NETN, NETE, NETS, NETW, LSU, STRM, OUTQ -/
  hwm : Vector Nat 7
  pushed : Nat
  pushedNow : Nat
  discarded : Nat
  ceCnt : Nat
  ueCnt : Nat
  ceAddr : Nat
  ueAddr : Nat
  passes : Nat
  scrubNext : Nat
  /-- a correctable word waiting to be written back -/
  scrubFix : Option Nat
  /-- free cycles of the frame that the users of the port hold, the present one included, and those of them that a tile-space access still
  waits for, before which a stream word goes (R164, R166) -/
  portBusy : Nat
  portLater : Nat
  /-- free cycles no other user took since the last scrub read, the TS from which those outside a frame count, and the cycles outside a
  frame that other users took since (R167) -/
  idleFree : Nat
  idleFrom : Nat
  idleUsed : Nat
  /-- the word of the last cycle (TILE_STATUS.PC, R178) -/
  pcLast : Nat
  /-- next entry of the stream list, and the words of entries that wait for one before them, by place in the list (R230) -/
  strPos : Nat
  strWait : List (Nat × List (Nat × V128))
  deriving DecidableEq, Repr

/-- A frame that is due and not yet dispatched (R185, R198). -/
structure DueFrame where
  f : Int
  /-- recipe, mode and first line of the frame -/
  recipe : Nat
  mode : Nat
  line : Int
  due : Nat
  /-- velocity of FDOM when it became due, µm/s -/
  vel : Int
  /-- it slipped under LATE -/
  late : Bool
  /-- frames that fell due after it: its lag (R198, R199) -/
  after : Nat
  deriving DecidableEq, Repr

/-- A frame on the array: what its records will need (R186, R190). -/
structure RunFrame where
  f : Int
  prog : Nat
  len : Nat
  recipe : Nat
  mode : Nat
  step : Nat
  slip : Nat
  due : Nat
  disp : Nat
  vel : Int
  late : Bool
  line : Int
  /-- FLAGS_OR of R190 -/
  flagsOr : Nat
  /-- tiles dispatched, tiles HALTED at the dispatch, first faults met: tile and code -/
  tiles : List Nat
  halted : List Nat
  faults : List (Nat × Nat)
  /-- the outputs were enabled at its dispatch: its results count (R25) -/
  out : Bool
  deriving DecidableEq, Repr

/-- A slot written to the line store, as frames need it: lead lane, plane, line, FLAGS (R132, R134). -/
structure SlotInfo where
  head : Nat
  q : Nat
  m : Int
  flags : Nat
  deriving DecidableEq, Repr

/-- A switch waiting for its frame boundary (R30, R206, R210). -/
structure Switch where
  /-- journal sequence number; 0 for a FALLBACK selection -/
  seq : Nat
  recipe : Nat
  mode : Nat
  /-- a SET_MODE -/
  isMode : Bool
  dom : Nat
  coord : Int
  /-- first line of the first frame it applies to, once known -/
  ms : Option Int
  deriving DecidableEq, Repr

/-- A reload of the array in progress (R208). -/
structure Reload where
  seq : Nat
  ms : Int
  /-- recipe and mode before it -/
  oldRecipe : Nat
  oldMode : Nat
  recipe : Nat
  mode : Nat
  drops : Nat
  since : Nat
  deriving DecidableEq, Repr

/-- The frame machinery (R183 to R220). -/
structure Frm where
  /-- recipe in force, while ARMED or RUNNING (R474) -/
  recipe : Option Nat
  mode : Nat
  /-- overspeed band (R205) -/
  band : Nat
  /-- first line of the next frame to dispatch, and of the next frame to become due -/
  next : Option Int
  dueLine : Option Int
  due : List DueFrame
  running : Option RunFrame
  /-- frames that have ended and wait for their records, oldest first -/
  ended : List RunFrame
  /-- TS at the end of the previous frame -/
  endTs : Nat
  /-- ACLK cycles of the dispatch gap up to its last change of step, and the TS of that (R182, R197) -/
  gapCyc : Nat
  gapFrom : Nat
  /-- lines staged for the next frame: lead lane, plane, line, FLAGS, overwritten -/
  staged : List (SlotInfo × Bool)
  /-- recipe and program under whose stream lists they were staged (R186, R230) -/
  stagedBy : Nat × Nat
  slots : List SlotInfo
  switches : List Switch
  /-- a run of LATE frames is open (R534); its frames so far, the last of them, and its domain -/
  lateRun : Bool
  lateN : Nat
  lateLast : Int
  lateDom : Nat
  reload : Option Reload
  /-- first lines of frames dropped with cause SWITCH before their reload began (R209) -/
  switchDrops : List Int
  /-- program named by the PSQ for the next frame (R189) -/
  progSel : Option Nat
  /-- ACLK step in force, coded as in R190, and a requested step -/
  step : Nat
  stepReq : Option Nat
  /-- a GDDR7 port was lost: look for a fallback at the next boundary (R475) -/
  fallbackReq : Bool
  /-- TS since which both mirror ports are down, and the peer is taken for lost (R218) -/
  twinLost : Bool
  deriving DecidableEq, Repr

/-- A context of the position sequencer (R241, R246 to R249). Contexts 0 to 5 are K0 to K5, 6 and 7 are C0 and C1. -/
structure Cx where
  /-- 0 stopped, 1 running, 2 waiting, 3 FAULT -/
  st : Nat
  /-- µPC, page-relative for C0 and C1 -/
  upc : Nat
  stack : List Nat
  fcode : Nat
  /-- TS at which the present wait began -/
  waitFrom : Nat
  /-- a dispatch gap was entered, a frame was dispatched, since the wait began -/
  sawGap : Bool
  sawDisp : Bool
  cap : Int
  /-- edge latches with the stamp of the edge: Z inputs, rising and falling GPI edges (R248) -/
  zLatch : Vector (Option Nat) 4
  rLatch : Vector (Option Nat) 16
  fLatch : Vector (Option Nat) 16
  /-- TS of the last PSQ_LOG entry (R256) -/
  lastLog : Option Nat
  deriving DecidableEq, Repr

/-- An entry of the user event queue (R256). -/
structure UEvt where
  cx : Nat
  code : Nat
  crd : Int
  deriving DecidableEq, Repr

/-- A pending page swap: its command, and whether the check has passed (R259, R260). -/
structure SwapPend where
  seq : Nat
  checked : Bool
  deriving DecidableEq, Repr

/-- The position sequencer (R240 to R263). -/
structure Psq where
  /-- microwords with their parity: bits 119 to 0 the word, 127 to 120 the parity bits -/
  cs : SMap (BitVec 128)
  /-- holding register of the window (R244) -/
  hold : Vector Word 3
  page : Nat
  swap : Option SwapPend
  cx : Vector Cx 8
  cmp : Vector Int 4
  cnt : Vector Word 4
  uevt : List UEvt
  /-- generators gated off by TGOP (R255) -/
  gateOff : Vector Bool 32
  patched : Bool
  patchVer : Nat
  /-- SWAP_CUSTOMER_PAGE commands whose page is active and whose first frame is still to be dispatched: their sequence numbers (R260) -/
  swapped : List Nat
  /-- SWAP_CUSTOMER_PAGE commands accepted while another's page was pending: their sequence numbers (R259) -/
  swapTwice : List Nat
  deriving DecidableEq, Repr

/-- Progress of one side of a marking: waiting, committed at the LD, waiting again with the cancel of an event on its way (R13, R282), or
done. -/
inductive MkSide where
  | pending
  | committed (id : Nat) (fire : Int)
  | recalled (id : Nat)
  | done (fire : Int)
  deriving DecidableEq, Repr

/-- A marking of one output (R281 to R287): target of its start and, for a span, of its end. -/
structure Marking where
  t : Int
  tEnd : Int
  span : Bool
  start : MkSide
  stop : MkSide
  /-- the markings joined in it: target, end, and the SEQ of the record that asked, `none` for the PSQ (R254) -/
  parts : List (Int × Int × Option Nat)
  deriving DecidableEq, Repr

/-- A marker output MRK_n. -/
structure MarkOut where
  /-- pending and committed markings in ascending order of T, at most 256 -/
  queue : List Marking
  /-- the output is active since this time (1/16 TS) -/
  since : Option Int
  /-- end of the running SPOT pulse, or of a span cut short (1/16 TS) -/
  pulseEnd : Option Int
  /-- T of the last marking fired -/
  lastT : Option Int
  /-- start events of discarded markings whose cancels are on their way, with the time (1/16 TS) by which a span that one of them still
  begins ends (R13, R282, R287) -/
  gone : List (Nat × Int)
  fired : Nat
  late : Nat
  full : Nat
  lost : Nat
  dis : Nat
  deriving DecidableEq, Repr

/-- A detection on its way to a defect record (R265 to R267): rule, frame, line and what the entry gave. -/
structure Det where
  rule : Nat
  frame : Int
  m : Int
  y : Int
  x : Nat
  xw : Nat
  len : Nat
  cls : Nat
  sev : Nat
  feat : Nat
  tagHi : Nat
  vcol : Nat
  vrow : Nat
  flags : Nat
  recipe : Nat
  mode : Nat
  fdom : Nat
  /-- its record counts: the outputs were enabled at the dispatch of its frame (R25, R264) -/
  out : Bool
  deriving DecidableEq, Repr

/-- A blind band, growing or formed (R203, R272, R273). Lines `first` to `next` - 1 of the frame domain. -/
structure Band where
  cause : Nat
  detail : Nat
  head : Nat
  x : Nat
  xn : Nat
  frame : Int
  nframes : Nat
  first : Int
  next : Int
  y0 : Int
  y1 : Int
  recipe : Nat
  mode : Nat
  fdom : Nat
  /-- its record counts: it arose in RUNNING (R25, R264) -/
  out : Bool
  deriving DecidableEq, Repr

/-- A record held for its tracked coordinate (R267): since when. -/
inductive HeldRec where
  | det (d : Det) (since : Nat)
  | band (b : Band) (since : Nat)
  deriving DecidableEq, Repr

/-- A clip waiting to be cut (R274, R275). -/
structure ClipJob where
  seq : Nat
  m : Int
  y : Int
  x : Int
  w : Nat
  h : Nat
  planes : Nat
  buf : Nat
  at_ : Nat
  fdom : Nat
  /-- recipe of the record -/
  recipe : Nat
  /-- head, plane and line of reads that exhausted their retries (R447) -/
  dead : List (Nat × Nat × Int)
  deriving DecidableEq, Repr

/-- A frame whose records wait for the TWIN comparison (R217): detections and bands of the frame, its own check, TS of forming. -/
structure TwinWait where
  frame : Int
  dets : List Det
  bands : List Band
  crc : Nat
  fault : Bool
  at_ : Nat
  /-- TWIN_WAIT of its recipe, µs -/
  wait : Nat
  deriving DecidableEq, Repr

/-- A frame check received (R217). -/
structure TwinCheck where
  frame : Int
  crc : Nat
  fault : Bool
  deriving DecidableEq, Repr

/-- A ring to the host (R276, R278): producer and consumer index, entries not signalled and the TS of the first. -/
structure Ring where
  pi : Nat
  ci : Nat
  unsig : Nat
  firstTs : Nat
  /-- an interrupt is due and has not been sent (R278) -/
  due : Bool
  deriving DecidableEq, Repr

/-- The results engine (R264 to R281). -/
structure Res where
  seq : Nat
  recR : Ring
  clipR : Ring
  /-- records waiting for ring space -/
  waiting : List (List Byte)
  /-- OUTQ entries collected, in the order drained -/
  outq : List OutqEnt
  held : List HeldRec
  clips : List ClipJob
  /-- blind bands that may still grow, and bands ready for a frame -/
  growing : List Band
  bands : List Band
  twin : List TwinWait
  checks : List TwinCheck
  /-- filtered GPI levels (R288) -/
  gpi : Vector Bool 16
  /-- the next level of the ball that passes the filter is taken silently (R34, R288) -/
  gpiQuiet : Vector Bool 16
  deriving DecidableEq, Repr

/-- A payload block on the fabric (R297), without SEQ, RESEND and CRC, which each transmitter writes. -/
structure FabBlk where
  tc : Nat
  mtype : Nat
  down : Bool
  bcast : Bool
  dst : Nat
  hops : Nat
  nosrc : Bool
  src : Nat
  len : Nat
  msgid : Nat
  frag : Nat
  nfrag : Nat
  payload : List Byte
  deriving DecidableEq, Repr

/-- A block that waits for transmission, and the port whose receive buffer holds it, `none` for a block of this device. -/
structure FabWait where
  blk : FabBlk
  inPort : Option Nat
  deriving DecidableEq, Repr

/-- The sending side of one class of a port (R300 to R303). Sequence numbers and credits are whole counts since link up. -/
structure FabTxq where
  next : Nat
  base : Nat
  freed : Nat
  unsettled : List (Nat × FabBlk)
  resend : List Nat
  waiting : List FabWait
  deriving DecidableEq, Repr

/-- The receiving side of one class of a port (R302 to R305): blocks received good and not yet passed on, and counts. -/
structure FabRxq where
  base : Nat
  held : List (Nat × FabBlk)
  got : List Nat
  lost : List Nat
  missing : List Missing
  /-- one above the highest SEQ shown -/
  top : Nat
  ackCnt : Nat
  ackFirst : Option Nat
  lastAck : Nat
  /-- blocks received good or declared lost, and blocks of them freed -/
  taken : Nat
  freed : Nat
  deriving DecidableEq, Repr

/-- A fabric port (R292 to R305, R311). -/
structure FabPort where
  /-- STATE: 0 down, 1 training, 2 up, 3 hold-down -/
  st : Nat
  /-- mode reached, and the mode tried with RATE 0: 1 PAM4, 2 NRZ -/
  mode : Nat
  trying : Nat
  since : Nat
  /-- TS of the downs of the last second -/
  downs : List Nat
  /-- data of the peer's HELLO_A: serial, priority, port, use; its address -/
  peerSerial : Option Nat
  peerPrio : Nat
  peerPort : Nat
  peerUse : Nat
  peerAddr : Option Nat
  /-- data of the peer's HELLO_B: root serial and priority, DIST, UP -/
  rootSerial : Option Nat
  rootPrio : Nat
  dist : Nat
  up : Bool
  /-- ROOT_SEQ of the peer's last HELLO_B -/
  rootSeq : Nat
  lastHello : Nat
  /-- the next HELLO sent is HELLO_B -/
  sendB : Bool
  /-- TS of the last HELLO and of the last TXSTATE sent (R302, R311) -/
  helloAt : Option Nat
  txstateAt : Option Nat
  tx : Vector FabTxq 4
  rx : Vector FabRxq 4
  /-- payload blocks sent since the last TC3 block while TC2 waited (R300) -/
  sinceTc3 : Nat
  /-- TS at which the link last left the state up (R218) -/
  downAt : Nat
  deriving DecidableEq, Repr

/-- One record of a MAP (R313): peers as carried, 0xFFFF for none, bit 14 for a MIRROR link. -/
structure MapRec where
  serial : Nat
  addr : Nat
  ports : List Nat
  deriving DecidableEq, Repr

/-- One port of a TOPO: use, state, serial and port of the peer (R312). -/
structure TopoPort where
  use : Nat
  st : Nat
  peerSerial : Nat
  peerPort : Nat
  deriving DecidableEq, Repr

/-- What the root holds of a device (R312, R314): its last TOPO and the TS of its receipt. -/
structure Topo where
  serial : Nat
  addr : Option Nat
  ports : List TopoPort
  at_ : Nat
  deriving DecidableEq, Repr

/-- A routing entry (R316, R317). -/
structure Route where
  addr : Nat
  self : Bool
  hops : Nat
  pri : Option Nat
  alt : Option Nat
  dpri : Option Nat
  dalt : Option Nat
  deriving DecidableEq, Repr

/-- A message under assembly (R306). -/
structure Reasm where
  src : Nat
  tc : Nat
  msgid : Nat
  mtype : Nat
  nfrag : Nat
  first : Nat
  parts : List (Nat × List Byte)
  deriving DecidableEq, Repr

/-- A whole message received for this device, waiting to be handled. -/
structure FabMsg where
  src : Nat
  nosrc : Bool
  tc : Nat
  mtype : Nat
  payload : List Byte
  deriving DecidableEq, Repr

/-- An open remote access (R319, R322): tag, target, TS of the request, and whether it is a write. -/
structure RemoteAcc where
  tag : Nat
  dev : Nat
  at_ : Nat
  write : Bool
  deriving DecidableEq, Repr

/-- The fabric core (R306 to R319). -/
structure FabCore where
  addr : Option Nat
  /-- a MAP gave this device no address (R314) -/
  noAddr : Bool
  /-- key of the root adopted -/
  rootPrio : Nat
  rootSerial : Nat
  isRoot : Bool
  dist : Nat
  upPort : Option Nat
  rootSeq : Nat
  rootSeqAt : Nat
  mapEpoch : Nat
  map : List MapRec
  /-- serial of the root whose MAP `map` is (R316) -/
  mapRoot : Nat
  /-- a MAP waits for its routing table -/
  mapNew : Bool
  table : List Route
  /-- ports whose hop is a down hop by the MAP of `table` (R316) -/
  downs : List Nat
  /-- ports whose links have gone down since that MAP: its routes over them are lost until a new MAP (R318) -/
  dead : List Nat
  part : Bool
  discDone : Bool
  /-- TS at which discovery ended -/
  discAt : Nat
  reasm : List Reasm
  inbox : List FabMsg
  msgId : Vector Nat 4
  /-- addresses reserved for serials that have gone: serial, address, TS -/
  reserved : List (Nat × Nat × Nat)
  topos : List Topo
  lastTopo : Nat
  topoDue : Bool
  mapDue : Bool
  ra : Option RemoteAcc
  raTag : Nat
  deriving DecidableEq, Repr

/-- What a device knows of one domain's beacons (R329 to R335). -/
structure Cw where
  active : Bool
  standby : Bool
  gen : Nat
  root : Nat
  hops : Nat
  ever : Bool
  /-- TS of the last accepted beacon, of the last with STATUS LOCKED, and its sample's fabric time -/
  lastAcc : Nat
  lastLocked : Nat
  lastSample : Nat
  status : Nat
  sofs : Int
  lastSent : Nat
  deriving DecidableEq, Repr

/-- A census report at the root (R339, R340). -/
structure CenReport where
  addr : Nat
  cround : Nat
  epoch : Nat
  digest : List Byte
  stale : Bool
  serial : Nat
  deriving DecidableEq, Repr

/-- An epoch proposal (R343): the new epoch, domain, coordinate, originator, TS. -/
structure EpochProp where
  epoch : Nat
  dom : Nat
  coord : Int
  orig : Nat
  at_ : Nat
  /-- its commit came after the point at which it applies -/
  late : Bool
  deriving DecidableEq, Repr

/-- The configuration census and epoch switches (R336 to R344). -/
structure Census where
  epoch : Nat
  digest : List Byte
  stale : Bool
  /-- at the root: number and start of the open round, its reports, the last decided round's MISSING addresses -/
  cround : Nat
  open_ : Option Nat
  lastRound : Nat
  /-- the epoch that the open round's poll named (R340) -/
  pollEpoch : Nat
  reports : List CenReport
  prevMissing : List Nat
  /-- as a device -/
  listed : Bool
  action : Nat
  noMaj : Bool
  count : Nat
  lastResult : Nat
  nores : Bool
  resRound : Nat
  /-- no result of the present root has come yet -/
  newRoot : Bool
  /-- the newest CROUND that is before the round a running CENSUS_NOW asked for; `none`: any round is that one (R342) -/
  ask : Option Nat
  /-- at the root: the open proposal and the answers to it, by address -/
  prop : Option EpochProp
  acks : List (Nat × Nat)
  /-- as a device: the proposals accepted and not yet decided, the epochs committed and not yet applied, in the order they came -/
  accepted : List EpochProp
  committed : List EpochProp
  deriving DecidableEq, Repr

/-- Time states of R327, in code order. -/
inductive TState where
  | free | acquire | locked | holdover
  deriving DecidableEq, Repr

/-- The discipline of fabric time (R323 to R327). -/
structure FabTime where
  tstate : TState
  ftBase : Nat
  tsBase : Nat
  /-- FADJ, ppb -/
  fadj : Int
  /-- consecutive θ of at most 2 ns -/
  good : Nat
  /-- SSEQ and t1 of the outstanding request -/
  sseq : Nat
  t1 : Option Nat
  theta : Int
  steps : Nat
  /-- TS of the last valid response -/
  lastRsp : Nat
  /-- TS of the last SYNC_REQ (R325) -/
  reqAt : Option Nat
  /-- the time state has left LOCKED and not come back (R403) -/
  leftLock : Bool
  deriving DecidableEq, Repr

/-- A return stack entry (R368). -/
structure RsEnt where
  value : Word
  /-- 0 call, 1 exception PC, 2 exception status -/
  kind : Nat
  /-- pushed in privileged mode -/
  tag : Bool
  deriving DecidableEq, Repr

/-- A repeat in progress (R374, R375): address of the repeat word, iterations still to run, whether it is REPI, and whether the word
under it has been fetched. -/
structure RepSt where
  pfx : Word
  left : Nat
  irq : Bool
  got : Bool
  /-- the repeated word, once it is fetched -/
  word : Word := 0
  deriving DecidableEq, Repr

/-- A buffered store (R391): address, bytes. -/
structure SbEnt where
  addr : Nat
  data : List Byte
  deriving DecidableEq, Repr

/-- An entry of the branch target buffer (R397): kind 0 conditional, 1 direct, 2 indirect. -/
structure BtbEnt where
  target : Word
  kind : Nat
  deriving DecidableEq, Repr

/-- The control core (R347 to R416). -/
structure Core where
  /-- 0 RESET, 1 RUN, 2 WFI, 3 LOCKUP, 4 HALTED -/
  st : Nat
  pc : Word
  /-- firmware entry address of the image, when it holds firmware (R478) -/
  entry : Option Word
  d : Vector Word 16
  /-- A0 to A6 -/
  a : Vector Word 7
  a7u : Word
  a7p : Word
  acc : Vector (BitVec 72) 4
  mpl : Word
  mph : Word
  /-- products on their way to MPL and MPH, oldest first, and the CCLK cycle in which each issued (R362) -/
  mulQ : List (BitVec 64 × Nat)
  /-- a division in flight: destination and result, and the CCLK cycle in which it issued (R363) -/
  div : Option (Nat × Word)
  divAt : Nat
  accst : Word
  status : Word
  cause : Word
  far : Word
  vbase : Word
  /-- on-chip return stack, top first, at most 32 -/
  rs : List RsEnt
  rsBase : Word
  rsLimit : Word
  rsSpill : Word
  rep : Option RepSt
  /-- CC_CFG.ICACHE as written, and as in effect since the last FENCE.I (R385) -/
  ccCfg : Word
  icache : Bool
  /-- lines of the I-cache: line address and its 64 bytes, newest use first (R385) -/
  lines : List (Nat × List Byte)
  /-- the line buffer between the I-cache and fetch: line address and bytes (R385) -/
  lineBuf : Option (Nat × List Byte)
  /-- the prefetch queue, at most 4 words with their addresses, that of the next word first (R385) -/
  pq : List (Nat × Word)
  bar : Bool
  btb : SMap (Option BtbEnt)
  dir : SMap Nat
  brCnt : Word
  mispCnt : Word
  irqEn : BitVec 64
  swi : Bool
  prio : Vector Word 8
  timecmp : BitVec 64
  timerHit : Bool
  /-- CYCLE at the last reset of the core, TS -/
  cycFrom : Nat
  cycHi : Word
  /-- NMI latched, and the level of its two inputs (R405) -/
  nmi : Bool
  nmiLevel : Bool
  nmiPin : Bool
  sb : List SbEnt
  /-- the next word is the first of a vector (R413) -/
  atVector : Bool
  lastPc : Word
  lastPriv : Bool
  lockPc : Word
  lockCause : Nat
  /-- FW_MSG waiting for firmware (R309) -/
  fwMsg : List FabMsg
  /-- census result received, interrupt source 10 -/
  cenIrq : Bool
  deriving DecidableEq, Repr

/-- A DMA channel at work (R433). -/
structure DmaCh where
  src : Nat
  dst : Nat
  left : Nat
  busy : Bool
  done : Bool
  err : Bool
  deriving DecidableEq, Repr

/-- Scratchpad, mailbox, matrix, DMA and clock crossings (R417 to R438). -/
structure Mtx where
  spm : Memory
  mbox : Memory
  /-- words of the scratchpad with wrong bits: word address, wrong bits (1 or 2) -/
  spmBad : List (Nat × Nat)
  dma : Vector DmaCh 4
  /-- line the background test takes next, and the line borrowed with its shadow (R423) -/
  testLine : Nat
  shadow : Option (Nat × List Byte)
  /-- CCLK cycle in which the line was borrowed (R423) -/
  testAt : Nat
  /-- DMA channel whose burst came last (R433) -/
  dmaLast : Nat
  wiping : Bool
  /-- toggle-pulse crossers known to have a transfer in progress (R435) -/
  cdc : List Nat
  /-- transactions that will get no response: master and word address (R429) -/
  late : List (Nat × Nat)
  /-- responses owed to a master, or to channel c of the DMA as 7 + c, that was reset: to whom, how many, TS of the reset (R432, R449) -/
  owed : List (Nat × Nat × Nat)
  deriving DecidableEq, Repr

/-- A GDDR7 port (R439 to R454). -/
structure GdcPort where
  /-- 0 OFF, 1 TRAINING, 2 UP, 3 LOST, 4 DISABLED -/
  st : Nat
  attempts : Nat
  step : Nat
  trainMs : Nat
  syscopy : Bool
  /-- TS of the exhausted requests of the last 1 ms (R448) -/
  fails : List Nat
  deriving DecidableEq, Repr

/-- Life-cycle states, in code order (SEC_STATUS.LC). -/
inductive LifeCycle where
  | blank | provisioned | owned | returned | scrapped
  deriving DecidableEq, Repr

/-- An owner key slot (R496). -/
inductive OwnerSlot where
  | empty
  | active (key : List Byte)
  | revoked
  deriving DecidableEq, Repr

/-- An open session: requester, slot of its signer, TS of the last applied P-view write (R506). -/
structure Session where
  req : Nat
  slot : Nat
  last : Nat
  deriving DecidableEq, Repr

/-- The claim of SEC_BUF: holder, challenge (until it has served), TS of the holder's last write (R501). -/
structure Claim where
  holder : Nat
  chal : Option (List Byte)
  last : Nat
  deriving DecidableEq, Repr

/-- The life-cycle record of the secure partition, which holds two copies of it (R496). -/
structure LcRec where
  lc : LifeCycle
  transitions : Nat
  tampers : Nat
  debugOpened : Bool
  scope : Nat
  deriving DecidableEq, Repr

/-- What stood before a life-cycle transition, while its steps 1 to 6 may still be going on (R508): the command's sequence number, the TS of its
start, the longest it takes, and the record, arming and OTP bit that step 6 rewrites. -/
structure Undo where
  seq : Nat
  since : Nat
  span : Nat
  old : LcRec
  tmpEn : Nat
  scrapped : Bool
  /-- the identity key that stands when step 6 is not reached -/
  idKey : Option Nat
  /-- the device state that stands then -/
  st : DState
  deriving DecidableEq, Repr

/-- The security module of the Lagg die (R491 to R519). -/
structure Sec where
  lc : LifeCycle
  transitions : Nat
  tampers : Nat
  lastTamper : Nat
  debugOpened : Bool
  scope : Nat
  slots : Vector OwnerSlot 4
  imgFloor : Nat
  patchFloor : Nat
  tmpEn : Nat
  /-- the second copy of the life-cycle record (R496) -/
  copy : LcRec
  /-- the partition salt; KWRAP in its volatile register; the DRBG holds state (R496) -/
  salt : List Byte
  kwrap : Option (List Byte)
  drbg : Bool
  /-- the identity key, as the number of its generation, and whether it is transient (R517) -/
  idKey : Option Nat
  transient : Bool
  approved : Bool
  entropyFail : Bool
  selftest : Nat
  /-- a self-test of the present BOOT has failed (R11, R494) -/
  testFail : Bool
  /-- zeroisation in progress, and the pending mark in eMRAM -/
  zeroising : Bool
  pendMark : Bool
  claim : Option Claim
  buf : Memory
  busy : Bool
  result : Nat
  svcType : Nat
  svcAppr : Bool
  host : Option Session
  fabs : List Session
  /-- an ENV condition persists (R515) -/
  env : Bool
  /-- a tamper has been answered since the last BOOT; TS of an ENV response (R514, R515) -/
  answered : Bool
  envAt : Option Nat
  /-- GO waits for token commands accepted before it: its requester and the newest of them (R503) -/
  goWait : Option (Nat × Nat)
  /-- the transition that a loss of power or a tamper would still catch (R508, R515) -/
  undo : Option Undo
  /-- a key generation counter for fresh numbers of salts and keys -/
  drawn : Nat
  deriving DecidableEq, Repr

/-- The PCIe endpoint (R543 to R564). -/
structure Pcie where
  linkUp : Bool
  speed : Nat
  width : Nat
  /-- PERST_N is low -/
  perst : Bool
  /-- what the link trains to: speed and width -/
  train : Nat × Nat
  bme : Bool
  d3hot : Bool
  msixEn : Bool
  /-- MSI-X masked for the whole function (R564) -/
  fnMask : Bool
  /-- since power-on the device has not reached LOAD: configuration requests are to be retried (R545) -/
  crs : Bool
  /-- LINK_UP, SPEED and WIDTH of PCIE_STATUS stand at their reset values since an FLR (R546) -/
  flr : Bool
  /-- masked vectors, and the table entries: address and data words -/
  mask : BitVec 64
  table : SMap Word
  /-- vectors pending and not yet sent, and the conditions as last seen (R562) -/
  pend : BitVec 64
  cond : BitVec 64
  /-- configuration space as kept, by byte offset of the word -/
  cfg : SMap Word
  deriving DecidableEq, Repr

/-- Supplies, clocks and thermal control (R565 to R591). -/
structure Clk where
  /-- junction temperatures, 0.1 °C -/
  tPd : Int
  tLd : Int
  /-- TS of the last step-down request of the present episode (R575), and since when T_PD is below 95 °C -/
  hotReq : Option Nat
  coolFrom : Option Nat
  /-- samples of 1 ms at or above 100 °C (CLK_THERM) -/
  hotMs : Nat
  /-- thermal shutdown drove the outputs safe -/
  shutdown : Bool
  /-- fastest step the thermal control permits -/
  permit : Nat
  /-- AVS: the target written, voltage read back, the step waiting for it, TS of the request -/
  target : Nat
  vout : Nat
  avsStep : Option Nat
  avsAt : Nat
  /-- a step not taken, and the TS at which it is requested again (R571) -/
  avsRetry : Option (Nat × Nat)
  /-- supplies outside R566, by bit ARR, CORE, LD, MRAM, and since when -/
  warn : Nat
  power : Nat
  /-- TS of the last sample of the junction sensors (R575), of the last HEALTH sample (R534), of the last read of the power (R591) -/
  thermAt : Option Nat
  healthAt : Option Nat
  powerAt : Option Nat
  deriving DecidableEq, Repr

/-- A section table entry (R463). -/
structure Sect where
  type : Nat
  index : Nat
  offset : Nat
  length : Nat
  digest : List Byte
  deriving DecidableEq, Repr

/-- A section read in LOAD and not yet applied, or held after LOAD: type, index, bytes. -/
structure SectData where
  type : Nat
  index : Nat
  data : List Byte
  deriving DecidableEq, Repr

/-- The serial flash on the xSPI port, and the settings of the port (R459, R460). -/
structure Flash where
  mem : Memory
  /-- density code of CFG_XSPI_DEV, whether SFDP describes 8D-8D-8D, identification bytes -/
  density : Nat
  /-- a flash is fitted -/
  present : Bool
  octal : Bool
  jedec : Nat
  deriving DecidableEq, Repr

/-- The loader (R461 to R481, R490). -/
structure Img where
  /-- boot selector, in eMRAM: 0 A, 1 B -/
  sel : Nat
  aCode : Nat
  bCode : Nat
  xspiMode : Nat
  valid : Bool
  fallback : Bool
  slot : Nat
  /-- header fields of the slot being loaded -/
  flags : Nat
  svn : Nat
  keySlot : Nat
  sects : List Sect
  /-- sections LOAD has read -/
  done : Nat
  staged : List SectData
  /-- schedule sets and table sets of the image loaded, the recipe table and census policy -/
  sets : List SectData
  tabs : List SectData
  recipes : List Byte
  policy : List Byte
  plan : List Byte
  /-- LOAD has ended (R486) -/
  ended : Bool
  /-- the re-read of R468 has ended -/
  reread : Bool
  /-- schedule set in the tiles -/
  arr : Option Nat
  /-- the patch loaded raises the patch floor at ARMED (R498) -/
  patchRaise : Bool
  deriving DecidableEq, Repr

/-- Just released from reset, in BOOT, the processing die still held (R11, R455, R581). -/
def SysState.init : SysState :=
  { st := .boot, prev := .boot, holdCause := 0, resetCause := 0, outEn := false, cenStop := false, tArmed := 0, stAt := 0,
    releaseTs := 0, powered := true, resetN := true, resetFall := 0, pdReleased := false, dieLink := true,
    laggLost := false, faultN := false, mrkLive := false, fatalPend := false, noDispatch := false, restartHold := false, starts := 1 }

/-- DESIGN CHOICE (log 6): a TRS-648 of range I without disabled column, serial 0, no root key hash burned. -/
def Otp.init : Otp :=
  { grade := 0, range := 0, serial := 0, discol := none, rootHash := Vector.replicate 4 [],
    rootRevoked := Vector.replicate 4 false, scrapped := false, avs := Vector.replicate 5 700, subsysId := 0,
    seed := List.replicate 32 0, kfam := List.replicate 32 0 }

/-- Safe levels of BOOT: TRG low, MRK high impedance, GPO at the reset value of IOX_GPO_SAFE (R569). -/
def Balls.init : Balls :=
  { trg := Vector.replicate 16 .low, mrk := Vector.replicate 8 .hiZ, gpo := Vector.replicate 16 .low,
    ccLockup := false }

/-- `Peat` as reset leaves it. -/
def Peat.init : Peat :=
  { ring := [], head := none, next := 0, queue := [], regions := Vector.replicate 4 none, order := [], drop := 0,
    wroteAt := none, fwLast := none, fwWords := Vector.replicate 4 0 }

/-- `CmdBuf` as reset leaves it. -/
def CmdBuf.init : CmdBuf :=
  { words := Vector.replicate 16 0, disp := 0, rej := 0, ocode := 0, ostat := 0, seq := 0, last := 0 }

/-- `Jnl` as reset leaves it. -/
def Jnl.init : Jnl :=
  { entries := [], host := CmdBuf.init, core := CmdBuf.init, fab := [], sels := [], queue := [], wait := [], fw := none, run := none, accepts := [] }

/-- `EruSlot` as reset leaves it. -/
def EruSlot.init : EruSlot := { valid := false, event := 0, src := 0, detail := 0, addr := 0, time := 0 }

/-- `Eru` as reset leaves it. -/
def Eru.init : Eru :=
  { slots := Vector.replicate 8 EruSlot.init, ovf := Vector.replicate 4 0, cnt := Vector.replicate 4 0, udrop := 0,
    fatalActive := false, fatalDue := 0, rate := [] }

/-- `Encoder` as reset leaves it. -/
def Encoder.init : Encoder :=
  { a := false, b := false, z := false, quietA := true, quietB := true, quietZ := true, count := 0, zcap := 0, qerrCnt := 0, zerr := false, qerr := false, ovsp := false,
    rxfA := false, rxfB := false, rxfZ := false, lastStamp := none, lastUp := none, openRep := none, closed := [],
    prevZ := none }

/-- `Domain` as reset leaves it. -/
def Domain.init : Domain :=
  { lock := .off, motion := .stopped, hist := [], tPrev := none, v := 0, acc := 0, pe := 0, te := 0, lastC := none,
    coord := 0, hwm := 0, c0 := 0, base := 0, everLocked := false, onCheck := false, origin := 0, product := 0,
    coastCnt := 0, coastSince := 0, known := [], cmpP := 0, cmpC := 0 }

/-- `Gen` as reset leaves it. -/
def Gen.init : Gen :=
  { kMin := none, prevFire := none, lastK := none, lossFrom := none, gated := [], trigs := [], fired := 0, skipCnt := 0, lateCnt := 0 }

/-- `TrkTable` as reset leaves it. -/
def TrkTable.init : TrkTable := { base := 0, count := 0, deltas := [], lastX := 0, hw := none, nonmono := 0 }

/-- `Pos` as reset leaves it. -/
def Pos.init : Pos :=
  { enc := Vector.replicate 4 Encoder.init, reports := [], dom := Vector.replicate 16 Domain.init, shadowDom := Vector.replicate 16 Domain.init,
    gen := Vector.replicate 32 Gen.init, tt := Vector.replicate 4 TrkTable.init, ttCopy := [], toLd := [], held := [],
    nextEv := 0, trgEnd := Vector.replicate 16 none }

/-- `Lane` as reset leaves it. -/
def Lane.init : Lane :=
  { phase := .off, retraining := false, attempts := 0, failed := 0, since := 0, base := 0, got := [], lost := [],
    missing := [], top := 0, goods := [], ackCnt := 0, ackFirst := none, lastAck := 0, capA := none, capPair := none,
    descr := 0, words := 0, badAt := [], syncLoss := false, lastIdle := 0, lastTrain := 0, ack := [], bcEnd := 0, rd := false,
    lastBit := false, bcq := [], mgEnd := 0, cxpSkip := false, mgTx := [], mgRx := [], mgPos := 0, rxReady := false }

/-- `PlaneGen` as reset leaves it. -/
def PlaneGen.init : PlaneGen := { mNext := none, prev := none, lastGood := none, wFirst := none, wLast := none }

/-- `Slice` as reset leaves it. -/
def Slice.init : Slice :=
  { bank := 0, banks := Vector.replicate 2 { ts := none, ready := false }, loads := [],
    planes := Vector.replicate 4 PlaneGen.init, lines := [], strips := [], stampOrder := 0 }

/-- `Tile` as reset leaves it. -/
def Tile.init : Tile :=
  { st := .off, pc := 0, rep := 0, loops := [], cyc := 0, prog := 0, frame := 0, done := true, stopped := false,
    aluA := Vector.replicate 2 0, aluR := Vector.replicate 2 0, macA := Vector.replicate 2 0, macSh := Vector.replicate 2 0,
    acc := Vector.replicate 4 0, csuA := 0, csuX := 0, csuY := 0, csuSel := 0, csuMask := 0, csuCnt := 0, lutBase := 0,
    lutR := 0, lsuAddr := 0, lsuStride := 0, rf := Vector.replicate 32 0, rfAd := Vector.replicate 4 0,
    rfR := Vector.replicate 2 0, tag := 0, seqCount := 0, k := Vector.replicate 2 0, pipe := [],
    net := Vector.replicate 4 [], lsuQ := [], strm := [], outq := [], port := [], engine := [], links := [], mem := [], bad := [],
    moves := [], slots := [], lut := [], fCode := 0, fSrc := false, fSlot := 0, fSock := 0, fPc := 0, fCyc := 0,
    fFrame := 0, fProg := 0, fMore := 0, fNow := false, fLast := false, popPoison := false, dropNow := 0, restartReq := false, frames := 0,
    lastCyc := 0, free := 0, freeNow := 0, ran := false, hwm := Vector.replicate 7 0, pushed := 0, pushedNow := 0, discarded := 0,
    ceCnt := 0, ueCnt := 0, ceAddr := 0, ueAddr := 0, passes := 0, scrubNext := 0, scrubFix := none,
    portBusy := 0, portLater := 0, idleFree := 0, idleFrom := 0, idleUsed := 0, pcLast := 0, strPos := 0, strWait := [] }

/-- `Frm` as reset leaves it. -/
def Frm.init : Frm :=
  { recipe := none, mode := 0, band := 0, next := none, dueLine := none, lateRun := false, lateN := 0, lateLast := 0, lateDom := 0, due := [], running := none, ended := [], endTs := 0, switchDrops := [], gapCyc := 0, gapFrom := 0, staged := [], stagedBy := (0, 0),
    slots := [], switches := [], reload := none, progSel := none, step := 0, stepReq := none,
    fallbackReq := false, twinLost := false }

/-- `Cx` as reset leaves it. -/
def Cx.init : Cx :=
  { st := 0, upc := 0, stack := [], fcode := 0, waitFrom := 0, sawGap := false, sawDisp := false, cap := 0,
    zLatch := Vector.replicate 4 none, rLatch := Vector.replicate 16 none, fLatch := Vector.replicate 16 none,
    lastLog := none }

/-- `Psq` as reset leaves it. -/
def Psq.init : Psq :=
  { cs := [], hold := Vector.replicate 3 0, page := 0, swap := none, cx := Vector.replicate 8 Cx.init,
    cmp := Vector.replicate 4 0, cnt := Vector.replicate 4 0, uevt := [], gateOff := Vector.replicate 32 false,
    patched := false, patchVer := 0, swapped := [], swapTwice := [] }

/-- `MarkOut` as reset leaves it. -/
def MarkOut.init : MarkOut :=
  { queue := [], since := none, pulseEnd := none, lastT := none, gone := [], fired := 0, late := 0, full := 0, lost := 0, dis := 0 }

/-- `Ring` as reset leaves it. -/
def Ring.init : Ring := { pi := 0, ci := 0, unsig := 0, firstTs := 0, due := false }

/-- `Res` as reset leaves it. -/
def Res.init : Res :=
  { seq := 0, recR := Ring.init, clipR := Ring.init, waiting := [], outq := [], held := [], clips := [], growing := [],
    bands := [], twin := [], checks := [], gpi := Vector.replicate 16 false, gpiQuiet := Vector.replicate 16 true }

/-- `FabTxq` as reset leaves it. -/
def FabTxq.init : FabTxq := { next := 0, base := 0, freed := 0, unsettled := [], resend := [], waiting := [] }

/-- `FabRxq` as reset leaves it. -/
def FabRxq.init : FabRxq :=
  { base := 0, held := [], got := [], lost := [], missing := [], top := 0, ackCnt := 0, ackFirst := none, lastAck := 0,
    taken := 0, freed := 0 }

/-- `FabPort` as reset leaves it. -/
def FabPort.init : FabPort :=
  { st := 0, mode := 0, trying := 1, since := 0, downs := [], peerSerial := none, peerPrio := 0, peerPort := 0, peerUse := 0,
    peerAddr := none, rootSerial := none, rootPrio := 0, dist := 0, up := false, rootSeq := 0, lastHello := 0, sendB := false,
    helloAt := none, txstateAt := none,
    tx := Vector.replicate 4 FabTxq.init, rx := Vector.replicate 4 FabRxq.init, sinceTc3 := 0, downAt := 0 }

/-- `FabCore` as reset leaves it. -/
def FabCore.init : FabCore :=
  { addr := none, noAddr := false, rootPrio := 0, rootSerial := 0, isRoot := false, dist := 0, upPort := none, rootSeq := 0,
    rootSeqAt := 0, mapEpoch := 0, map := [], mapRoot := 0, mapNew := false, table := [], downs := [], dead := [], part := false,
    discDone := false, discAt := 0, reasm := [], inbox := [], msgId := Vector.replicate 4 0, reserved := [], topos := [], lastTopo := 0,
    topoDue := false, mapDue := false, ra := none, raTag := 0 }

/-- `Cw` as reset leaves it. -/
def Cw.init : Cw :=
  { active := false, standby := false, gen := 0, root := 0, hops := 0, ever := false, lastAcc := 0, lastLocked := 0,
    lastSample := 0, status := 0, sofs := 0, lastSent := 0 }

/-- `Census` as reset leaves it. -/
def Census.init : Census :=
  { epoch := 0, digest := [], stale := false, cround := 0, open_ := none, lastRound := 0, pollEpoch := 0, reports := [],
    prevMissing := [], listed := false, action := 0, noMaj := false, count := 0, lastResult := 0, nores := false,
    resRound := 0, newRoot := true, ask := none, prop := none, acks := [], accepted := [], committed := [] }

/-- `FabTime` as reset leaves it. -/
def FabTime.init : FabTime :=
  { tstate := .free, ftBase := 0, tsBase := 0, fadj := 0, good := 0, sseq := 0, t1 := none, theta := 0, steps := 0,
    lastRsp := 0, reqAt := none, leftLock := false }

/-- R350, R387: registers 0, privileged, VBASE 0, prediction cleared; held in reset until TRAIN. -/
def Core.init : Core :=
  { st := 0, pc := 0, entry := none, d := Vector.replicate 16 0, a := Vector.replicate 7 0, a7u := 0, a7p := 0,
    acc := Vector.replicate 4 0, mpl := 0, mph := 0, mulQ := [], div := none, divAt := 0, accst := 0, status := 1, cause := 0, far := 0,
    vbase := 0, rs := [], rsBase := 0, rsLimit := 0, rsSpill := 0, rep := none, ccCfg := 0, icache := false, lines := [],
    lineBuf := none, pq := [],
    bar := false, btb := [], dir := [], brCnt := 0, mispCnt := 0, irqEn := 0, swi := false, prio := Vector.replicate 8 0,
    timecmp := -1, timerHit := false, cycFrom := 0, cycHi := 0, nmi := false, nmiLevel := false, nmiPin := false, sb := [],
    atVector := false, lastPc := 0, lastPriv := false, lockPc := 0, lockCause := 0, fwMsg := [], cenIrq := false }

/-- `DmaCh` as reset leaves it. -/
def DmaCh.init : DmaCh := { src := 0, dst := 0, left := 0, busy := false, done := false, err := false }

/-- `Mtx` as reset leaves it. -/
def Mtx.init : Mtx :=
  { spm := [], mbox := [], spmBad := [], dma := Vector.replicate 4 DmaCh.init, testLine := 0, shadow := none, testAt := 0, dmaLast := 3,
    wiping := false, cdc := [], late := [], owed := [] }

/-- `GdcPort` as reset leaves it. -/
def GdcPort.init : GdcPort := { st := 0, attempts := 0, step := 0, trainMs := 0, syscopy := false, fails := [] }

/-- A new device (log 6): BLANK, no key, floors 0. -/
def Sec.init : Sec :=
  { lc := .blank, transitions := 0, tampers := 0, lastTamper := 0, debugOpened := false, scope := 0,
    slots := Vector.replicate 4 .empty, imgFloor := 0, patchFloor := 0, tmpEn := 0,
    copy := { lc := .blank, transitions := 0, tampers := 0, debugOpened := false, scope := 0 },
    salt := List.replicate 32 0, kwrap := none, drbg := false, idKey := none,
    transient := false, approved := false, entropyFail := false, selftest := 0, testFail := false, zeroising := false, pendMark := false,
    claim := none, buf := [], busy := false, result := 0, svcType := 0, svcAppr := false, host := none, fabs := [],
    env := false, answered := false, envAt := none, goWait := none, undo := none, drawn := 0 }

/-- `Pcie` as reset leaves it. -/
def Pcie.init : Pcie :=
  { linkUp := false, speed := 0, width := 0, perst := true, train := (0, 0), bme := false, d3hot := false, msixEn := false, fnMask := false, crs := true, flr := false, mask := -1,
    table := [], pend := 0, cond := 0, cfg := [] }

/-- Temperatures 0 until the first sample, as CLK_TEMP reads (log 8); AVS not in use. -/
def Clk.init : Clk :=
  { tPd := 0, tLd := 0, hotReq := none, coolFrom := none, hotMs := 0, shutdown := false, permit := 0,
    target := 0, vout := 0, avsStep := none, avsAt := 0, avsRetry := none, warn := 0, power := 0,
    thermAt := none, healthAt := none, powerAt := none }

/-- DESIGN CHOICE (log 5): an erased 2 Gbit flash that offers 8D-8D-8D, identification bytes 0. -/
def Flash.init : Flash := { mem := [], density := 0, present := true, octal := true, jedec := 0 }

/-- `Img` as reset leaves it. -/
def Img.init : Img :=
  { sel := 0, aCode := 0xFF, bCode := 0xFF, xspiMode := 0, valid := false, fallback := false, slot := 0, flags := 0, svn := 0,
    keySlot := 0, sects := [], done := 0, staged := [], sets := [], tabs := [], recipes := [], policy := [], plan := [],
    ended := false, reread := false, arr := none, patchRaise := false }

/-- Why a step stops with a fault. -/
inductive Fault where
  /-- raised by POWER_ON when the supplies did not come up in the order and times of R567, or outside the ratings of R565:
  the spec implies no operation there. Safe: the machine stops where the device may go on in an unknown way. -/
  | outOfRating
  deriving DecidableEq, Repr

/-- Why a step is refused. -/
inductive Refusal where
  /-- raised by the dispatch for a command that has no meaning yet. Safe: nothing is claimed of it. -/
  | notModelled (mnemonic : String)
  deriving DecidableEq, Repr

/-- The state of the device. -/
structure State where
  /-- the TS counter of the Lagg die, 1.25 ns (R38) -/
  ts : Nat
  /-- system state -/
  sys : SysState
  /-- one-time programmable values -/
  otp : Otp
  /-- output balls -/
  balls : Balls
  /-- register file, by BAR0 offset; an unlisted register holds its reset value -/
  regs : SMap Word
  /-- shadows of F-class registers, oldest first: offset, value, and whether it came after the present dispatch gap began (R487) -/
  shadow : List (Nat × Word × Bool)
  /-- latched _HI partners waiting for their read (R553), by offset, with the requester above bit 32 for registers kept per requester -/
  hiLatch : List (Nat × Word)
  /-- data of the last read answered, the model's own -/
  rdData : Word
  /-- answer code of the last access, the model's own -/
  rdResp : String
  /-- peat record -/
  peat : Peat
  /-- command journal -/
  jnl : Jnl
  /-- error reporting unit -/
  eru : Eru
  /-- messages sent, newest first, the model's own record -/
  sent : List Sent
  /-- counter of free values taken, the model's own -/
  fresh : Nat
  /-- position timebase and output timing -/
  pos : Pos
  /-- ingress lanes -/
  lane : Vector Lane 32
  /-- trigger record of each generator's head, newest first: its last 64 triggers (R103), and older ones whose line is still open -/
  heads : Vector (List TrigRec) 32
  /-- the last 64 lines of each generator's head that matched no record, newest first (R103) -/
  orphans : Vector (List OrphanLine) 32
  /-- conditioning slices -/
  slice : Vector Slice 32
  /-- GDDR7 contents: byte `a` of port `p` at key p × 2^36 + a (R439, R450) -/
  gddr : Memory
  /-- tiles by physical number PC × 16 + row (R177) -/
  tile : Vector Tile 272
  /-- frames, recipes and switches -/
  frm : Frm
  /-- position sequencer -/
  psq : Psq
  /-- marker outputs MRK_0 to MRK_7 -/
  mrk : Vector MarkOut 8
  /-- results engine -/
  res : Res
  /-- fabric ports -/
  fport : Vector FabPort 4
  /-- fabric core: addresses, map, routes, messages -/
  fab : FabCore
  /-- beacons of each domain -/
  cw : Vector Cw 16
  /-- census and epoch switches -/
  cen : Census
  /-- discipline of fabric time -/
  ft : FabTime
  /-- control core -/
  core : Core
  /-- scratchpad, mailbox, matrix and DMA -/
  mtx : Mtx
  /-- GDDR7 ports -/
  gdc : Vector GdcPort 8
  /-- security module -/
  sec : Sec
  /-- PCIe endpoint -/
  pcie : Pcie
  /-- supplies, clocks and thermal control -/
  clk : Clk
  /-- serial flash on the xSPI port -/
  flash : Flash
  /-- loader and image -/
  img : Img
  /-- commands waiting, first in, first out -/
  pending : List Instr
  deriving DecidableEq, Repr

/-- The device right after its release from reset: every field at the value the spec states, or the one the assumption log names. -/
def State.reset : State :=
  { ts := 0,
    sys := SysState.init,
    otp := Otp.init,
    balls := Balls.init,
    regs := [],
    shadow := [],
    hiLatch := [],
    rdData := 0,
    rdResp := "",
    peat := Peat.init,
    jnl := Jnl.init,
    eru := Eru.init,
    sent := [],
    fresh := 0,
    pos := Pos.init,
    lane := Vector.replicate 32 Lane.init,
    heads := Vector.replicate 32 [],
    orphans := Vector.replicate 32 [],
    slice := Vector.replicate 32 Slice.init,
    gddr := [],
    tile := Vector.replicate 272 Tile.init,
    frm := Frm.init,
    psq := Psq.init,
    mrk := Vector.replicate 8 MarkOut.init,
    res := Res.init,
    fport := Vector.replicate 4 FabPort.init,
    fab := FabCore.init,
    cw := Vector.replicate 16 Cw.init,
    cen := Census.init,
    ft := FabTime.init,
    core := Core.init,
    mtx := Mtx.init,
    gdc := Vector.replicate 8 GdcPort.init,
    sec := Sec.init,
    pcie := Pcie.init,
    clk := Clk.init,
    flash := Flash.init,
    img := Img.init,
    pending := [] }

end Sys2Proof.Machine
end

