-- ==== Sys2Proof/Machine/KslWire.lean ====
section
/-! DEFINITION. What goes over the wires of a lane: scrambled 66-bit words inward (R72, R75, R76), 8b/10b symbols outward (R73, R85,
R86). -/
namespace Sys2Proof.Machine

/-- A word as received: its sync header is invalid, or it is a data or a control word with these 64 bits. -/
inductive KslRead where
  | bad
  | data (v : Nat)
  | ctl (v : Nat)
  deriving DecidableEq, Repr

/-- Undo the scrambling 1 + x^39 + x^58 of one payload; `st` holds the 58 bits received before, the oldest in bit 0 (R72). Answers the
payload and the last 58 bits received. -/
def descramble (st w : Nat) : Nat × Nat :=
  let c := st + w * 2 ^ 58
  ((c / 2 ^ 58 ^^^ c / 2 ^ 19 ^^^ c) % 2 ^ 64, c / 2 ^ 64)

/-- One word into a lane: sync header 0b01 for data, 0b10 for control, every other value invalid (R72). Sixteen invalid headers among 64
consecutive words are the loss of block lock (R95). -/
def Lane.takeWord (l : Lane) (w : KslWord) : KslRead × Lane :=
  let (v, d) := descramble l.descr w.bits.toNat
  let l := { l with descr := d, words := l.words + 1 }
  if w.sync = 1 then (.data v, l)
  else if w.sync = 2 then (.ctl v, l)
  else
    let at_ := (l.words :: l.badAt).take 16
    (.bad, { l with badAt := at_, syncLoss := l.syncLoss || (at_.length == 16 && decide (l.words < at_.getLastD 0 + 64)) })

/-- Words into a lane, in wire order. -/
def Lane.takeWords (l : Lane) : List KslWord → List KslRead × Lane
  | [] => ([], l)
  | w :: ws =>
    let (r, l) := l.takeWord w
    let (rs, l) := l.takeWords ws
    (r :: rs, l)

/-- A control word type of the table of R75. -/
def ctlKnown (v : Nat) : Bool := [0x1E, 0x2D, 0x2E, 0x4B, 0x4D, 0xE1].contains (v % 256)

/-- Invalid sync headers and control words of unknown type among the words of a block, counted in SYNC_ERR (R75; DEDUCED, log 84). -/
def syncErrs (rs : List KslRead) : Nat :=
  (rs.filter fun r => match r with
    | .bad => true
    | .data _ => false
    | .ctl v => !ctlKnown v).length

/-- The payload bytes of `n` data words, and the words after them. -/
def dataWords : Nat → List KslRead → Option (List Byte × List KslRead)
  | 0, rs => some ([], rs)
  | n + 1, .data v :: rs => (dataWords n rs).map fun (b, r) => (leBytes 8 v ++ b, r)
  | _ + 1, _ => none

/-- Header and payload of a block whose words follow R76 and whose CRC matches (R79, R80): the start word, a data word, 2 × (PLEN + 1)
data words and one TERM word. -/
def kslBlockOf : List KslRead → Option (List Byte × List Byte)
  | .ctl s :: .data h :: rs =>
    let hdr := leBytes 8 s ++ leBytes 8 h
    match dataWords (2 * (bitsN (fieldAt hdr 4 1) 6 0 + 1)) rs with
    | some (p, [.ctl t]) => if t = 0xE1 + 256 * crc32c (hdr ++ p) then some (hdr, p) else none
    | _ => none
  | _ => none

/-- The 6-bit code of 5 bits, `abcdei` with `a` first, for negative disparity; a control symbol 28 has its own (IEEE 802.3 Clause 36, R73;
PRESUMED, log 85). -/
def code6Neg (k : Bool) (x : Nat) : Nat :=
  if k ∧ x = 28 then 0b001111
  else [0b100111, 0b011101, 0b101101, 0b110001, 0b110101, 0b101001, 0b011001, 0b111000,
        0b111001, 0b100101, 0b010101, 0b110100, 0b001101, 0b101100, 0b011100, 0b010111,
        0b011011, 0b100011, 0b010011, 0b110010, 0b001011, 0b101010, 0b011010, 0b111010,
        0b110011, 0b100110, 0b010110, 0b110110, 0b001110, 0b101110, 0b011110, 0b101011].getD x 0

/-- The 4-bit code `fghj` of 3 bits after `x`, at disparity `rd` between the two parts (log 85). -/
def code4 (k rd : Bool) (x y : Nat) : Nat :=
  let neg := [0b1011, 0b1001, 0b0101, 0b1100, 0b1101, 0b1010, 0b0110, 0b1110].getD y 0
  if k then
    if y = 7 then (if rd then 0b1000 else 0b0111)
    else if rd then (if y = 0 ∨ y = 3 ∨ y = 4 then 15 - neg else neg) else (if y = 0 ∨ y = 3 ∨ y = 4 then neg else 15 - neg)
  else if y = 7 ∧ !rd ∧ (x = 17 ∨ x = 18 ∨ x = 20) then 0b0111
  else if y = 7 ∧ rd ∧ (x = 11 ∨ x = 13 ∨ x = 14) then 0b1000
  else if rd ∧ (y = 0 ∨ y = 3 ∨ y = 4 ∨ y = 7) then 15 - neg else neg

/-- The ten bits of a symbol, the first one sent in bit 9, and the running disparity after it; `true` is positive (log 85). -/
def code10 (rd : Bool) (sym : Sym) : BitVec 10 × Bool :=
  let (k, b) := match sym with
    | .k b => (true, b.toNat)
    | .d b => (false, b.toNat)
  let x := b % 32
  let y := b / 32
  let n6 := code6Neg k x
  let c6 := if rd ∧ (popcount 6 n6 ≠ 3 ∨ (x = 7 ∧ !k)) then 63 - n6 else n6
  let rd6 := if popcount 6 n6 = 3 then rd else !rd
  let c4 := code4 k rd6 x y
  (BitVec.ofNat 10 (16 * c6 + c4), if popcount 4 c4 = 2 then rd6 else !rd6)

/-- The bits of symbols in turn, and the running disparity after them. -/
def code10s (rd : Bool) : List Sym → List (BitVec 10) × Bool
  | [] => ([], rd)
  | y :: r =>
    let (c, rd) := code10 rd y
    let (cs, rd) := code10s rd r
    (c :: cs, rd)

/-- MTYPE, LEN, payload and CRC-16, low byte first (R86). -/
def bcBody (mtype : Nat) (p : List Byte) : List Sym :=
  let b := leBytes 1 mtype ++ leBytes 1 p.length ++ p
  (b ++ leBytes 2 (crc16 b)).map .d

/-- The pair of IDLE, SOM, EOM and TTS (R85). -/
def symIdle : List Sym := [.k 0xBC, .d 0xB5]
def symSom : Sym := .k 0xFB
def symEom : Sym := .k 0xFD
def symTts : Sym := .k 0xFC

/-- A message other than TRIGGER, and a TRIGGER (R86). -/
def bcMessage (mtype : Nat) (p : List Byte) : List Sym := symSom :: bcBody mtype p ++ [symEom]
def bcTrigger (p : List Byte) : List Sym := symTts :: bcBody 1 p

/-- IDLE sent from the end of the last symbol up to bit time `t`: the running disparity and the last bit then, and the bits left to `t`. -/
def Lane.idleTo (l : Lane) (t : Int) : Bool × Bool × Nat :=
  let gap := (t - l.bcEnd).toNat
  let k := gap / 10
  let odd := fun (n : Nat) => n % 2 == 1
  let rd := xor l.rd (odd ((k + 1) / 2))
  (rd, if k = 0 then l.lastBit else odd k && !rd, gap % 10)

/-- Filler before a TTS: alternating bits, the first the complement of the last bit sent (R89). -/
def fillBits (last : Bool) (n : Nat) : List Bool := (List.range n).map fun i => xor (!last) (i % 2 == 1)

end Sys2Proof.Machine
end

