-- ==== Sys2Proof/Machine/FabWire.lean ====
section
/-! DEFINITION. What goes over the wires of a fabric port: words, payload blocks and control blocks (R296 to R298, R302, R311, R325,
R329). -/
namespace Sys2Proof.Machine

/-- IDLE, the word between blocks (R296). -/
def fabIdle : FabWord := { ctl := true, bits := 0x1E }

/-- The words of a block: a start control word of type `ty` with the first 7 bytes, then 8 bytes in each data word (R296). -/
def blockWords (ty : Nat) (b : List Byte) : List FabWord :=
  { ctl := true, bits := BitVec.ofNat 64 (ty + 256 * fieldAt b 0 7) } ::
    (List.range (b.length / 8)).map fun i => { ctl := false, bits := BitVec.ofNat 64 (fieldAt b (7 + 8 * i) 8) }

/-- The bytes of a block of type `ty` with `n` data words, after any IDLE; `none` where the words break the order of R296. -/
def wordsBlock (ty n : Nat) (ws : List FabWord) : Option (List Byte) :=
  match ws.dropWhile (· == fabIdle) with
  | w :: ds =>
    if w.ctl ∧ w.bits.toNat % 256 = ty ∧ ds.length = n ∧ ds.all (fun d => !d.ctl) then
      some (leBytes 7 (w.bits.toNat / 256) ++ ds.flatMap fun d => leBytes 8 d.bits.toNat)
    else none
  | [] => none

/-- Every byte from `i` up to, not with, `j` is 0. -/
def zeroAt (b : List Byte) (i j : Nat) : Bool := fieldAt b i (j - i) == 0

/-- The bytes of a payload block with its CRC and padding (R296, R297). -/
def FabBlk.wire (b : FabBlk) (seq : Nat) (resend : Bool) : List Byte :=
  let h := leBytes 1 (fldsOr [(7, 6, b.tc), (5, 0, b.mtype)]) ++ leBytes 1 (fldsOr [(7, 7, b2n resend), (6, 6, b2n b.down)]) ++
    leBytes 2 seq ++ leBytes 2 (fldsOr [(15, 15, b2n b.bcast), (8, 0, b.dst)]) ++
    leBytes 2 (fldsOr [(15, 11, b.hops), (9, 9, b2n b.nosrc), (8, 0, b.src)]) ++ leBytes 2 b.len ++ leBytes 2 b.msgid ++ leBytes 1 b.frag ++
    leBytes 1 b.nfrag ++ leBytes 2 0 ++ fitBytes 512 (b.payload.take b.len)
  h ++ leBytes 4 (crc32c h) ++ leBytes 3 0

/-- The words of a payload block. -/
def FabBlk.words (b : FabBlk) (seq : Nat) (resend : Bool) : List FabWord := blockWords 0x78 (b.wire seq resend)

/-- SEQ and fields of a received payload block; `none` where it is bad: order, CRC, a reserved field, or LEN outside 1 to 512 (R296,
R297; the last DEDUCED, log 99). -/
def fabBlkOf (ws : List FabWord) : Option (Nat × FabBlk) :=
  match wordsBlock 0x78 66 ws with
  | none => none
  | some b =>
    let f := fun (i k hi lo : Nat) => bitsN (fieldAt b i k) hi lo
    let len := fieldAt b 8 2
    if fieldAt b 528 4 = crc32c (b.take 528) ∧ zeroAt b 532 535 ∧ f 1 1 5 0 = 0 ∧ f 4 2 14 9 = 0 ∧ f 6 2 10 10 = 0 ∧ zeroAt b 14 16 ∧
        1 ≤ len ∧ len ≤ 512 then
      some (fieldAt b 2 2,
        { tc := f 0 1 7 6, mtype := f 0 1 5 0, down := bitN (fieldAt b 1 1) 6, bcast := bitN (fieldAt b 4 2) 15, dst := f 4 2 8 0,
          hops := f 6 2 15 11, nosrc := bitN (fieldAt b 6 2) 9, src := f 6 2 8 0, len := len, msgid := fieldAt b 10 2,
          frag := fieldAt b 12 1, nfrag := fieldAt b 13 1, payload := (b.drop 16).take len })
    else none

/-- The bytes of a control block with its CRC and padding (R296, R298); `src` `none` for a sender without address. -/
def ctlWire (ctype : Nat) (src : Option Nat) (txtime : Nat) (body : List Byte) : List Byte :=
  let h := leBytes 1 ctype ++ leBytes 1 0 ++ leBytes 2 (src.getD (2 ^ 9)) ++ leBytes 8 txtime ++ fitBytes 16 body
  h ++ leBytes 4 (crc32c h) ++ leBytes 7 0

/-- The words of a control block. -/
def ctlWords (ctype : Nat) (src : Option Nat) (txtime : Nat) (body : List Byte) : List FabWord :=
  blockWords 0x87 (ctlWire ctype src txtime body)

/-- A good control block: CTYPE, address of the sender, TXTIME and BODY (R298). -/
structure FabCtl where
  ctype : Nat
  src : Option Nat
  txtime : Nat
  body : List Byte
  deriving DecidableEq, Repr

/-- What the tables of R302, R311, R325 and R329 give as 0 in a body is 0, and an ACK names at most four SEQs (log 99). -/
def bodyOk (ctype : Nat) (b : List Byte) : Bool :=
  match ctype with
  | 0x10 => decide (fieldAt b 9 1 < 16) && zeroAt b 10 16
  | 0x11 => decide (fieldAt b 12 1 < 2) && zeroAt b 13 16
  | 0x18 => decide (fieldAt b 0 1 < 4) && decide (fieldAt b 1 1 ≤ 4) && zeroAt b (6 + 2 * fieldAt b 1 1) 16
  | 0x19 => zeroAt b 8 16
  | 0x20 => zeroAt b 2 16
  | 0x21 => decide (fieldAt b 10 1 < 4) && zeroAt b 11 16
  | 0x24 => bitsN (fieldAt b 0 1) 5 4 == 0
  | _ => true

/-- A received control block; `none` where it is bad (R296, R298). -/
def fabCtlOf (ws : List FabWord) : Option FabCtl :=
  match wordsBlock 0x87 4 ws with
  | none => none
  | some b =>
    let body := bslice b 12 16
    if fieldAt b 28 4 = crc32c (b.take 28) ∧ zeroAt b 32 39 ∧ zeroAt b 1 2 ∧ bitsN (fieldAt b 2 2) 15 10 = 0 ∧ bodyOk (fieldAt b 0 1) body then
      some { ctype := fieldAt b 0 1, src := if bitN (fieldAt b 2 2) 9 then none else some (bitsN (fieldAt b 2 2) 8 0), txtime := fieldAt b 4 8,
             body := body }
    else none

/-- HELLO_A and HELLO_B (R311). -/
def helloA (serial prio port use : Nat) : List Byte :=
  leBytes 8 serial ++ leBytes 1 prio ++ leBytes 1 (fldsOr [(3, 2, use), (1, 0, port)]) ++ leBytes 6 0
def helloB (serial prio dist seq : Nat) (up : Bool) : List Byte :=
  leBytes 8 serial ++ leBytes 1 prio ++ leBytes 1 dist ++ leBytes 2 seq ++ leBytes 1 (b2n up) ++ leBytes 3 0

/-- ACK and TXSTATE (R302). -/
def ackBody (tc base credits : Nat) (naks : List Nat) : List Byte :=
  leBytes 1 tc ++ leBytes 1 naks.length ++ leBytes 2 base ++ leBytes 2 credits ++ ((List.range 4).flatMap fun i => leBytes 2 (naks.getD i 0)) ++
    leBytes 2 0
def txstateBody (next : Nat → Nat) : List Byte := ((List.range 4).flatMap fun tc => leBytes 2 (next tc)) ++ leBytes 8 0

/-- SYNC_REQ and SYNC_RSP (R325). -/
def syncReqBody (sseq : Nat) : List Byte := leBytes 2 sseq ++ leBytes 14 0
def syncRspBody (sseq t2 state : Nat) : List Byte := leBytes 2 sseq ++ leBytes 8 t2 ++ leBytes 1 state ++ leBytes 5 0

/-- The fields of a BEACON (R329). -/
structure Beacon where
  motion : Nat
  dom : Nat
  gen : Nat
  status : Nat
  hops : Nat
  root : Nat
  /-- s64 nm -/
  coord : Int
  age : Nat
  deriving DecidableEq, Repr

def beaconBody (b : Beacon) : List Byte :=
  leBytes 1 (fldsOr [(7, 6, b.motion), (3, 0, b.dom)]) ++ leBytes 1 b.gen ++
    leBytes 2 (fldsOr [(15, 14, b.status), (13, 9, b.hops), (8, 0, b.root)]) ++ leBytes 8 (unsigned 64 b.coord) ++ leBytes 4 b.age
def beaconOf (b : List Byte) : Beacon :=
  { motion := bitsN (fieldAt b 0 1) 7 6, dom := bitsN (fieldAt b 0 1) 3 0, gen := fieldAt b 1 1, status := bitsN (fieldAt b 2 2) 15 14,
    hops := bitsN (fieldAt b 2 2) 13 9, root := bitsN (fieldAt b 2 2) 8 0, coord := signed 64 (fieldAt b 4 8), age := fieldAt b 12 4 }

end Sys2Proof.Machine
end

