-- ==== Sys2Proof/Machine/Events.lean ====
section
/-! DEFINITION. The events of the error reporting unit (R538) with their classes and rate limits, from the event tables of the spec. -/
namespace Sys2Proof.Machine

/-- An ERU event: identifier (R538), class (0 INFO, 1 CORRECTED, 2 DEGRADED, 3 FATAL), SOURCE of its block (R539), and the window
in TS units within which it is raised at most once, 0 for none. -/
structure Ev where
  id : Nat
  cls : Nat
  src : Nat
  window : Nat
  deriving DecidableEq, Repr

/-- ENC_QUAD_ERR. -/
def evEncQuadErr : Ev := ⟨0x0100, 2, 0xA0, 0⟩
/-- ENC_OVERSPEED. -/
def evEncOverspeed : Ev := ⟨0x0101, 2, 0xA0, 0⟩
/-- ENC_RX_FAULT. -/
def evEncRxFault : Ev := ⟨0x0102, 2, 0xA0, 0⟩
/-- ENC_Z_MISMATCH. -/
def evEncZMismatch : Ev := ⟨0x0103, 2, 0xA0, 0⟩
/-- POS_CHECK_DIFF. -/
def evPosCheckDiff : Ev := ⟨0x0104, 2, 0x10, 0⟩
/-- POS_COAST. -/
def evPosCoast : Ev := ⟨0x0105, 2, 0x10, 0⟩
/-- POS_LOST. -/
def evPosLost : Ev := ⟨0x0106, 2, 0x10, 0⟩
/-- TT_NONMONO. -/
def evTtNonmono : Ev := ⟨0x0107, 2, 0x10, 0⟩
/-- POS_TRG_LATE. -/
def evPosTrgLate : Ev := ⟨0x0108, 2, 0x10, 0⟩
/-- SYS_DIE_LINK. -/
def evSysDieLink : Ev := ⟨0x0200, 3, 0, 0⟩
/-- IGL_LANE_DOWN. -/
def evIglLaneDown : Ev := ⟨0x0300, 2, 0x400, 0⟩
/-- IGL_RETRAIN_OK. -/
def evIglRetrainOk : Ev := ⟨0x0301, 1, 0x400, 0⟩
/-- IGL_CFG_MISMATCH. -/
def evIglCfgMismatch : Ev := ⟨0x0302, 2, 0x400, 0⟩
/-- IGL_BLOCK_LOST. -/
def evIglBlockLost : Ev := ⟨0x0303, 2, 0x400, 800000⟩
/-- IGL_LINE_TIMEOUT. -/
def evIglLineTimeout : Ev := ⟨0x0304, 2, 0x400, 800000⟩
/-- IGL_ORPHAN. -/
def evIglOrphan : Ev := ⟨0x0305, 0, 0x400, 800000⟩
/-- LCU_FILL. -/
def evLcuFill : Ev := ⟨0x0400, 2, 0x500, 800000⟩
/-- LCU_STITCH_MISS. -/
def evLcuStitchMiss : Ev := ⟨0x0401, 2, 0x500, 800000⟩
/-- LCU_TBL_LATE. -/
def evLcuTblLate : Ev := ⟨0x0402, 2, 0x500, 0⟩
/-- LCU_STAMP_ORDER. -/
def evLcuStampOrder : Ev := ⟨0x0403, 0, 0x500, 800000⟩
/-- TILE_ACCESS_REFUSED. -/
def evTileAccessRefused : Ev := ⟨0x0500, 0, 0x1000, 0⟩
/-- TILE_MEM_CE. -/
def evTileMemCe : Ev := ⟨0x0501, 1, 0x1000, 800000⟩
/-- TILE_MEM_UE. -/
def evTileMemUe : Ev := ⟨0x0502, 2, 0x1000, 0⟩
/-- TILE_SCHED_FAULT. -/
def evTileSchedFault : Ev := ⟨0x0503, 2, 0x1000, 0⟩
/-- TILE_MEM_FAULT. -/
def evTileMemFault : Ev := ⟨0x0504, 2, 0x1000, 0⟩
/-- FRM_LATE. -/
def evFrmLate : Ev := ⟨0x0600, 0, 0x20, 800000⟩
/-- FRM_DROP. -/
def evFrmDrop : Ev := ⟨0x0601, 2, 0x20, 800000⟩
/-- FRM_OVERSPEED. -/
def evFrmOverspeed : Ev := ⟨0x0602, 0, 0x20, 0⟩
/-- FRM_SWITCH. -/
def evFrmSwitch : Ev := ⟨0x0603, 0, 0x20, 0⟩
/-- STRM_OVERWRITTEN. -/
def evStrmOverwritten : Ev := ⟨0x0604, 2, 0x20, 800000⟩
/-- ACLK_STEP. -/
def evAclkStep : Ev := ⟨0x0605, 0, 0x20, 0⟩
/-- TILE_PAIR_MASKED. -/
def evTilePairMasked : Ev := ⟨0x0606, 1, 0x20, 0⟩
/-- TILE_PAIR_DISAGREE. -/
def evTilePairDisagree : Ev := ⟨0x0607, 2, 0x20, 0⟩
/-- TWIN_PEER_FAULT. -/
def evTwinPeerFault : Ev := ⟨0x0608, 0, 0x20, 0⟩
/-- TWIN_DISAGREE. -/
def evTwinDisagree : Ev := ⟨0x0609, 2, 0x20, 0⟩
/-- TWIN_LATE. -/
def evTwinLate : Ev := ⟨0x060A, 0, 0x20, 800000⟩
/-- TWIN_PEER_LOST. -/
def evTwinPeerLost : Ev := ⟨0x060B, 2, 0x20, 0⟩
/-- PSQ_CX_FAULT. -/
def evPsqCxFault : Ev := ⟨0x0700, 2, 0x20, 0⟩
/-- PSQ_CS_REFUSED. -/
def evPsqCsRefused : Ev := ⟨0x0701, 0, 0x20, 0⟩
/-- PSQ_CS_PARITY. -/
def evPsqCsParity : Ev := ⟨0x0702, 3, 0x20, 0⟩
/-- RES_REC_LOST. -/
def evResRecLost : Ev := ⟨0x0800, 2, 0x800, 800000⟩
/-- RES_REC_TRUNC. -/
def evResRecTrunc : Ev := ⟨0x0801, 2, 0x800, 0⟩
/-- RES_CLIP_DROP. -/
def evResClipDrop : Ev := ⟨0x0802, 0, 0x800, 800000⟩
/-- RES_TRK_OOR. -/
def evResTrkOor : Ev := ⟨0x0803, 2, 0x800, 800000⟩
/-- MRK_LATE. -/
def evMrkLate : Ev := ⟨0x0804, 2, 0x800, 800000⟩
/-- MRK_QUEUE_FULL. -/
def evMrkQueueFull : Ev := ⟨0x0805, 2, 0x800, 800000⟩
/-- FAB_LINK_DOWN. -/
def evFabLinkDown : Ev := ⟨0x0900, 2, 0x700, 0⟩
/-- FAB_LINK_UP. -/
def evFabLinkUp : Ev := ⟨0x0901, 0, 0x700, 0⟩
/-- FAB_BLOCK_LOST. -/
def evFabBlockLost : Ev := ⟨0x0902, 2, 0x700, 800000⟩
/-- FAB_UNREACH. -/
def evFabUnreach : Ev := ⟨0x0903, 2, 0x708, 800000⟩
/-- FAB_ROOT_CHANGE. -/
def evFabRootChange : Ev := ⟨0x0904, 0, 0x708, 0⟩
/-- FAB_ADDR_CONFLICT. -/
def evFabAddrConflict : Ev := ⟨0x0905, 2, 0x708, 0⟩
/-- FAB_FULL. -/
def evFabFull : Ev := ⟨0x0906, 2, 0x708, 0⟩
/-- FAB_PEER_MISMATCH. -/
def evFabPeerMismatch : Ev := ⟨0x0907, 2, 0x700, 0⟩
/-- FT_STEP. -/
def evFtStep : Ev := ⟨0x0A00, 2, 0x708, 0⟩
/-- FT_HOLDOVER. -/
def evFtHoldover : Ev := ⟨0x0A01, 2, 0x708, 0⟩
/-- CW_ROOT_SWITCH. -/
def evCwRootSwitch : Ev := ⟨0x0A02, 0, 0x708, 0⟩
/-- CW_ROOT_CONFLICT. -/
def evCwRootConflict : Ev := ⟨0x0A03, 2, 0x708, 0⟩
/-- CEN_LISTED. -/
def evCenListed : Ev := ⟨0x0A04, 2, 0x708, 0⟩
/-- CEN_NO_MAJORITY. -/
def evCenNoMajority : Ev := ⟨0x0A05, 2, 0x708, 0⟩
/-- EPOCH_DONE. -/
def evEpochDone : Ev := ⟨0x0A06, 0, 0x708, 0⟩
/-- EPOCH_ABORT. -/
def evEpochAbort : Ev := ⟨0x0A07, 0, 0x708, 0⟩
/-- CC_LOCKUP. -/
def evCcLockup : Ev := ⟨0x0B00, 3, 0x70, 0⟩
/-- SPM_CE. -/
def evSpmCe : Ev := ⟨0x0C00, 1, 0x60, 800000⟩
/-- SPM_UE. -/
def evSpmUe : Ev := ⟨0x0C01, 2, 0x60, 0⟩
/-- SPM_TEST_FAIL. -/
def evSpmTestFail : Ev := ⟨0x0C02, 2, 0x60, 0⟩
/-- MBX_COLLIDE. -/
def evMbxCollide : Ev := ⟨0x0C03, 0, 0x60, 0⟩
/-- MTX_TIMEOUT. -/
def evMtxTimeout : Ev := ⟨0x0C04, 2, 0x60, 0⟩
/-- MTX_LOCK_BREAK. -/
def evMtxLockBreak : Ev := ⟨0x0C05, 2, 0x60, 0⟩
/-- MTX_DECERR. -/
def evMtxDecerr : Ev := ⟨0x0C06, 0, 0x60, 800000⟩
/-- MTX_MASTER_RESET. -/
def evMtxMasterReset : Ev := ⟨0x0C07, 0, 0x60, 0⟩
/-- GDC_RETRY. -/
def evGdcRetry : Ev := ⟨0x0D00, 1, 0x600, 800000⟩
/-- GDC_ODECC_CE. -/
def evGdcOdeccCe : Ev := ⟨0x0D01, 1, 0x600, 800000⟩
/-- GDC_RETRY_FAIL. -/
def evGdcRetryFail : Ev := ⟨0x0D02, 2, 0x600, 800000⟩
/-- GDC_TRAIN_FAIL. -/
def evGdcTrainFail : Ev := ⟨0x0D03, 2, 0x600, 0⟩
/-- GDC_PORT_LOST. -/
def evGdcPortLost : Ev := ⟨0x0D04, 2, 0x600, 0⟩
/-- CFG_STATIC_WRITE. -/
def evCfgStaticWrite : Ev := ⟨0x0E00, 0, 0x90, 800000⟩
/-- CFG_RESERVED_ENC. -/
def evCfgReservedEnc : Ev := ⟨0x0E01, 0, 0x90, 800000⟩
/-- CFG_FALLBACK. -/
def evCfgFallback : Ev := ⟨0x0E02, 2, 0x90, 0⟩
/-- CFG_HOLD. -/
def evCfgHold : Ev := ⟨0x0E03, 2, 0x90, 0⟩
/-- CFG_RESTART. -/
def evCfgRestart : Ev := ⟨0x0E04, 0, 0x90, 0⟩
/-- SEC_WRITE_REFUSED. -/
def evSecWriteRefused : Ev := ⟨0x0F00, 0, 0x50, 800000⟩
/-- SEC_TOKEN_FAIL. -/
def evSecTokenFail : Ev := ⟨0x0F01, 0, 0x50, 800000⟩
/-- SEC_KEY_CHANGE. -/
def evSecKeyChange : Ev := ⟨0x0F02, 0, 0x50, 0⟩
/-- SEC_LC_CHANGE. -/
def evSecLcChange : Ev := ⟨0x0F03, 0, 0x50, 0⟩
/-- SEC_ENTROPY_FAIL. -/
def evSecEntropyFail : Ev := ⟨0x0F04, 2, 0x50, 0⟩
/-- SEC_TAMPER. -/
def evSecTamper : Ev := ⟨0x0F05, 3, 0x50, 0⟩
/-- JNL_PEAT_DROP. -/
def evJnlPeatDrop : Ev := ⟨0x1000, 2, 0x40, 800000⟩
/-- JNL_FW_TIMEOUT. -/
def evJnlFwTimeout : Ev := ⟨0x1001, 0, 0x40, 0⟩
/-- THERM_HIGH. -/
def evThermHigh : Ev := ⟨0x1100, 2, 0xB0, 800000000⟩
/-- THERM_SHUTDOWN. -/
def evThermShutdown : Ev := ⟨0x1101, 3, 0xB0, 0⟩
/-- AVS_FAULT. -/
def evAvsFault : Ev := ⟨0x1102, 2, 0xB0, 0⟩
/-- PMB_ALERT. -/
def evPmbAlert : Ev := ⟨0x1103, 2, 0xB0, 0⟩
/-- SUPPLY_WARN. -/
def evSupplyWarn : Ev := ⟨0x1104, 2, 0xB0, 0⟩

/-- ERU event of a tile's fault code (R181). -/
def tileEv (code : Nat) : Ev := if code = 12 ∨ code = 13 then evTileMemFault else evTileSchedFault

end Sys2Proof.Machine
end

