-- ==== Sys2Proof/Config.lean ====
section
/-! DEFINITION. What the spec leaves free: constants without a body, applied to the operands or to a counter of the state, so
that no proof can rely on a value. -/
namespace Sys2Proof

/-- Free bits, by the counter of values taken (log 1): random bits, a value the spec leaves open. -/
opaque Config.freeBits : Nat → BitVec 256

/-- SHAKE256 of bytes; the first `n` bytes of its output are used (log 2). The spec names the function and does not lay it down. -/
opaque Config.shake256 : List Byte → List Byte

/-- SLH-DSA-SHAKE-256s verification of a signature over bytes under a public key (log 2). -/
opaque Config.slhVerify : (pub msg sig : List Byte) → Bool

/-- SLH-DSA-SHAKE-256f signature with the private key drawn from random bits `k` (log 2). -/
opaque Config.slhSign : (k : Nat) → (msg : List Byte) → List Byte

/-- The public key that belongs to the private key drawn from random bits `k` (log 2). -/
opaque Config.slhPub : (k : Nat) → List Byte

/-- The outcome of the pairwise consistency test of the key drawn from random bits `k` (R494; log 2). -/
opaque Config.pairwiseOk : (k : Nat) → Bool

/-- Versions in the attestation report (R516): ROM and Lagg firmware, base microcode. The spec states no value (log 1). -/
opaque Config.romVersion : BitVec 32
opaque Config.microcodeVersion : BitVec 32

/-- AES-256-GCM decryption under KFAM: IV, additional data, ciphertext, tag; `none` when the tag fails (log 2). -/
opaque Config.gcmOpen : (iv aad text tag : List Byte) → Option (List Byte)

/-- Kabrimor's PCI-SIG vendor identifier, and what the words of the configuration space hold in the bits the spec leaves open (R543, R544; logs 1 and 124). -/
opaque Config.vendorId : BitVec 16
opaque Config.cfgSpace : BitVec 12 → BitVec 32

/-- Words that the prefetch queue reads ahead, at most, at a fetch in CCLK cycle `cycle` from address `pc`: the spec does not say when it
reads (R385; log 108). -/
opaque Config.readAhead : (cycle pc : Nat) → Nat

/-- Microword at address `a` of the base microcode that every start copies from Lagg die ROM: Kabrimor's own, not laid down (R257, R261;
log 96). -/
opaque Config.romWord : (a : Nat) → BitVec 120

/-- What VOUT_COMMAND carries for a voltage of `mv` mV in the VOUT_MODE that the regulator declares (R570; log 125). -/
opaque Config.voutCommand : (mv : Nat) → BitVec 16

end Sys2Proof
end

