-- ==== Sys2Proof/Machine/Regs.lean ====
section
/-! DEFINITION. The register tables of the spec (R70, R113, R138, R182, R220, R239, R263, R291, R322, R346, R416, R438, R454, R490,
R519, R542, R564, R591): offset, replication, reset value, fields with access code, class and stated value range. -/
namespace Sys2Proof.Machine

/-- The access codes of R555. -/
inductive Acc where
  | rw | ro | wo | w1c | w1s
  deriving DecidableEq, Repr

/-- The register classes of R486 to R488: static, frame-latched, live. -/
inductive RCls where
  | s | f | l
  deriving DecidableEq, Repr

/-- One field: bits `hi` to `lo`, its access, its class, and the value ranges that are not reserved encodings (none listed: all). -/
structure RField where
  hi : Nat
  lo : Nat
  acc : Acc
  cls : RCls
  ok : List (Nat × Nat)
  deriving DecidableEq, Repr

/-- One register row: first offset, up to two replications (stride, count), reset value, P-only mark (R551), fields. -/
structure RSpec where
  base : Nat
  dims : List (Nat × Nat)
  reset : Nat
  pOnly : Bool
  fields : List RField
  deriving DecidableEq, Repr

/-- `x` is one of the replications of a row. -/
def coversDims : List (Nat × Nat) → Nat → Bool
  | [], x => x == 0
  | [(st, n)], x => x % st == 0 && decide (x / st < n)
  | (st, n) :: r, x => decide (x / st < n) && coversDims r (x % st)

/-- The row describes offset `o`. -/
def RSpec.covers (r : RSpec) (o : Nat) : Bool := decide (r.base ≤ o) && coversDims r.dims (o - r.base)

/-- POS_CTRL. -/
def rPosCtrl : Nat := 0x10000
/-- POS_STATUS. -/
def rPosStatus : Nat := 0x10004
/-- POS_TS_LO. -/
def rPosTsLo : Nat := 0x10008
/-- POS_TS_HI. -/
def rPosTsHi : Nat := 0x1000C
/-- POS_EVT. -/
def rPosEvt : Nat := 0x10010
/-- POS_Dd_CTRL. -/
def rPosDCtrl (d : Nat) : Nat := 0x10100 + d * 0x80
/-- POS_Dd_STATUS. -/
def rPosDStatus (d : Nat) : Nat := 0x10104 + d * 0x80
/-- POS_Dd_SCALE_LO. -/
def rPosDScaleLo (d : Nat) : Nat := 0x10108 + d * 0x80
/-- POS_Dd_SCALE_HI. -/
def rPosDScaleHi (d : Nat) : Nat := 0x1010C + d * 0x80
/-- POS_Dd_PITCH. -/
def rPosDPitch (d : Nat) : Nat := 0x10110 + d * 0x80
/-- POS_Dd_GRID_LO. -/
def rPosDGridLo (d : Nat) : Nat := 0x10114 + d * 0x80
/-- POS_Dd_GRID_HI. -/
def rPosDGridHi (d : Nat) : Nat := 0x10118 + d * 0x80
/-- POS_Dd_INIT_LO. -/
def rPosDInitLo (d : Nat) : Nat := 0x1011C + d * 0x80
/-- POS_Dd_INIT_HI. -/
def rPosDInitHi (d : Nat) : Nat := 0x10120 + d * 0x80
/-- POS_Dd_COORD_LO. -/
def rPosDCoordLo (d : Nat) : Nat := 0x10124 + d * 0x80
/-- POS_Dd_COORD_HI. -/
def rPosDCoordHi (d : Nat) : Nat := 0x10128 + d * 0x80
/-- POS_Dd_HWM_LO. -/
def rPosDHwmLo (d : Nat) : Nat := 0x1012C + d * 0x80
/-- POS_Dd_HWM_HI. -/
def rPosDHwmHi (d : Nat) : Nat := 0x10130 + d * 0x80
/-- POS_Dd_VEL. -/
def rPosDVel (d : Nat) : Nat := 0x10134 + d * 0x80
/-- POS_Dd_EST. -/
def rPosDEst (d : Nat) : Nat := 0x10138 + d * 0x80
/-- POS_Dd_ZEXP. -/
def rPosDZexp (d : Nat) : Nat := 0x1013C + d * 0x80
/-- POS_Dd_ORIGIN_LO. -/
def rPosDOriginLo (d : Nat) : Nat := 0x10140 + d * 0x80
/-- POS_Dd_ORIGIN_HI. -/
def rPosDOriginHi (d : Nat) : Nat := 0x10144 + d * 0x80
/-- POS_Dd_PRODUCT. -/
def rPosDProduct (d : Nat) : Nat := 0x10148 + d * 0x80
/-- POS_Dd_CSCALE_LO. -/
def rPosDCscaleLo (d : Nat) : Nat := 0x1014C + d * 0x80
/-- POS_Dd_CSCALE_HI. -/
def rPosDCscaleHi (d : Nat) : Nat := 0x10150 + d * 0x80
/-- POS_TGg_CTRL. -/
def rPosTgCtrl (g : Nat) : Nat := 0x11000 + g * 0x20
/-- POS_TGg_HOFS_LO. -/
def rPosTgHofsLo (g : Nat) : Nat := 0x11004 + g * 0x20
/-- POS_TGg_HOFS_HI. -/
def rPosTgHofsHi (g : Nat) : Nat := 0x11008 + g * 0x20
/-- POS_TGg_COMP. -/
def rPosTgComp (g : Nat) : Nat := 0x1100C + g * 0x20
/-- POS_TGg_PULSE. -/
def rPosTgPulse (g : Nat) : Nat := 0x11010 + g * 0x20
/-- POS_TGg_PHASE. -/
def rPosTgPhase (g : Nat) : Nat := 0x11014 + g * 0x20
/-- POS_TGg_FIRED. -/
def rPosTgFired (g : Nat) : Nat := 0x11018 + g * 0x20
/-- POS_TGg_LOSS. -/
def rPosTgLoss (g : Nat) : Nat := 0x1101C + g * 0x20
/-- POS_TTt_CTRL. -/
def rPosTtCtrl (t : Nat) : Nat := 0x11400 + t * 0x40
/-- POS_TTt_DE_LO. -/
def rPosTtDeLo (t : Nat) : Nat := 0x11404 + t * 0x40
/-- POS_TTt_DE_HI. -/
def rPosTtDeHi (t : Nat) : Nat := 0x11408 + t * 0x40
/-- POS_TTt_DX_LO. -/
def rPosTtDxLo (t : Nat) : Nat := 0x1140C + t * 0x40
/-- POS_TTt_DX_HI. -/
def rPosTtDxHi (t : Nat) : Nat := 0x11410 + t * 0x40
/-- POS_TTt_BASE_LO. -/
def rPosTtBaseLo (t : Nat) : Nat := 0x11414 + t * 0x40
/-- POS_TTt_BASE_HI. -/
def rPosTtBaseHi (t : Nat) : Nat := 0x11418 + t * 0x40
/-- POS_TTt_COUNT. -/
def rPosTtCount (t : Nat) : Nat := 0x1141C + t * 0x40
/-- POS_TTt_LAST. -/
def rPosTtLast (t : Nat) : Nat := 0x11420 + t * 0x40
/-- POS_TTt_NONMONO. -/
def rPosTtNonmono (t : Nat) : Nat := 0x11424 + t * 0x40

/-- Rows of the POS registers, part 0. -/
def regsPos0 : List RSpec := [
  ⟨0x10000, [], 0x7D0, false, [⟨16, 16, .rw, .s, []⟩, ⟨15, 0, .rw, .s, [(1200, 65535)]⟩]⟩,
  ⟨0x10004, [], 0x0, false, [⟨31, 16, .ro, .l, []⟩, ⟨15, 0, .ro, .l, []⟩]⟩,
  ⟨0x10008, [], 0x0, false, [⟨31, 0, .ro, .l, []⟩]⟩,
  ⟨0x1000C, [], 0x0, false, [⟨31, 0, .ro, .l, []⟩]⟩,
  ⟨0x10010, [], 0x0, false, [⟨3, 3, .w1c, .l, []⟩, ⟨2, 2, .w1c, .l, []⟩, ⟨1, 1, .w1c, .l, []⟩, ⟨0, 0, .w1c, .l, []⟩]⟩,
  ⟨0x10100, [(0x80, 16)], 0x0, false, [⟨31, 16, .rw, .s, []⟩, ⟨15, 12, .rw, .s, []⟩, ⟨11, 10, .rw, .s, []⟩, ⟨9, 8, .rw, .s, []⟩, ⟨6, 6, .rw, .s, []⟩, ⟨5, 4, .rw, .s, []⟩, ⟨3, 3, .rw, .s, []⟩, ⟨2, 1, .rw, .s, [(0, 2)]⟩, ⟨0, 0, .rw, .s, []⟩]⟩,
  ⟨0x10104, [(0x80, 16)], 0x0, false, [⟨31, 16, .ro, .l, []⟩, ⟨8, 8, .ro, .l, []⟩, ⟨5, 4, .ro, .l, []⟩, ⟨2, 0, .ro, .l, []⟩]⟩,
  ⟨0x10108, [(0x80, 16)], 0x0, false, [⟨31, 0, .rw, .s, []⟩]⟩,
  ⟨0x1010C, [(0x80, 16)], 0x0, false, [⟨31, 0, .rw, .s, []⟩]⟩,
  ⟨0x10110, [(0x80, 16)], 0x3E8, false, [⟨31, 0, .rw, .s, [(1000, 4294967295)]⟩]⟩,
  ⟨0x10114, [(0x80, 16)], 0x0, false, [⟨31, 0, .rw, .s, []⟩]⟩,
  ⟨0x10118, [(0x80, 16)], 0x0, false, [⟨31, 0, .rw, .s, []⟩]⟩,
  ⟨0x1011C, [(0x80, 16)], 0x0, false, [⟨31, 0, .rw, .s, []⟩]⟩,
  ⟨0x10120, [(0x80, 16)], 0x0, false, [⟨31, 0, .rw, .s, []⟩]⟩,
  ⟨0x10124, [(0x80, 16)], 0x0, false, [⟨31, 0, .ro, .l, []⟩]⟩,
  ⟨0x10128, [(0x80, 16)], 0x0, false, [⟨31, 0, .ro, .l, []⟩]⟩,
  ⟨0x1012C, [(0x80, 16)], 0x0, false, [⟨31, 0, .ro, .l, []⟩]⟩,
  ⟨0x10130, [(0x80, 16)], 0x0, false, [⟨31, 0, .ro, .l, []⟩]⟩,
  ⟨0x10134, [(0x80, 16)], 0x0, false, [⟨31, 0, .ro, .l, []⟩]⟩,
  ⟨0x10138, [(0x80, 16)], 0xA050A04, false, [⟨31, 24, .rw, .s, [(1, 255)]⟩, ⟨23, 16, .rw, .s, [(1, 255)]⟩, ⟨15, 8, .rw, .s, [(1, 255)]⟩, ⟨7, 0, .rw, .s, [(1, 255)]⟩]⟩,
  ⟨0x1013C, [(0x80, 16)], 0x0, false, [⟨31, 24, .rw, .s, []⟩, ⟨23, 0, .rw, .s, []⟩]⟩,
  ⟨0x10140, [(0x80, 16)], 0x0, false, [⟨31, 0, .ro, .l, []⟩]⟩,
  ⟨0x10144, [(0x80, 16)], 0x0, false, [⟨31, 0, .ro, .l, []⟩]⟩,
  ⟨0x10148, [(0x80, 16)], 0x0, false, [⟨31, 0, .ro, .l, []⟩]⟩]

/-- Rows of the POS registers, part 1. -/
def regsPos1 : List RSpec := [
  ⟨0x1014C, [(0x80, 16)], 0x0, false, [⟨31, 0, .rw, .s, []⟩]⟩,
  ⟨0x10150, [(0x80, 16)], 0x0, false, [⟨31, 0, .rw, .s, []⟩]⟩,
  ⟨0x11000, [(0x20, 32)], 0x0, false, [⟨23, 20, .rw, .s, []⟩, ⟨19, 18, .rw, .s, []⟩, ⟨17, 13, .rw, .s, []⟩, ⟨12, 9, .rw, .s, []⟩, ⟨8, 7, .rw, .s, []⟩, ⟨4, 1, .rw, .s, []⟩, ⟨0, 0, .rw, .s, []⟩]⟩,
  ⟨0x11004, [(0x20, 32)], 0x0, false, [⟨31, 0, .rw, .s, []⟩]⟩,
  ⟨0x11008, [(0x20, 32)], 0x0, false, [⟨31, 0, .rw, .s, []⟩]⟩,
  ⟨0x1100C, [(0x20, 32)], 0x0, false, [⟨31, 0, .rw, .l, []⟩]⟩,
  ⟨0x11010, [(0x20, 32)], 0x7D00050, false, [⟨31, 16, .rw, .s, []⟩, ⟨15, 0, .rw, .s, [(8, 65535)]⟩]⟩,
  ⟨0x11014, [(0x20, 32)], 0x0, false, [⟨21, 21, .rw, .s, []⟩, ⟨20, 16, .rw, .s, [(0, 14)]⟩, ⟨15, 0, .rw, .s, []⟩]⟩,
  ⟨0x11018, [(0x20, 32)], 0x0, false, [⟨31, 0, .ro, .l, []⟩]⟩,
  ⟨0x1101C, [(0x20, 32)], 0x0, false, [⟨31, 16, .ro, .l, []⟩, ⟨15, 0, .ro, .l, []⟩]⟩,
  ⟨0x11400, [(0x40, 4)], 0x0, false, [⟨15, 12, .rw, .s, []⟩, ⟨11, 8, .rw, .s, []⟩, ⟨7, 4, .rw, .s, []⟩, ⟨0, 0, .rw, .s, []⟩]⟩,
  ⟨0x11404, [(0x40, 4)], 0x0, false, [⟨31, 0, .rw, .s, []⟩]⟩,
  ⟨0x11408, [(0x40, 4)], 0x0, false, [⟨31, 0, .rw, .s, []⟩]⟩,
  ⟨0x1140C, [(0x40, 4)], 0x0, false, [⟨31, 0, .rw, .s, []⟩]⟩,
  ⟨0x11410, [(0x40, 4)], 0x0, false, [⟨31, 0, .rw, .s, []⟩]⟩,
  ⟨0x11414, [(0x40, 4)], 0x0, false, [⟨31, 0, .ro, .l, []⟩]⟩,
  ⟨0x11418, [(0x40, 4)], 0x0, false, [⟨31, 0, .ro, .l, []⟩]⟩,
  ⟨0x1141C, [(0x40, 4)], 0x0, false, [⟨31, 0, .ro, .l, []⟩]⟩,
  ⟨0x11420, [(0x40, 4)], 0x0, false, [⟨31, 0, .ro, .l, []⟩]⟩,
  ⟨0x11424, [(0x40, 4)], 0x0, false, [⟨31, 0, .ro, .l, []⟩]⟩]

/-- Rows of the POS registers. -/
def regsPos : List RSpec := regsPos0 ++ regsPos1

/-- IOX_ENCn_CFG. -/
def rIoxEncCfg (n : Nat) : Nat := 0xA0000 + n * 0x10
/-- IOX_ENCn_COUNT. -/
def rIoxEncCount (n : Nat) : Nat := 0xA0004 + n * 0x10
/-- IOX_ENCn_ZCAP. -/
def rIoxEncZcap (n : Nat) : Nat := 0xA0008 + n * 0x10
/-- IOX_ENCn_STAT. -/
def rIoxEncStat (n : Nat) : Nat := 0xA000C + n * 0x10
/-- IOX_TRG_EN. -/
def rIoxTrgEn : Nat := 0xA0040
/-- IOX_TRG_POL. -/
def rIoxTrgPol : Nat := 0xA0044
/-- IOX_MRK_POL. -/
def rIoxMrkPol : Nat := 0xA0048
/-- IOX_GPO_OUT. -/
def rIoxGpoOut : Nat := 0xA0050
/-- IOX_GPO_SAFE. -/
def rIoxGpoSafe : Nat := 0xA0054
/-- IOX_GPI_IN. -/
def rIoxGpiIn : Nat := 0xA0058
/-- IOX_GPI_FILT. -/
def rIoxGpiFilt : Nat := 0xA005C
/-- IOX_GPI_EDGE. -/
def rIoxGpiEdge : Nat := 0xA0060
/-- IOX_DRV. -/
def rIoxDrv : Nat := 0xA0070

/-- Rows of the IOX registers, part 0. -/
def regsIox0 : List RSpec := [
  ⟨0xA0000, [(0x10, 4)], 0x0, false, [⟨15, 8, .rw, .s, []⟩, ⟨5, 5, .rw, .s, []⟩, ⟨4, 4, .rw, .s, []⟩, ⟨3, 3, .rw, .s, []⟩, ⟨2, 2, .rw, .s, []⟩, ⟨1, 0, .rw, .s, []⟩]⟩,
  ⟨0xA0004, [(0x10, 4)], 0x0, false, [⟨31, 0, .ro, .l, []⟩]⟩,
  ⟨0xA0008, [(0x10, 4)], 0x0, false, [⟨31, 0, .ro, .l, []⟩]⟩,
  ⟨0xA000C, [(0x10, 4)], 0x0, false, [⟨31, 16, .ro, .l, []⟩, ⟨5, 5, .w1c, .l, []⟩, ⟨4, 4, .w1c, .l, []⟩, ⟨3, 3, .w1c, .l, []⟩, ⟨2, 2, .ro, .l, []⟩, ⟨1, 1, .ro, .l, []⟩, ⟨0, 0, .ro, .l, []⟩]⟩,
  ⟨0xA0040, [], 0x0, false, [⟨15, 0, .rw, .l, []⟩]⟩,
  ⟨0xA0044, [], 0x0, false, [⟨15, 0, .rw, .s, []⟩]⟩,
  ⟨0xA0048, [], 0x0, false, [⟨7, 0, .rw, .s, []⟩]⟩,
  ⟨0xA0050, [], 0x0, false, [⟨15, 0, .rw, .l, []⟩]⟩,
  ⟨0xA0054, [], 0x0, false, [⟨15, 0, .rw, .s, []⟩]⟩,
  ⟨0xA0058, [], 0x0, false, [⟨15, 0, .ro, .l, []⟩]⟩,
  ⟨0xA005C, [], 0x0, false, [⟨7, 0, .rw, .s, []⟩]⟩,
  ⟨0xA0060, [], 0x0, false, [⟨31, 16, .w1c, .l, []⟩, ⟨15, 0, .w1c, .l, []⟩]⟩,
  ⟨0xA0070, [], 0x0, false, [⟨23, 16, .rw, .s, []⟩, ⟨15, 0, .rw, .s, []⟩]⟩]

/-- Rows of the IOX registers. -/
def regsIox : List RSpec := regsIox0

/-- IGL_Lnn_CTRL. -/
def rIglLCtrl (n : Nat) : Nat := 0x400000 + n * 0x1000
/-- IGL_Lnn_HEAD. -/
def rIglLHead (n : Nat) : Nat := 0x400004 + n * 0x1000
/-- IGL_Lnn_LINE. -/
def rIglLLine (n : Nat) : Nat := 0x400008 + n * 0x1000
/-- IGL_Lnn_SR. -/
def rIglLSr (n : Nat) : Nat := 0x40000C + n * 0x1000
/-- IGL_Lnn_LTO. -/
def rIglLLto (n : Nat) : Nat := 0x400010 + n * 0x1000
/-- IGL_Lnn_STATUS. -/
def rIglLStatus (n : Nat) : Nat := 0x400014 + n * 0x1000
/-- IGL_Lnn_CAP0. -/
def rIglLCap0 (n : Nat) : Nat := 0x400018 + n * 0x1000
/-- IGL_Lnn_CAP1. -/
def rIglLCap1 (n : Nat) : Nat := 0x40001C + n * 0x1000
/-- IGL_Lnn_EVT. -/
def rIglLEvt (n : Nat) : Nat := 0x400020 + n * 0x1000
/-- IGL_Lnn_BLK_GOOD. -/
def rIglLBlkGood (n : Nat) : Nat := 0x400024 + n * 0x1000
/-- IGL_Lnn_BLK_BAD. -/
def rIglLBlkBad (n : Nat) : Nat := 0x400028 + n * 0x1000
/-- IGL_Lnn_RESEND_REQ. -/
def rIglLResendReq (n : Nat) : Nat := 0x40002C + n * 0x1000
/-- IGL_Lnn_BLK_RESENT. -/
def rIglLBlkResent (n : Nat) : Nat := 0x400030 + n * 0x1000
/-- IGL_Lnn_BLK_LOST. -/
def rIglLBlkLost (n : Nat) : Nat := 0x400034 + n * 0x1000
/-- IGL_Lnn_SYNC_ERR. -/
def rIglLSyncErr (n : Nat) : Nat := 0x400038 + n * 0x1000
/-- IGL_Lnn_LINES. -/
def rIglLLines (n : Nat) : Nat := 0x40003C + n * 0x1000
/-- IGL_Lnn_LINE_INC. -/
def rIglLLineInc (n : Nat) : Nat := 0x400040 + n * 0x1000
/-- IGL_Lnn_MATCH. -/
def rIglLMatch (n : Nat) : Nat := 0x400044 + n * 0x1000
/-- IGL_Lnn_RT. -/
def rIglLRt (n : Nat) : Nat := 0x400048 + n * 0x1000
/-- IGL_Lnn_WINDOW. -/
def rIglLWindow (n : Nat) : Nat := 0x40004C + n * 0x1000
/-- IGL_Lnn_MG_CTRL. -/
def rIglLMgCtrl (n : Nat) : Nat := 0x400050 + n * 0x1000
/-- IGL_Lnn_MG_TX. -/
def rIglLMgTx (n : Nat) : Nat := 0x400054 + n * 0x1000
/-- IGL_Lnn_MG_RX. -/
def rIglLMgRx (n : Nat) : Nat := 0x400058 + n * 0x1000
/-- IGL_Lnn_EQ. -/
def rIglLEq (n : Nat) : Nat := 0x40005C + n * 0x1000
/-- IGL_Lnn_DUP. -/
def rIglLDup (n : Nat) : Nat := 0x400060 + n * 0x1000

/-- Rows of the IGL registers, part 0. -/
def regsIgl0 : List RSpec := [
  ⟨0x400000, [(0x1000, 32)], 0x10, false, [⟨31, 31, .w1s, .l, []⟩, ⟨14, 12, .rw, .s, [(0, 6)]⟩, ⟨9, 8, .rw, .s, [(0, 2)]⟩, ⟨4, 4, .rw, .s, []⟩, ⟨3, 3, .rw, .s, []⟩, ⟨1, 0, .rw, .s, [(0, 2)]⟩]⟩,
  ⟨0x400004, [(0x1000, 32)], 0x1000, false, [⟨28, 24, .rw, .s, []⟩, ⟨23, 21, .rw, .s, []⟩, ⟨20, 18, .rw, .s, []⟩, ⟨17, 16, .rw, .s, []⟩, ⟨15, 8, .rw, .s, [(8, 8), (10, 10), (12, 12), (14, 14), (16, 16)]⟩]⟩,
  ⟨0x400008, [(0x1000, 32)], 0x0, false, [⟨16, 0, .rw, .s, [(1, 32768)]⟩]⟩,
  ⟨0x40000C, [(0x1000, 32)], 0x10140600, false, [⟨31, 24, .rw, .s, [(1, 64)]⟩, ⟨23, 16, .rw, .s, [(1, 255)]⟩, ⟨15, 8, .rw, .s, [(2, 255)]⟩]⟩,
  ⟨0x400010, [(0x1000, 32)], 0x3E80000, false, [⟨31, 16, .rw, .s, [(10, 65535)]⟩, ⟨15, 0, .rw, .s, []⟩]⟩,
  ⟨0x400014, [(0x1000, 32)], 0x0, false, [⟨15, 8, .ro, .l, []⟩, ⟨2, 0, .ro, .l, []⟩]⟩,
  ⟨0x400018, [(0x1000, 32)], 0x0, false, [⟨31, 0, .ro, .l, []⟩]⟩,
  ⟨0x40001C, [(0x1000, 32)], 0x0, false, [⟨31, 16, .ro, .l, []⟩, ⟨15, 0, .ro, .l, []⟩]⟩,
  ⟨0x400020, [(0x1000, 32)], 0x0, false, [⟨8, 8, .w1c, .l, []⟩, ⟨7, 7, .w1c, .l, []⟩, ⟨6, 6, .w1c, .l, []⟩, ⟨5, 5, .w1c, .l, []⟩, ⟨4, 4, .w1c, .l, []⟩, ⟨3, 3, .w1c, .l, []⟩, ⟨2, 2, .w1c, .l, []⟩, ⟨1, 1, .w1c, .l, []⟩, ⟨0, 0, .w1c, .l, []⟩]⟩,
  ⟨0x400024, [(0x1000, 32)], 0x0, false, [⟨31, 0, .ro, .l, []⟩]⟩,
  ⟨0x400028, [(0x1000, 32)], 0x0, false, [⟨31, 0, .ro, .l, []⟩]⟩,
  ⟨0x40002C, [(0x1000, 32)], 0x0, false, [⟨31, 0, .ro, .l, []⟩]⟩,
  ⟨0x400030, [(0x1000, 32)], 0x0, false, [⟨31, 0, .ro, .l, []⟩]⟩,
  ⟨0x400034, [(0x1000, 32)], 0x0, false, [⟨31, 0, .ro, .l, []⟩]⟩,
  ⟨0x400038, [(0x1000, 32)], 0x0, false, [⟨31, 0, .ro, .l, []⟩]⟩,
  ⟨0x40003C, [(0x1000, 32)], 0x0, false, [⟨31, 0, .ro, .l, []⟩]⟩,
  ⟨0x400040, [(0x1000, 32)], 0x0, false, [⟨31, 0, .ro, .l, []⟩]⟩,
  ⟨0x400044, [(0x1000, 32)], 0x0, false, [⟨31, 16, .ro, .l, []⟩, ⟨15, 0, .ro, .l, []⟩]⟩,
  ⟨0x400048, [(0x1000, 32)], 0x0, false, [⟨31, 16, .ro, .l, []⟩, ⟨15, 0, .ro, .l, []⟩]⟩,
  ⟨0x40004C, [(0x1000, 32)], 0x0, false, [⟨31, 16, .ro, .l, []⟩, ⟨6, 0, .ro, .l, []⟩]⟩,
  ⟨0x400050, [(0x1000, 32)], 0x0, false, [⟨31, 31, .w1s, .l, []⟩, ⟨30, 30, .w1s, .l, []⟩, ⟨29, 29, .ro, .l, []⟩, ⟨28, 28, .ro, .l, []⟩, ⟨24, 16, .ro, .l, []⟩, ⟨6, 0, .rw, .l, [(1, 64)]⟩]⟩,
  ⟨0x400054, [(0x1000, 32)], 0x0, false, [⟨31, 0, .wo, .l, []⟩]⟩,
  ⟨0x400058, [(0x1000, 32)], 0x0, false, [⟨31, 0, .ro, .l, []⟩]⟩,
  ⟨0x40005C, [(0x1000, 32)], 0x0, false, [⟨15, 8, .ro, .l, []⟩, ⟨7, 0, .ro, .l, []⟩]⟩]

/-- Rows of the IGL registers, part 1. -/
def regsIgl1 : List RSpec := [
  ⟨0x400060, [(0x1000, 32)], 0x0, false, [⟨31, 0, .ro, .l, []⟩]⟩]

/-- Rows of the IGL registers. -/
def regsIgl : List RSpec := regsIgl0 ++ regsIgl1

/-- LCU_Snn_CTRL. -/
def rLcuSCtrl (n : Nat) : Nat := 0x500000 + n * 0x1000
/-- LCU_Snn_OUTW. -/
def rLcuSOutw (n : Nat) : Nat := 0x500004 + n * 0x1000
/-- LCU_Snn_STITCH_L. -/
def rLcuSStitchL (n : Nat) : Nat := 0x500008 + n * 0x1000
/-- LCU_Snn_STITCH_R. -/
def rLcuSStitchR (n : Nat) : Nat := 0x50000C + n * 0x1000
/-- LCU_Snn_PHOFS01. -/
def rLcuSPhofs01 (n : Nat) : Nat := 0x500010 + n * 0x1000
/-- LCU_Snn_PHOFS23. -/
def rLcuSPhofs23 (n : Nat) : Nat := 0x500014 + n * 0x1000
/-- LCU_Snn_RING. -/
def rLcuSRing (n : Nat) : Nat := 0x500018 + n * 0x1000
/-- LCU_Snn_RLINES. -/
def rLcuSRlines (n : Nat) : Nat := 0x50001C + n * 0x1000
/-- LCU_Snn_STATUS. -/
def rLcuSStatus (n : Nat) : Nat := 0x500020 + n * 0x1000
/-- LCU_Snn_EVT. -/
def rLcuSEvt (n : Nat) : Nat := 0x500024 + n * 0x1000
/-- LCU_Snn_LINES. -/
def rLcuSLines (n : Nat) : Nat := 0x500028 + n * 0x1000
/-- LCU_Snn_FAULTS. -/
def rLcuSFaults (n : Nat) : Nat := 0x50002C + n * 0x1000

/-- Rows of the LCU registers, part 0. -/
def regsLcu0 : List RSpec := [
  ⟨0x500000, [(0x1000, 32)], 0xA000000, false, [⟨31, 24, .rw, .s, [(1, 20)]⟩, ⟨23, 20, .rw, .s, []⟩, ⟨17, 16, .rw, .s, [(0, 1)]⟩, ⟨15, 14, .rw, .s, [(0, 2)]⟩, ⟨13, 13, .rw, .s, []⟩, ⟨12, 12, .rw, .s, []⟩, ⟨11, 11, .rw, .s, []⟩, ⟨0, 0, .rw, .s, []⟩]⟩,
  ⟨0x500004, [(0x1000, 32)], 0x0, false, [⟨31, 16, .rw, .s, [(1, 32768)]⟩, ⟨15, 0, .rw, .s, [(1, 32768)]⟩]⟩,
  ⟨0x500008, [(0x1000, 32)], 0x0, false, [⟨31, 31, .rw, .s, []⟩, ⟨30, 22, .rw, .s, []⟩, ⟨21, 17, .rw, .s, []⟩, ⟨10, 0, .rw, .s, [(1, 1024)]⟩]⟩,
  ⟨0x50000C, [(0x1000, 32)], 0x0, false, [⟨31, 31, .rw, .s, []⟩, ⟨30, 22, .rw, .s, []⟩, ⟨21, 17, .rw, .s, []⟩]⟩,
  ⟨0x500010, [(0x1000, 32)], 0x0, false, [⟨31, 16, .rw, .f, []⟩, ⟨15, 0, .rw, .f, []⟩]⟩,
  ⟨0x500014, [(0x1000, 32)], 0x0, false, [⟨31, 16, .rw, .f, []⟩, ⟨15, 0, .rw, .f, []⟩]⟩,
  ⟨0x500018, [(0x1000, 32)], 0x0, false, [⟨31, 29, .rw, .s, []⟩, ⟨16, 0, .rw, .s, []⟩]⟩,
  ⟨0x50001C, [(0x1000, 32)], 0x4000000, false, [⟨31, 24, .rw, .s, [(1, 255)]⟩, ⟨15, 0, .rw, .s, [(1, 65535)]⟩]⟩,
  ⟨0x500020, [(0x1000, 32)], 0x0, false, [⟨9, 9, .ro, .l, []⟩, ⟨8, 8, .ro, .l, []⟩, ⟨1, 0, .ro, .l, []⟩]⟩,
  ⟨0x500024, [(0x1000, 32)], 0x0, false, [⟨6, 6, .w1c, .l, []⟩, ⟨5, 5, .w1c, .l, []⟩, ⟨4, 4, .w1c, .l, []⟩, ⟨3, 3, .w1c, .l, []⟩, ⟨2, 2, .w1c, .l, []⟩, ⟨1, 1, .w1c, .l, []⟩, ⟨0, 0, .w1c, .l, []⟩]⟩,
  ⟨0x500028, [(0x1000, 32)], 0x0, false, [⟨31, 0, .ro, .l, []⟩]⟩,
  ⟨0x50002C, [(0x1000, 32)], 0x0, false, [⟨31, 16, .ro, .l, []⟩, ⟨15, 0, .ro, .l, []⟩]⟩]

/-- Rows of the LCU registers. -/
def regsLcu : List RSpec := regsLcu0

/-- TILE_CTRL. -/
def rTileCtrl (t : Nat) : Nat := 0x1000000 + t * 0x1000
/-- TILE_STATUS. -/
def rTileStatus (t : Nat) : Nat := 0x1000004 + t * 0x1000
/-- TILE_MAP. -/
def rTileMap (t : Nat) : Nat := 0x1000008 + t * 0x1000
/-- TILE_NET. -/
def rTileNet (t : Nat) : Nat := 0x100000C + t * 0x1000
/-- TILE_FAULT. -/
def rTileFault (t : Nat) : Nat := 0x1000010 + t * 0x1000
/-- TILE_FAULT_CYC. -/
def rTileFaultCyc (t : Nat) : Nat := 0x1000014 + t * 0x1000
/-- TILE_FAULT_FRM. -/
def rTileFaultFrm (t : Nat) : Nat := 0x1000018 + t * 0x1000
/-- TILE_EVT. -/
def rTileEvt (t : Nat) : Nat := 0x100001C + t * 0x1000
/-- TILE_FRAMES. -/
def rTileFrames (t : Nat) : Nat := 0x1000020 + t * 0x1000
/-- TILE_LASTCYC. -/
def rTileLastcyc (t : Nat) : Nat := 0x1000024 + t * 0x1000
/-- TILE_FREE. -/
def rTileFree (t : Nat) : Nat := 0x1000028 + t * 0x1000
/-- TILE_QHWM. -/
def rTileQhwm (t : Nat) : Nat := 0x100002C + t * 0x1000
/-- TILE_OUTQ. -/
def rTileOutq (t : Nat) : Nat := 0x1000030 + t * 0x1000
/-- TILE_ECC. -/
def rTileEcc (t : Nat) : Nat := 0x1000034 + t * 0x1000
/-- TILE_ECC_ADDR. -/
def rTileEccAddr (t : Nat) : Nat := 0x1000038 + t * 0x1000
/-- TILE_SCRUB. -/
def rTileScrub (t : Nat) : Nat := 0x100003C + t * 0x1000

/-- Rows of the TILE registers, part 0. -/
def regsTile0 : List RSpec := [
  ⟨0x1000000, [(0x1000, 272)], 0x42, false, [⟨7, 4, .rw, .l, []⟩, ⟨3, 3, .w1s, .l, []⟩, ⟨2, 2, .w1s, .l, []⟩, ⟨1, 1, .rw, .l, []⟩, ⟨0, 0, .rw, .s, []⟩]⟩,
  ⟨0x1000004, [(0x1000, 272)], 0x0, false, [⟨26, 16, .ro, .l, []⟩, ⟨13, 12, .ro, .l, []⟩, ⟨10, 8, .ro, .l, []⟩, ⟨2, 0, .ro, .l, []⟩]⟩,
  ⟨0x1000008, [(0x1000, 272)], 0x0, false, [⟨31, 31, .ro, .l, []⟩, ⟨30, 30, .ro, .l, []⟩, ⟨29, 29, .ro, .l, []⟩, ⟨23, 20, .ro, .l, []⟩, ⟨19, 16, .ro, .l, []⟩, ⟨12, 8, .ro, .l, []⟩, ⟨3, 0, .ro, .l, []⟩]⟩,
  ⟨0x100000C, [(0x1000, 272)], 0x0, false, [⟨9, 0, .rw, .s, [(0, 512)]⟩]⟩,
  ⟨0x1000010, [(0x1000, 272)], 0x0, false, [⟨31, 28, .ro, .l, []⟩, ⟨27, 27, .ro, .l, []⟩, ⟨26, 24, .ro, .l, []⟩, ⟨23, 16, .ro, .l, []⟩, ⟨10, 0, .ro, .l, []⟩]⟩,
  ⟨0x1000014, [(0x1000, 272)], 0x0, false, [⟨31, 30, .ro, .l, []⟩, ⟨29, 24, .ro, .l, []⟩, ⟨23, 0, .ro, .l, []⟩]⟩,
  ⟨0x1000018, [(0x1000, 272)], 0x0, false, [⟨31, 0, .ro, .l, []⟩]⟩,
  ⟨0x100001C, [(0x1000, 272)], 0x0, false, [⟨4, 4, .w1c, .l, []⟩, ⟨3, 3, .w1c, .l, []⟩, ⟨2, 2, .w1c, .l, []⟩, ⟨1, 1, .w1c, .l, []⟩, ⟨0, 0, .w1c, .l, []⟩]⟩,
  ⟨0x1000020, [(0x1000, 272)], 0x0, false, [⟨31, 0, .ro, .l, []⟩]⟩,
  ⟨0x1000024, [(0x1000, 272)], 0x0, false, [⟨23, 0, .ro, .l, []⟩]⟩,
  ⟨0x1000028, [(0x1000, 272)], 0x0, false, [⟨23, 0, .ro, .l, []⟩]⟩,
  ⟨0x100002C, [(0x1000, 272)], 0x0, false, [⟨31, 26, .ro, .l, []⟩, ⟨25, 21, .ro, .l, []⟩, ⟨20, 18, .ro, .l, []⟩, ⟨15, 12, .ro, .l, []⟩, ⟨11, 8, .ro, .l, []⟩, ⟨7, 4, .ro, .l, []⟩, ⟨3, 0, .ro, .l, []⟩]⟩,
  ⟨0x1000030, [(0x1000, 272)], 0x0, false, [⟨31, 16, .ro, .l, []⟩, ⟨15, 0, .ro, .l, []⟩]⟩,
  ⟨0x1000034, [(0x1000, 272)], 0x0, false, [⟨31, 16, .ro, .l, []⟩, ⟨15, 0, .ro, .l, []⟩]⟩,
  ⟨0x1000038, [(0x1000, 272)], 0x0, false, [⟨29, 16, .ro, .l, []⟩, ⟨13, 0, .ro, .l, []⟩]⟩,
  ⟨0x100003C, [(0x1000, 272)], 0x0, false, [⟨31, 16, .ro, .l, []⟩, ⟨13, 0, .ro, .l, []⟩]⟩]

/-- Rows of the TILE registers. -/
def regsTile : List RSpec := regsTile0

/-- PSQ_FRM_STATUS. -/
def rPsqFrmStatus : Nat := 0x20400
/-- PSQ_FRM_NEXT_LO. -/
def rPsqFrmNextLo : Nat := 0x20404
/-- PSQ_FRM_NEXT_HI. -/
def rPsqFrmNextHi : Nat := 0x20408
/-- PSQ_FRM_DISP. -/
def rPsqFrmDisp : Nat := 0x2040C
/-- PSQ_FRM_LATE. -/
def rPsqFrmLate : Nat := 0x20410
/-- PSQ_FRM_DROP. -/
def rPsqFrmDrop : Nat := 0x20414
/-- PSQ_FRM_OVSP. -/
def rPsqFrmOvsp : Nat := 0x20418
/-- PSQ_FRM_SWITCH. -/
def rPsqFrmSwitch : Nat := 0x2041C
/-- PSQ_FRM_PAIR. -/
def rPsqFrmPair : Nat := 0x20420
/-- PSQ_FRM_TWIN. -/
def rPsqFrmTwin : Nat := 0x20424
/-- PSQ_FRM_DLY. -/
def rPsqFrmDly : Nat := 0x20428
/-- PSQ_FRM_EVT. -/
def rPsqFrmEvt : Nat := 0x2042C
/-- PSQ_ARR_SET. -/
def rPsqArrSet : Nat := 0x20480
/-- PSQ_ARR_HALT. -/
def rPsqArrHalt : Nat := 0x20484
/-- PSQ_ARR_FIRST. -/
def rPsqArrFirst : Nat := 0x20488
/-- PSQ_ARR_FIRST_FRM. -/
def rPsqArrFirstFrm : Nat := 0x2048C
/-- PSQ_STATUS. -/
def rPsqStatus : Nat := 0x20000
/-- PSQ_CS_ERR. -/
def rPsqCsErr : Nat := 0x20004
/-- PSQ_EVT. -/
def rPsqEvt : Nat := 0x20008
/-- PSQ_TOt. -/
def rPsqTo (t : Nat) : Nat := 0x2000C + t * 0x4
/-- PSQ_CXc_CTRL. -/
def rPsqCxCtrl (c : Nat) : Nat := 0x20020 + c * 0x20
/-- PSQ_CXc_STATUS. -/
def rPsqCxStatus (c : Nat) : Nat := 0x20024 + c * 0x20
/-- PSQ_CXc_FLAGS. -/
def rPsqCxFlags (c : Nat) : Nat := 0x20028 + c * 0x20
/-- PSQ_CXc_CAP_LO. -/
def rPsqCxCapLo (c : Nat) : Nat := 0x2002C + c * 0x20
/-- PSQ_CXc_CAP_HI. -/
def rPsqCxCapHi (c : Nat) : Nat := 0x20030 + c * 0x20
/-- PSQ_CNTn. -/
def rPsqCnt (n : Nat) : Nat := 0x20080 + n * 0x4
/-- PSQ_CMPn_CTRL. -/
def rPsqCmpCtrl (n : Nat) : Nat := 0x20090 + n * 0x10
/-- PSQ_CMPn_VAL_LO. -/
def rPsqCmpValLo (n : Nat) : Nat := 0x20094 + n * 0x10
/-- PSQ_CMPn_VAL_HI. -/
def rPsqCmpValHi (n : Nat) : Nat := 0x20098 + n * 0x10
/-- PSQ_CMPn_STAT. -/
def rPsqCmpStat (n : Nat) : Nat := 0x2009C + n * 0x10
/-- PSQ_UEVT. -/
def rPsqUevt : Nat := 0x200D0
/-- PSQ_UEVT_CRD_LO. -/
def rPsqUevtCrdLo : Nat := 0x200D4
/-- PSQ_UEVT_CRD_HI. -/
def rPsqUevtCrdHi : Nat := 0x200D8
/-- PSQ_DROPS. -/
def rPsqDrops : Nat := 0x200DC

/-- Rows of the PSQ registers, part 0. -/
def regsPsq0 : List RSpec := [
  ⟨0x20400, [], 0x0, false, [⟨27, 24, .ro, .l, []⟩, ⟨23, 23, .ro, .l, []⟩, ⟨22, 21, .ro, .l, []⟩, ⟨20, 16, .ro, .l, []⟩, ⟨15, 10, .ro, .l, []⟩, ⟨9, 7, .ro, .l, []⟩, ⟨6, 4, .ro, .l, []⟩, ⟨3, 0, .ro, .l, []⟩]⟩,
  ⟨0x20404, [], 0x0, false, [⟨31, 0, .ro, .l, []⟩]⟩,
  ⟨0x20408, [], 0x0, false, [⟨31, 0, .ro, .l, []⟩]⟩,
  ⟨0x2040C, [], 0x0, false, [⟨31, 0, .ro, .l, []⟩]⟩,
  ⟨0x20410, [], 0x0, false, [⟨31, 0, .ro, .l, []⟩]⟩,
  ⟨0x20414, [], 0x0, false, [⟨31, 16, .ro, .l, []⟩, ⟨15, 0, .ro, .l, []⟩]⟩,
  ⟨0x20418, [], 0x0, false, [⟨31, 0, .ro, .l, []⟩]⟩,
  ⟨0x2041C, [], 0x0, false, [⟨31, 16, .ro, .l, []⟩, ⟨15, 0, .ro, .l, []⟩]⟩,
  ⟨0x20420, [], 0x0, false, [⟨31, 16, .ro, .l, []⟩, ⟨15, 0, .ro, .l, []⟩]⟩,
  ⟨0x20424, [], 0x0, false, [⟨31, 16, .ro, .l, []⟩, ⟨15, 0, .ro, .l, []⟩]⟩,
  ⟨0x20428, [], 0x0, false, [⟨31, 0, .ro, .l, []⟩]⟩,
  ⟨0x2042C, [], 0x0, false, [⟨6, 6, .w1c, .l, []⟩, ⟨5, 5, .w1c, .l, []⟩, ⟨4, 4, .w1c, .l, []⟩, ⟨3, 3, .w1c, .l, []⟩, ⟨2, 2, .w1c, .l, []⟩, ⟨1, 1, .w1c, .l, []⟩, ⟨0, 0, .w1c, .l, []⟩]⟩,
  ⟨0x20480, [], 0x0, false, [⟨31, 30, .ro, .l, []⟩, ⟨29, 25, .ro, .l, []⟩, ⟨23, 20, .ro, .l, []⟩, ⟨19, 16, .ro, .l, []⟩, ⟨9, 0, .ro, .l, []⟩]⟩,
  ⟨0x20484, [], 0x0, false, [⟨24, 16, .ro, .l, []⟩, ⟨8, 0, .ro, .l, []⟩]⟩,
  ⟨0x20488, [], 0x0, false, [⟨31, 28, .ro, .l, []⟩, ⟨27, 19, .ro, .l, []⟩, ⟨18, 15, .ro, .l, []⟩, ⟨14, 11, .ro, .l, []⟩, ⟨0, 0, .w1c, .l, []⟩]⟩,
  ⟨0x2048C, [], 0x0, false, [⟨31, 0, .ro, .l, []⟩]⟩,
  ⟨0x20000, [], 0x0, false, [⟨31, 16, .ro, .l, []⟩, ⟨9, 9, .ro, .l, []⟩, ⟨8, 8, .ro, .l, []⟩, ⟨0, 0, .ro, .l, []⟩]⟩,
  ⟨0x20004, [], 0x0, false, [⟨31, 28, .ro, .l, []⟩, ⟨12, 0, .ro, .l, []⟩]⟩,
  ⟨0x20008, [], 0x0, false, [⟨5, 5, .w1c, .l, []⟩, ⟨4, 4, .w1c, .l, []⟩, ⟨3, 3, .w1c, .l, []⟩, ⟨2, 2, .w1c, .l, []⟩, ⟨1, 1, .w1c, .l, []⟩, ⟨0, 0, .w1c, .l, []⟩]⟩,
  ⟨0x2000C, [(0x4, 3)], 0x0, false, [⟨31, 0, .rw, .l, []⟩]⟩,
  ⟨0x20020, [(0x20, 2)], 0x0, false, [⟨31, 31, .w1s, .l, []⟩, ⟨4, 1, .rw, .s, []⟩, ⟨0, 0, .rw, .s, []⟩]⟩,
  ⟨0x20024, [(0x20, 2)], 0x0, false, [⟨31, 28, .ro, .l, []⟩, ⟨18, 16, .ro, .l, []⟩, ⟨15, 14, .ro, .l, []⟩, ⟨9, 0, .ro, .l, []⟩]⟩,
  ⟨0x20028, [(0x20, 2)], 0x0, false, [⟨15, 0, .rw, .l, []⟩]⟩,
  ⟨0x2002C, [(0x20, 2)], 0x0, false, [⟨31, 0, .ro, .l, []⟩]⟩]

/-- Rows of the PSQ registers, part 1. -/
def regsPsq1 : List RSpec := [
  ⟨0x20030, [(0x20, 2)], 0x0, false, [⟨31, 0, .ro, .l, []⟩]⟩,
  ⟨0x20080, [(0x4, 4)], 0x0, false, [⟨31, 0, .ro, .l, []⟩]⟩,
  ⟨0x20090, [(0x10, 4)], 0x0, false, [⟨4, 1, .rw, .s, []⟩, ⟨0, 0, .rw, .s, []⟩]⟩,
  ⟨0x20094, [(0x10, 4)], 0x0, false, [⟨31, 0, .ro, .l, []⟩]⟩,
  ⟨0x20098, [(0x10, 4)], 0x0, false, [⟨31, 0, .ro, .l, []⟩]⟩,
  ⟨0x2009C, [(0x10, 4)], 0x0, false, [⟨0, 0, .ro, .l, []⟩]⟩,
  ⟨0x200D0, [], 0x0, false, [⟨31, 31, .ro, .l, []⟩, ⟨24, 24, .ro, .l, []⟩, ⟨7, 0, .ro, .l, []⟩]⟩,
  ⟨0x200D4, [], 0x0, false, [⟨31, 0, .ro, .l, []⟩]⟩,
  ⟨0x200D8, [], 0x0, false, [⟨31, 0, .ro, .l, []⟩]⟩,
  ⟨0x200DC, [], 0x0, false, [⟨31, 16, .ro, .l, []⟩, ⟨15, 0, .ro, .l, []⟩]⟩]

/-- Rows of the PSQ registers. -/
def regsPsq : List RSpec := regsPsq0 ++ regsPsq1

/-- RES_CTRL. -/
def rResCtrl : Nat := 0x800000
/-- RES_SEQ. -/
def rResSeq : Nat := 0x800004
/-- RES_EVT. -/
def rResEvt : Nat := 0x800008
/-- RES_REC_BASE_LO. -/
def rResRecBaseLo : Nat := 0x800010
/-- RES_REC_BASE_HI. -/
def rResRecBaseHi : Nat := 0x800014
/-- RES_REC_CFG. -/
def rResRecCfg : Nat := 0x800018
/-- RES_REC_PI. -/
def rResRecPi : Nat := 0x80001C
/-- RES_WB_LO. -/
def rResWbLo : Nat := 0x800020
/-- RES_WB_HI. -/
def rResWbHi : Nat := 0x800024
/-- RES_CLIP_BASE_LO. -/
def rResClipBaseLo : Nat := 0x800028
/-- RES_CLIP_BASE_HI. -/
def rResClipBaseHi : Nat := 0x80002C
/-- RES_CLIP_CFG. -/
def rResClipCfg : Nat := 0x800030
/-- RES_CLIP_PI. -/
def rResClipPi : Nat := 0x800034
/-- RES_CNT_REC. -/
def rResCntRec : Nat := 0x800038
/-- RES_CNT_LOSS. -/
def rResCntLoss : Nat := 0x80003C
/-- RES_CNT_CLIP. -/
def rResCntClip : Nat := 0x800040
/-- RES_TOK_TX. -/
def rResTokTx : Nat := 0x800044
/-- RES_TOK_RX. -/
def rResTokRx : Nat := 0x800048
/-- RES_TRK_HOLD. -/
def rResTrkHold : Nat := 0x80004C
/-- RES_MK_EN. -/
def rResMkEn : Nat := 0x800050
/-- RES_MKn_CTRL. -/
def rResMkCtrl (n : Nat) : Nat := 0x800100 + n * 0x20
/-- RES_MKn_OFS_LO. -/
def rResMkOfsLo (n : Nat) : Nat := 0x800104 + n * 0x20
/-- RES_MKn_OFS_HI. -/
def rResMkOfsHi (n : Nat) : Nat := 0x800108 + n * 0x20
/-- RES_MKn_TIME. -/
def rResMkTime (n : Nat) : Nat := 0x80010C + n * 0x20
/-- RES_MKn_MIND. -/
def rResMkMind (n : Nat) : Nat := 0x800110 + n * 0x20
/-- RES_MKn_PEND. -/
def rResMkPend (n : Nat) : Nat := 0x800114 + n * 0x20
/-- RES_MKn_FIRED. -/
def rResMkFired (n : Nat) : Nat := 0x800118 + n * 0x20
/-- RES_MKn_LOSS. -/
def rResMkLoss (n : Nat) : Nat := 0x80011C + n * 0x20

/-- Rows of the RES registers, part 0. -/
def regsRes0 : List RSpec := [
  ⟨0x800000, [], 0x10000000, false, [⟨31, 16, .rw, .s, [(1, 65535)]⟩, ⟨3, 3, .rw, .s, []⟩, ⟨2, 2, .rw, .s, []⟩, ⟨1, 1, .rw, .s, []⟩, ⟨0, 0, .rw, .s, []⟩]⟩,
  ⟨0x800004, [], 0x0, false, [⟨31, 0, .ro, .l, []⟩]⟩,
  ⟨0x800008, [], 0x0, false, [⟨5, 5, .w1c, .l, []⟩, ⟨4, 4, .w1c, .l, []⟩, ⟨3, 3, .w1c, .l, []⟩, ⟨2, 2, .w1c, .l, []⟩, ⟨1, 1, .w1c, .l, []⟩, ⟨0, 0, .w1c, .l, []⟩]⟩,
  ⟨0x800010, [], 0x0, false, [⟨31, 0, .rw, .s, []⟩]⟩,
  ⟨0x800014, [], 0x0, false, [⟨31, 0, .rw, .s, []⟩]⟩,
  ⟨0x800018, [], 0x0, false, [⟨31, 16, .rw, .s, [(1, 65535)]⟩, ⟨15, 8, .rw, .s, []⟩, ⟨4, 0, .rw, .s, [(10, 20)]⟩]⟩,
  ⟨0x80001C, [], 0x0, false, [⟨31, 0, .ro, .l, []⟩]⟩,
  ⟨0x800020, [], 0x0, false, [⟨31, 0, .rw, .s, []⟩]⟩,
  ⟨0x800024, [], 0x0, false, [⟨31, 0, .rw, .s, []⟩]⟩,
  ⟨0x800028, [], 0x0, false, [⟨31, 0, .rw, .s, []⟩]⟩,
  ⟨0x80002C, [], 0x0, false, [⟨31, 0, .rw, .s, []⟩]⟩,
  ⟨0x800030, [], 0x0, false, [⟨31, 16, .rw, .s, []⟩, ⟨15, 8, .rw, .s, [(1, 255)]⟩, ⟨3, 0, .rw, .s, [(0, 8)]⟩]⟩,
  ⟨0x800034, [], 0x0, false, [⟨31, 0, .ro, .l, []⟩]⟩,
  ⟨0x800038, [], 0x0, false, [⟨31, 0, .ro, .l, []⟩]⟩,
  ⟨0x80003C, [], 0x0, false, [⟨31, 16, .ro, .l, []⟩, ⟨15, 0, .ro, .l, []⟩]⟩,
  ⟨0x800040, [], 0x0, false, [⟨31, 16, .ro, .l, []⟩, ⟨15, 0, .ro, .l, []⟩]⟩,
  ⟨0x800044, [], 0x0, false, [⟨31, 0, .ro, .l, []⟩]⟩,
  ⟨0x800048, [], 0x0, false, [⟨31, 0, .ro, .l, []⟩]⟩,
  ⟨0x80004C, [], 0x0, false, [⟨31, 16, .ro, .l, []⟩, ⟨12, 0, .ro, .l, []⟩]⟩,
  ⟨0x800050, [], 0xFF, false, [⟨7, 0, .ro, .l, []⟩]⟩,
  ⟨0x800100, [(0x20, 8)], 0x0, false, [⟨15, 12, .rw, .s, []⟩, ⟨9, 9, .rw, .s, []⟩, ⟨8, 8, .rw, .s, []⟩, ⟨0, 0, .rw, .s, []⟩]⟩,
  ⟨0x800104, [(0x20, 8)], 0x0, false, [⟨31, 0, .rw, .s, []⟩]⟩,
  ⟨0x800108, [(0x20, 8)], 0x0, false, [⟨31, 0, .rw, .s, []⟩]⟩,
  ⟨0x80010C, [(0x20, 8)], 0x0, false, [⟨31, 16, .rw, .s, [(1, 65535)]⟩, ⟨15, 0, .rw, .s, []⟩]⟩]

/-- Rows of the RES registers, part 1. -/
def regsRes1 : List RSpec := [
  ⟨0x800110, [(0x20, 8)], 0x0, false, [⟨31, 0, .rw, .s, []⟩]⟩,
  ⟨0x800114, [(0x20, 8)], 0x0, false, [⟨8, 0, .ro, .l, []⟩]⟩,
  ⟨0x800118, [(0x20, 8)], 0x0, false, [⟨31, 0, .ro, .l, []⟩]⟩,
  ⟨0x80011C, [(0x20, 8)], 0x0, false, [⟨31, 24, .ro, .l, []⟩, ⟨23, 16, .ro, .l, []⟩, ⟨15, 8, .ro, .l, []⟩, ⟨7, 0, .ro, .l, []⟩]⟩]

/-- Rows of the RES registers. -/
def regsRes : List RSpec := regsRes0 ++ regsRes1

/-- FAB_Pp_CTRL. -/
def rFabPCtrl (p : Nat) : Nat := 0x700000 + p * 0x1000
/-- FAB_Pp_STATUS. -/
def rFabPStatus (p : Nat) : Nat := 0x700004 + p * 0x1000
/-- FAB_Pp_EVT. -/
def rFabPEvt (p : Nat) : Nat := 0x700008 + p * 0x1000
/-- FAB_Pp_PEER_LO. -/
def rFabPPeerLo (p : Nat) : Nat := 0x70000C + p * 0x1000
/-- FAB_Pp_PEER_HI. -/
def rFabPPeerHi (p : Nat) : Nat := 0x700010 + p * 0x1000
/-- FAB_Pp_PEER_ADDR. -/
def rFabPPeerAddr (p : Nat) : Nat := 0x700014 + p * 0x1000
/-- FAB_Pp_FEC_CORR. -/
def rFabPFecCorr (p : Nat) : Nat := 0x700018 + p * 0x1000
/-- FAB_Pp_FEC_UNC. -/
def rFabPFecUnc (p : Nat) : Nat := 0x70001C + p * 0x1000
/-- FAB_Pp_BLK_TX. -/
def rFabPBlkTx (p : Nat) : Nat := 0x700020 + p * 0x1000
/-- FAB_Pp_BLK_RX. -/
def rFabPBlkRx (p : Nat) : Nat := 0x700024 + p * 0x1000
/-- FAB_Pp_BLK_BAD. -/
def rFabPBlkBad (p : Nat) : Nat := 0x700028 + p * 0x1000
/-- FAB_Pp_RESEND. -/
def rFabPResend (p : Nat) : Nat := 0x70002C + p * 0x1000
/-- FAB_Pp_LOST. -/
def rFabPLost (p : Nat) : Nat := 0x700030 + p * 0x1000
/-- FAB_Pp_CTL. -/
def rFabPCtl (p : Nat) : Nat := 0x700034 + p * 0x1000
/-- FAB_Pp_CREDIT. -/
def rFabPCredit (p : Nat) : Nat := 0x700038 + p * 0x1000
/-- FAB_Pp_SR. -/
def rFabPSr (p : Nat) : Nat := 0x70003C + p * 0x1000
/-- FAB_Pp_DOWNS. -/
def rFabPDowns (p : Nat) : Nat := 0x700040 + p * 0x1000
/-- FAB_CTRL. -/
def rFabCtrl : Nat := 0x708000
/-- FAB_STATUS. -/
def rFabStatus : Nat := 0x708004
/-- FAB_ROOT_SER_LO. -/
def rFabRootSerLo : Nat := 0x708008
/-- FAB_ROOT_SER_HI. -/
def rFabRootSerHi : Nat := 0x70800C
/-- FAB_MAP_EPOCH. -/
def rFabMapEpoch : Nat := 0x708010
/-- FAB_DEVICES. -/
def rFabDevices : Nat := 0x708014
/-- FAB_EVT. -/
def rFabEvt : Nat := 0x708018
/-- FAB_UNREACH. -/
def rFabUnreach : Nat := 0x70801C
/-- FAB_MSG_INC. -/
def rFabMsgInc : Nat := 0x708020
/-- FAB_ROUTE_BASE. -/
def rFabRouteBase : Nat := 0x708040
/-- FAB_ROUTE_WINi. -/
def rFabRouteWin (i : Nat) : Nat := 0x708044 + i * 0x4
/-- FAB_RA_CMD. -/
def rFabRaCmd : Nat := 0x708080
/-- FAB_RA_ADDR. -/
def rFabRaAddr : Nat := 0x708084
/-- FAB_RA_DATA. -/
def rFabRaData : Nat := 0x708088
/-- FAB_Pp_ASYM. -/
def rFabPAsym (p : Nat) : Nat := 0x700044 + p * 0x1000
/-- FAB_Pp_DELAY. -/
def rFabPDelay (p : Nat) : Nat := 0x700048 + p * 0x1000
/-- FAB_Pp_SYNC. -/
def rFabPSync (p : Nat) : Nat := 0x70004C + p * 0x1000
/-- FAB_FT_LO. -/
def rFabFtLo : Nat := 0x708100
/-- FAB_FT_HI. -/
def rFabFtHi : Nat := 0x708104
/-- FAB_TIME_STATUS. -/
def rFabTimeStatus : Nat := 0x708108
/-- FAB_TIME_FADJ. -/
def rFabTimeFadj : Nat := 0x70810C
/-- FAB_TIME_STEPS. -/
def rFabTimeSteps : Nat := 0x708110
/-- FAB_CWd_ROOT. -/
def rFabCwRoot (d : Nat) : Nat := 0x708120 + d * 0x20
/-- FAB_CWd_RX. -/
def rFabCwRx (d : Nat) : Nat := 0x708124 + d * 0x20
/-- FAB_CWd_SW. -/
def rFabCwSw (d : Nat) : Nat := 0x708128 + d * 0x20
/-- FAB_CWd_SOFS_LO. -/
def rFabCwSofsLo (d : Nat) : Nat := 0x70812C + d * 0x20
/-- FAB_CWd_SOFS_HI. -/
def rFabCwSofsHi (d : Nat) : Nat := 0x708130 + d * 0x20
/-- FAB_CEN_STATUS. -/
def rFabCenStatus : Nat := 0x708400
/-- FAB_CEN_EPOCH_LO. -/
def rFabCenEpochLo : Nat := 0x708404
/-- FAB_CEN_EPOCH_HI. -/
def rFabCenEpochHi : Nat := 0x708408
/-- FAB_CEN_DIGESTi. -/
def rFabCenDigest (i : Nat) : Nat := 0x708410 + i * 0x4
/-- FAB_CEN_ROUND. -/
def rFabCenRound : Nat := 0x708430
/-- FAB_CEN_EVT. -/
def rFabCenEvt : Nat := 0x708434

/-- Rows of the FAB registers, part 0. -/
def regsFab0 : List RSpec := [
  ⟨0x700000, [(0x1000, 4)], 0x0, false, [⟨31, 31, .w1s, .l, []⟩, ⟨5, 4, .rw, .s, [(0, 2)]⟩, ⟨1, 0, .rw, .s, [(0, 2)]⟩]⟩,
  ⟨0x700004, [(0x1000, 4)], 0x0, false, [⟨7, 7, .ro, .l, []⟩, ⟨6, 6, .ro, .l, []⟩, ⟨5, 4, .ro, .l, []⟩, ⟨1, 0, .ro, .l, []⟩]⟩,
  ⟨0x700008, [(0x1000, 4)], 0x0, false, [⟨3, 3, .w1c, .l, []⟩, ⟨2, 2, .w1c, .l, []⟩, ⟨1, 1, .w1c, .l, []⟩, ⟨0, 0, .w1c, .l, []⟩]⟩,
  ⟨0x70000C, [(0x1000, 4)], 0x0, false, [⟨31, 0, .ro, .l, []⟩]⟩,
  ⟨0x700010, [(0x1000, 4)], 0x0, false, [⟨31, 0, .ro, .l, []⟩]⟩,
  ⟨0x700014, [(0x1000, 4)], 0x0, false, [⟨17, 16, .ro, .l, []⟩, ⟨8, 0, .ro, .l, []⟩]⟩,
  ⟨0x700018, [(0x1000, 4)], 0x0, false, [⟨31, 0, .ro, .l, []⟩]⟩,
  ⟨0x70001C, [(0x1000, 4)], 0x0, false, [⟨31, 0, .ro, .l, []⟩]⟩,
  ⟨0x700020, [(0x1000, 4)], 0x0, false, [⟨31, 0, .ro, .l, []⟩]⟩,
  ⟨0x700024, [(0x1000, 4)], 0x0, false, [⟨31, 0, .ro, .l, []⟩]⟩,
  ⟨0x700028, [(0x1000, 4)], 0x0, false, [⟨31, 0, .ro, .l, []⟩]⟩,
  ⟨0x70002C, [(0x1000, 4)], 0x0, false, [⟨31, 16, .ro, .l, []⟩, ⟨15, 0, .ro, .l, []⟩]⟩,
  ⟨0x700030, [(0x1000, 4)], 0x0, false, [⟨31, 16, .ro, .l, []⟩, ⟨15, 0, .ro, .l, []⟩]⟩,
  ⟨0x700034, [(0x1000, 4)], 0x0, false, [⟨31, 16, .ro, .l, []⟩, ⟨15, 0, .ro, .l, []⟩]⟩,
  ⟨0x700038, [(0x1000, 4)], 0x0, false, [⟨31, 25, .ro, .l, []⟩, ⟨24, 16, .ro, .l, []⟩, ⟨15, 8, .ro, .l, []⟩, ⟨7, 0, .ro, .l, []⟩]⟩,
  ⟨0x70003C, [(0x1000, 4)], 0x1E100A00, false, [⟨31, 24, .rw, .s, [(10, 255)]⟩, ⟨23, 16, .rw, .s, [(1, 64)]⟩, ⟨15, 8, .rw, .s, [(1, 255)]⟩]⟩,
  ⟨0x700040, [(0x1000, 4)], 0x0, false, [⟨31, 0, .ro, .l, []⟩]⟩,
  ⟨0x708000, [], 0x80326400, false, [⟨31, 24, .rw, .s, []⟩, ⟨23, 16, .rw, .s, []⟩, ⟨15, 8, .rw, .s, []⟩, ⟨0, 0, .rw, .s, []⟩]⟩,
  ⟨0x708004, [], 0x0, false, [⟨31, 31, .ro, .l, []⟩, ⟨30, 30, .ro, .l, []⟩, ⟨27, 26, .ro, .l, []⟩, ⟨25, 21, .ro, .l, []⟩, ⟨9, 9, .ro, .l, []⟩, ⟨8, 0, .ro, .l, []⟩]⟩,
  ⟨0x708008, [], 0x0, false, [⟨31, 0, .ro, .l, []⟩]⟩,
  ⟨0x70800C, [], 0x0, false, [⟨31, 0, .ro, .l, []⟩]⟩,
  ⟨0x708010, [], 0x0, false, [⟨31, 0, .ro, .l, []⟩]⟩,
  ⟨0x708014, [], 0x0, false, [⟨9, 0, .ro, .l, []⟩]⟩,
  ⟨0x708018, [], 0x0, false, [⟨4, 4, .w1c, .l, []⟩, ⟨3, 3, .w1c, .l, []⟩, ⟨2, 2, .w1c, .l, []⟩, ⟨1, 1, .w1c, .l, []⟩, ⟨0, 0, .w1c, .l, []⟩]⟩]

/-- Rows of the FAB registers, part 1. -/
def regsFab1 : List RSpec := [
  ⟨0x70801C, [], 0x0, false, [⟨31, 0, .ro, .l, []⟩]⟩,
  ⟨0x708020, [], 0x0, false, [⟨31, 0, .ro, .l, []⟩]⟩,
  ⟨0x708040, [], 0x0, false, [⟨8, 0, .rw, .l, []⟩]⟩,
  ⟨0x708044, [(0x4, 8)], 0x0, false, [⟨31, 0, .ro, .l, []⟩]⟩,
  ⟨0x708080, [], 0x0, false, [⟨31, 31, .w1s, .l, []⟩, ⟨30, 30, .ro, .l, []⟩, ⟨29, 29, .rw, .l, []⟩, ⟨28, 28, .rw, .l, []⟩, ⟨11, 9, .ro, .l, []⟩, ⟨8, 0, .rw, .l, []⟩]⟩,
  ⟨0x708084, [], 0x0, false, [⟨31, 0, .rw, .l, []⟩]⟩,
  ⟨0x708088, [], 0x0, false, [⟨31, 0, .rw, .l, []⟩]⟩,
  ⟨0x700044, [(0x1000, 4)], 0x0, false, [⟨31, 0, .rw, .s, []⟩]⟩,
  ⟨0x700048, [(0x1000, 4)], 0x0, false, [⟨31, 0, .ro, .l, []⟩]⟩,
  ⟨0x70004C, [(0x1000, 4)], 0x0, false, [⟨31, 16, .ro, .l, []⟩, ⟨15, 0, .ro, .l, []⟩]⟩,
  ⟨0x708100, [], 0x0, false, [⟨31, 0, .ro, .l, []⟩]⟩,
  ⟨0x708104, [], 0x0, false, [⟨31, 0, .ro, .l, []⟩]⟩,
  ⟨0x708108, [], 0x0, false, [⟨31, 30, .ro, .l, []⟩, ⟨15, 0, .ro, .l, []⟩]⟩,
  ⟨0x70810C, [], 0x0, false, [⟨31, 0, .ro, .l, []⟩]⟩,
  ⟨0x708110, [], 0x0, false, [⟨31, 0, .ro, .l, []⟩]⟩,
  ⟨0x708120, [(0x20, 16)], 0x0, false, [⟨31, 31, .ro, .l, []⟩, ⟨30, 30, .ro, .l, []⟩, ⟨29, 22, .ro, .l, []⟩, ⟨13, 9, .ro, .l, []⟩, ⟨8, 0, .ro, .l, []⟩]⟩,
  ⟨0x708124, [(0x20, 16)], 0x0, false, [⟨31, 0, .ro, .l, []⟩]⟩,
  ⟨0x708128, [(0x20, 16)], 0x0, false, [⟨31, 16, .ro, .l, []⟩, ⟨15, 0, .ro, .l, []⟩]⟩,
  ⟨0x70812C, [(0x20, 16)], 0x0, false, [⟨31, 0, .ro, .l, []⟩]⟩,
  ⟨0x708130, [(0x20, 16)], 0x0, false, [⟨31, 0, .ro, .l, []⟩]⟩,
  ⟨0x708400, [], 0x0, false, [⟨31, 31, .ro, .l, []⟩, ⟨30, 30, .ro, .l, []⟩, ⟨29, 29, .ro, .l, []⟩, ⟨28, 28, .ro, .l, []⟩, ⟨27, 26, .ro, .l, []⟩, ⟨9, 0, .ro, .l, []⟩]⟩,
  ⟨0x708404, [], 0x0, false, [⟨31, 0, .ro, .l, []⟩]⟩,
  ⟨0x708408, [], 0x0, false, [⟨31, 0, .ro, .l, []⟩]⟩,
  ⟨0x708410, [(0x4, 8)], 0x0, false, [⟨31, 0, .ro, .l, []⟩]⟩]

/-- Rows of the FAB registers, part 2. -/
def regsFab2 : List RSpec := [
  ⟨0x708430, [], 0x0, false, [⟨31, 0, .ro, .l, []⟩]⟩,
  ⟨0x708434, [], 0x0, false, [⟨3, 3, .w1c, .l, []⟩, ⟨2, 2, .w1c, .l, []⟩, ⟨1, 1, .w1c, .l, []⟩, ⟨0, 0, .w1c, .l, []⟩]⟩]

/-- Rows of the FAB registers. -/
def regsFab : List RSpec := regsFab0 ++ regsFab1 ++ regsFab2

/-- CCD_CTRL. -/
def rCcdCtrl : Nat := 0x70000
/-- CCD_STATUS. -/
def rCcdStatus : Nat := 0x70004
/-- CCD_PC. -/
def rCcdPc : Nat := 0x70008
/-- CCD_LOCK_PC. -/
def rCcdLockPc : Nat := 0x7000C
/-- CCD_LOCK_CAUSE. -/
def rCcdLockCause : Nat := 0x70010
/-- CCD_CSR_SEL. -/
def rCcdCsrSel : Nat := 0x70014
/-- CCD_CSR_DATA. -/
def rCcdCsrData : Nat := 0x70018

/-- Rows of the CCD registers, part 0. -/
def regsCcd0 : List RSpec := [
  ⟨0x70000, [], 0x0, true, [⟨31, 31, .w1s, .l, []⟩]⟩,
  ⟨0x70004, [], 0x0, false, [⟨3, 3, .ro, .l, []⟩, ⟨2, 0, .ro, .l, []⟩]⟩,
  ⟨0x70008, [], 0x0, false, [⟨31, 0, .ro, .l, []⟩]⟩,
  ⟨0x7000C, [], 0x0, true, [⟨31, 0, .ro, .l, []⟩]⟩,
  ⟨0x70010, [], 0x0, true, [⟨7, 0, .ro, .l, []⟩]⟩,
  ⟨0x70014, [], 0x0, true, [⟨11, 0, .rw, .l, []⟩]⟩,
  ⟨0x70018, [], 0x0, true, [⟨31, 0, .ro, .l, []⟩]⟩]

/-- Rows of the CCD registers. -/
def regsCcd : List RSpec := regsCcd0

/-- MTX_CTRL. -/
def rMtxCtrl : Nat := 0x60000
/-- MTX_STATUS. -/
def rMtxStatus : Nat := 0x60004
/-- MTX_EVT. -/
def rMtxEvt : Nat := 0x60008
/-- MTX_ERR_INFO. -/
def rMtxErrInfo : Nat := 0x6000C
/-- MTX_ERR_ADDR. -/
def rMtxErrAddr : Nat := 0x60010
/-- MTX_Mm_PRIO. -/
def rMtxMPrio (m : Nat) : Nat := 0x60020 + m * 0x4
/-- MTX_Mm_CTRL. -/
def rMtxMCtrl (m : Nat) : Nat := 0x60040 + m * 0x4
/-- MTX_WINw_BASE. -/
def rMtxWinBase (w : Nat) : Nat := 0x60080 + w * 0x10
/-- MTX_WINw_CTRL. -/
def rMtxWinCtrl (w : Nat) : Nat := 0x60084 + w * 0x10
/-- MTX_WINw_TADDR_LO. -/
def rMtxWinTaddrLo (w : Nat) : Nat := 0x60088 + w * 0x10
/-- MTX_WINw_TADDR_HI. -/
def rMtxWinTaddrHi (w : Nat) : Nat := 0x6008C + w * 0x10
/-- MTX_MBX_DB_IN. -/
def rMtxMbxDbIn : Nat := 0x60100
/-- MTX_MBX_DB_INSET. -/
def rMtxMbxDbInset : Nat := 0x60104
/-- MTX_MBX_DB_OUT. -/
def rMtxMbxDbOut : Nat := 0x60108
/-- MTX_MBX_DB_OUTSET. -/
def rMtxMbxDbOutset : Nat := 0x6010C
/-- MTX_MBX_COLL. -/
def rMtxMbxColl : Nat := 0x60110
/-- MTX_SPM_TEST. -/
def rMtxSpmTest : Nat := 0x60120
/-- MTX_SPM_FAIL. -/
def rMtxSpmFail : Nat := 0x60124
/-- MTX_SPM_ECC. -/
def rMtxSpmEcc : Nat := 0x60128
/-- MTX_SPM_ECC_ADDR. -/
def rMtxSpmEccAddr : Nat := 0x6012C
/-- MTX_SPM_WIPE. -/
def rMtxSpmWipe : Nat := 0x60130
/-- MTX_CDC. -/
def rMtxCdc : Nat := 0x60140
/-- MTX_DMAc_SRC. -/
def rMtxDmaSrc (c : Nat) : Nat := 0x60200 + c * 0x10
/-- MTX_DMAc_DST. -/
def rMtxDmaDst (c : Nat) : Nat := 0x60204 + c * 0x10
/-- MTX_DMAc_LEN. -/
def rMtxDmaLen (c : Nat) : Nat := 0x60208 + c * 0x10
/-- MTX_DMAc_CTRL. -/
def rMtxDmaCtrl (c : Nat) : Nat := 0x6020C + c * 0x10

/-- Rows of the MTX registers, part 0. -/
def regsMtx0 : List RSpec := [
  ⟨0x60000, [], 0x641010, false, [⟨31, 16, .rw, .s, [(1, 65535)]⟩, ⟨15, 8, .rw, .s, [(1, 255)]⟩, ⟨7, 0, .rw, .s, [(1, 255)]⟩]⟩,
  ⟨0x60004, [], 0x0, false, [⟨22, 16, .ro, .l, []⟩, ⟨6, 0, .ro, .l, []⟩]⟩,
  ⟨0x60008, [], 0x0, false, [⟨4, 4, .w1c, .l, []⟩, ⟨3, 3, .w1c, .l, []⟩, ⟨2, 2, .w1c, .l, []⟩, ⟨1, 1, .w1c, .l, []⟩, ⟨0, 0, .w1c, .l, []⟩]⟩,
  ⟨0x6000C, [], 0x0, false, [⟨31, 31, .ro, .l, []⟩, ⟨30, 28, .ro, .l, []⟩, ⟨26, 24, .ro, .l, []⟩, ⟨22, 20, .ro, .l, []⟩, ⟨19, 16, .ro, .l, []⟩, ⟨0, 0, .ro, .l, []⟩]⟩,
  ⟨0x60010, [], 0x0, false, [⟨31, 0, .ro, .l, []⟩]⟩,
  ⟨0x60020, [(0x4, 7)], 0x8888888, false, [⟨27, 0, .rw, .l, []⟩]⟩,
  ⟨0x60040, [(0x4, 7)], 0x0, false, [⟨20, 16, .ro, .s, []⟩, ⟨0, 0, .rw, .s, []⟩]⟩,
  ⟨0x60080, [(0x10, 8)], 0x0, false, [⟨31, 16, .rw, .l, []⟩]⟩,
  ⟨0x60084, [(0x10, 8)], 0x0, false, [⟨31, 31, .rw, .l, []⟩, ⟨27, 24, .rw, .l, [(0, 1)]⟩, ⟨23, 21, .rw, .l, []⟩, ⟨20, 16, .rw, .l, [(16, 30)]⟩, ⟨6, 0, .rw, .l, []⟩]⟩,
  ⟨0x60088, [(0x10, 8)], 0x0, false, [⟨31, 0, .rw, .l, []⟩]⟩,
  ⟨0x6008C, [(0x10, 8)], 0x0, false, [⟨31, 0, .rw, .l, []⟩]⟩,
  ⟨0x60100, [], 0x0, false, [⟨31, 0, .w1c, .l, []⟩]⟩,
  ⟨0x60104, [], 0x0, false, [⟨31, 0, .w1s, .l, []⟩]⟩,
  ⟨0x60108, [], 0x0, false, [⟨31, 0, .w1c, .l, []⟩]⟩,
  ⟨0x6010C, [], 0x0, false, [⟨31, 0, .w1s, .l, []⟩]⟩,
  ⟨0x60110, [], 0x0, false, [⟨31, 31, .w1c, .l, []⟩, ⟨27, 12, .ro, .l, []⟩, ⟨9, 0, .ro, .l, []⟩]⟩,
  ⟨0x60120, [], 0x84000000, false, [⟨31, 31, .rw, .l, []⟩, ⟨27, 24, .rw, .l, []⟩, ⟨15, 0, .ro, .l, []⟩]⟩,
  ⟨0x60124, [], 0x0, false, [⟨31, 31, .w1c, .l, []⟩, ⟨20, 6, .ro, .l, []⟩]⟩,
  ⟨0x60128, [], 0x0, false, [⟨31, 16, .ro, .l, []⟩, ⟨15, 0, .ro, .l, []⟩]⟩,
  ⟨0x6012C, [], 0x0, false, [⟨20, 2, .ro, .l, []⟩]⟩,
  ⟨0x60130, [], 0x0, false, [⟨31, 31, .ro, .l, []⟩, ⟨15, 0, .ro, .l, []⟩]⟩,
  ⟨0x60140, [], 0x0, false, [⟨31, 31, .w1c, .l, []⟩, ⟨15, 0, .ro, .l, []⟩]⟩,
  ⟨0x60200, [(0x10, 4)], 0x0, false, [⟨31, 2, .rw, .l, []⟩]⟩,
  ⟨0x60204, [(0x10, 4)], 0x0, false, [⟨31, 2, .rw, .l, []⟩]⟩]

/-- Rows of the MTX registers, part 1. -/
def regsMtx1 : List RSpec := [
  ⟨0x60208, [(0x10, 4)], 0x0, false, [⟨23, 0, .rw, .l, [(4, 16777212)]⟩]⟩,
  ⟨0x6020C, [(0x10, 4)], 0x0, false, [⟨31, 31, .w1s, .l, []⟩, ⟨30, 30, .w1s, .l, []⟩, ⟨29, 29, .ro, .l, []⟩, ⟨28, 28, .w1c, .l, []⟩, ⟨27, 27, .w1c, .l, []⟩]⟩]

/-- Rows of the MTX registers. -/
def regsMtx : List RSpec := regsMtx0 ++ regsMtx1

/-- GDC_Pp_CTRL. -/
def rGdcPCtrl (p : Nat) : Nat := 0x600000 + p * 0x1000
/-- GDC_Pp_STATUS. -/
def rGdcPStatus (p : Nat) : Nat := 0x600004 + p * 0x1000
/-- GDC_Pp_TRAIN. -/
def rGdcPTrain (p : Nat) : Nat := 0x600008 + p * 0x1000
/-- GDC_Pp_EVT. -/
def rGdcPEvt (p : Nat) : Nat := 0x60000C + p * 0x1000
/-- GDC_Pp_WR_RETRY. -/
def rGdcPWrRetry (p : Nat) : Nat := 0x600010 + p * 0x1000
/-- GDC_Pp_RD_RETRY. -/
def rGdcPRdRetry (p : Nat) : Nat := 0x600014 + p * 0x1000
/-- GDC_Pp_RETRY_FAIL. -/
def rGdcPRetryFail (p : Nat) : Nat := 0x600018 + p * 0x1000
/-- GDC_Pp_ODECC_CE. -/
def rGdcPOdeccCe (p : Nat) : Nat := 0x60001C + p * 0x1000
/-- GDC_Pp_ODECC_UE. -/
def rGdcPOdeccUe (p : Nat) : Nat := 0x600020 + p * 0x1000
/-- GDC_Pp_ERR_ADDR_LO. -/
def rGdcPErrAddrLo (p : Nat) : Nat := 0x600024 + p * 0x1000
/-- GDC_Pp_ERR_ADDR_HI. -/
def rGdcPErrAddrHi (p : Nat) : Nat := 0x600028 + p * 0x1000
/-- GDC_Pp_REFRESH. -/
def rGdcPRefresh (p : Nat) : Nat := 0x60002C + p * 0x1000
/-- GDC_Pp_BW_WR. -/
def rGdcPBwWr (p : Nat) : Nat := 0x600030 + p * 0x1000
/-- GDC_Pp_BW_RD. -/
def rGdcPBwRd (p : Nat) : Nat := 0x600034 + p * 0x1000
/-- GDC_Pp_TEMP. -/
def rGdcPTemp (p : Nat) : Nat := 0x600038 + p * 0x1000
/-- GDC_Pp_CAP. -/
def rGdcPCap (p : Nat) : Nat := 0x60003C + p * 0x1000
/-- GDC_Pp_EYEi. -/
def rGdcPEye (p : Nat) (i : Nat) : Nat := 0x600040 + p * 0x1000 + i * 0x4

/-- Rows of the GDC registers, part 0. -/
def regsGdc0 : List RSpec := [
  ⟨0x600000, [(0x1000, 8)], 0x100300, false, [⟨23, 16, .rw, .s, [(1, 255)]⟩, ⟨11, 8, .rw, .s, [(1, 7)]⟩, ⟨5, 4, .rw, .s, [(0, 1)]⟩, ⟨3, 3, .rw, .s, []⟩, ⟨2, 1, .rw, .s, [(0, 2)]⟩, ⟨0, 0, .rw, .s, []⟩]⟩,
  ⟨0x600004, [(0x1000, 8)], 0x0, false, [⟨8, 8, .ro, .l, []⟩, ⟨2, 0, .ro, .l, []⟩]⟩,
  ⟨0x600008, [(0x1000, 8)], 0x0, false, [⟨31, 24, .ro, .l, []⟩, ⟨18, 16, .ro, .l, []⟩, ⟨15, 0, .ro, .l, []⟩]⟩,
  ⟨0x60000C, [(0x1000, 8)], 0x0, false, [⟨3, 3, .w1c, .l, []⟩, ⟨2, 2, .w1c, .l, []⟩, ⟨1, 1, .w1c, .l, []⟩, ⟨0, 0, .w1c, .l, []⟩]⟩,
  ⟨0x600010, [(0x1000, 8)], 0x0, false, [⟨31, 0, .ro, .l, []⟩]⟩,
  ⟨0x600014, [(0x1000, 8)], 0x0, false, [⟨31, 0, .ro, .l, []⟩]⟩,
  ⟨0x600018, [(0x1000, 8)], 0x0, false, [⟨31, 0, .ro, .l, []⟩]⟩,
  ⟨0x60001C, [(0x1000, 8)], 0x0, false, [⟨31, 0, .ro, .l, []⟩]⟩,
  ⟨0x600020, [(0x1000, 8)], 0x0, false, [⟨31, 0, .ro, .l, []⟩]⟩,
  ⟨0x600024, [(0x1000, 8)], 0x0, false, [⟨31, 0, .ro, .l, []⟩]⟩,
  ⟨0x600028, [(0x1000, 8)], 0x0, false, [⟨31, 0, .ro, .l, []⟩]⟩,
  ⟨0x60002C, [(0x1000, 8)], 0x0, false, [⟨31, 16, .ro, .l, []⟩, ⟨15, 0, .ro, .l, []⟩]⟩,
  ⟨0x600030, [(0x1000, 8)], 0x0, false, [⟨31, 0, .ro, .l, []⟩]⟩,
  ⟨0x600034, [(0x1000, 8)], 0x0, false, [⟨31, 0, .ro, .l, []⟩]⟩,
  ⟨0x600038, [(0x1000, 8)], 0x0, false, [⟨7, 0, .ro, .l, []⟩]⟩,
  ⟨0x60003C, [(0x1000, 8)], 0x0, false, [⟨15, 0, .ro, .l, []⟩]⟩,
  ⟨0x600040, [(0x1000, 8), (0x4, 24)], 0x0, false, [⟨15, 8, .ro, .l, []⟩, ⟨7, 0, .ro, .l, []⟩]⟩]

/-- Rows of the GDC registers. -/
def regsGdc : List RSpec := regsGdc0

/-- SYS_ID. -/
def rSysId : Nat := 0x0
/-- SYS_REV. -/
def rSysRev : Nat := 0x4
/-- SYS_GRADE. -/
def rSysGrade : Nat := 0x8
/-- SYS_SERIAL_LO. -/
def rSysSerialLo : Nat := 0xC
/-- SYS_SERIAL_HI. -/
def rSysSerialHi : Nat := 0x10
/-- SYS_STATE. -/
def rSysState : Nat := 0x14
/-- SYS_OUT. -/
def rSysOut : Nat := 0x18
/-- SYS_RESET. -/
def rSysReset : Nat := 0x1C
/-- SYS_T_ARMED. -/
def rSysTArmed : Nat := 0x20
/-- SYS_STARTS. -/
def rSysStarts : Nat := 0x24

/-- Rows of the SYS registers, part 0. -/
def regsSys0 : List RSpec := [
  ⟨0x0, [], 0x4B420600, false, [⟨31, 16, .ro, .l, []⟩, ⟨15, 0, .ro, .l, []⟩]⟩,
  ⟨0x4, [], 0x10, false, [⟨7, 4, .ro, .l, []⟩, ⟨3, 0, .ro, .l, []⟩]⟩,
  ⟨0x8, [], 0x0, false, [⟨5, 4, .ro, .l, []⟩, ⟨1, 0, .ro, .l, []⟩]⟩,
  ⟨0xC, [], 0x0, false, [⟨31, 0, .ro, .l, []⟩]⟩,
  ⟨0x10, [], 0x0, false, [⟨31, 0, .ro, .l, []⟩]⟩,
  ⟨0x14, [], 0x0, false, [⟨23, 20, .ro, .l, []⟩, ⟨7, 4, .ro, .l, []⟩, ⟨3, 0, .ro, .l, []⟩]⟩,
  ⟨0x18, [], 0x0, false, [⟨6, 4, .ro, .l, []⟩, ⟨1, 1, .ro, .l, []⟩, ⟨0, 0, .ro, .l, []⟩]⟩,
  ⟨0x1C, [], 0x0, false, [⟨3, 0, .ro, .l, []⟩]⟩,
  ⟨0x20, [], 0x0, false, [⟨31, 0, .ro, .l, []⟩]⟩,
  ⟨0x24, [], 0x0, false, [⟨31, 0, .ro, .l, []⟩]⟩]

/-- Rows of the SYS registers. -/
def regsSys : List RSpec := regsSys0

/-- CFG_STATUS. -/
def rCfgStatus : Nat := 0x90000
/-- CFG_ERR. -/
def rCfgErr : Nat := 0x90004
/-- CFG_ERR_AUX. -/
def rCfgErrAux : Nat := 0x90008
/-- CFG_IMG_ID_LO. -/
def rCfgImgIdLo : Nat := 0x9000C
/-- CFG_IMG_ID_HI. -/
def rCfgImgIdHi : Nat := 0x90010
/-- CFG_IMG_SVN. -/
def rCfgImgSvn : Nat := 0x90014
/-- CFG_IMG_FMT. -/
def rCfgImgFmt : Nat := 0x90018
/-- CFG_MANIFESTi. -/
def rCfgManifest (i : Nat) : Nat := 0x90020 + i * 0x4
/-- CFG_NVM. -/
def rCfgNvm : Nat := 0x90040
/-- CFG_XSPI_DEV. -/
def rCfgXspiDev : Nat := 0x90044
/-- CFG_EVT. -/
def rCfgEvt : Nat := 0x90048
/-- CFG_SW_ADDR. -/
def rCfgSwAddr : Nat := 0x9004C
/-- CFG_START. -/
def rCfgStart : Nat := 0x90050
/-- CFG_FW_ENTRY. -/
def rCfgFwEntry : Nat := 0x90054

/-- Rows of the CFG registers, part 0. -/
def regsCfg0 : List RSpec := [
  ⟨0x90000, [], 0xFFFF0000, false, [⟨31, 24, .ro, .l, []⟩, ⟨23, 16, .ro, .l, []⟩, ⟨7, 6, .ro, .l, []⟩, ⟨3, 3, .ro, .l, []⟩, ⟨2, 2, .ro, .l, []⟩, ⟨1, 1, .ro, .l, []⟩, ⟨0, 0, .ro, .l, []⟩]⟩,
  ⟨0x90004, [], 0x0, false, [⟨31, 24, .ro, .l, []⟩, ⟨23, 16, .ro, .l, []⟩, ⟨15, 0, .ro, .l, []⟩]⟩,
  ⟨0x90008, [], 0x0, false, [⟨10, 0, .ro, .l, []⟩]⟩,
  ⟨0x9000C, [], 0x0, false, [⟨31, 0, .ro, .l, []⟩]⟩,
  ⟨0x90010, [], 0x0, false, [⟨31, 0, .ro, .l, []⟩]⟩,
  ⟨0x90014, [], 0x0, false, [⟨31, 0, .ro, .l, []⟩]⟩,
  ⟨0x90018, [], 0x0, false, [⟨23, 16, .ro, .l, []⟩, ⟨15, 0, .ro, .l, []⟩]⟩,
  ⟨0x90020, [(0x4, 8)], 0x0, false, [⟨31, 0, .ro, .l, []⟩]⟩,
  ⟨0x90040, [], 0x0, false, [⟨31, 31, .ro, .l, []⟩, ⟨23, 0, .ro, .l, []⟩]⟩,
  ⟨0x90044, [], 0x0, false, [⟨31, 24, .ro, .l, []⟩, ⟨23, 0, .ro, .l, []⟩]⟩,
  ⟨0x90048, [], 0x0, false, [⟨4, 4, .w1c, .l, []⟩, ⟨3, 3, .w1c, .l, []⟩, ⟨2, 2, .w1c, .l, []⟩, ⟨1, 1, .w1c, .l, []⟩, ⟨0, 0, .w1c, .l, []⟩]⟩,
  ⟨0x9004C, [], 0x0, false, [⟨31, 0, .ro, .l, []⟩]⟩,
  ⟨0x90050, [], 0x0, false, [⟨8, 8, .ro, .l, []⟩, ⟨5, 0, .ro, .l, []⟩]⟩,
  ⟨0x90054, [], 0x0, false, [⟨31, 0, .ro, .l, []⟩]⟩]

/-- Rows of the CFG registers. -/
def regsCfg : List RSpec := regsCfg0

/-- SEC_STATUS. -/
def rSecStatus : Nat := 0x50000
/-- SEC_CLAIM. -/
def rSecClaim : Nat := 0x50004
/-- SEC_SVC. -/
def rSecSvc : Nat := 0x50008
/-- SEC_SESS. -/
def rSecSess : Nat := 0x5000C
/-- SEC_SESS_CLOSE. -/
def rSecSessClose : Nat := 0x50010
/-- SEC_CHALi. -/
def rSecChal (i : Nat) : Nat := 0x50020 + i * 0x4
/-- SEC_KEYS. -/
def rSecKeys : Nat := 0x50040
/-- SEC_IMG_FLOOR. -/
def rSecImgFloor : Nat := 0x50044
/-- SEC_PATCH_FLOOR. -/
def rSecPatchFloor : Nat := 0x50048
/-- SEC_COUNTS. -/
def rSecCounts : Nat := 0x5004C
/-- SEC_TMP_EN. -/
def rSecTmpEn : Nat := 0x50050
/-- SEC_SELFTEST. -/
def rSecSelftest : Nat := 0x50054
/-- SEC_NOSESS. -/
def rSecNosess : Nat := 0x50058
/-- SEC_EVT. -/
def rSecEvt : Nat := 0x5005C
/-- SEC_IDPUBi. -/
def rSecIdpub (i : Nat) : Nat := 0x50060 + i * 0x4
/-- SEC_BUF. -/
def rSecBuf (i : Nat) : Nat := 0x58000 + i * 0x4

/-- Rows of the SEC registers, part 0. -/
def regsSec0 : List RSpec := [
  ⟨0x50000, [], 0x0, true, [⟨31, 31, .ro, .l, []⟩, ⟨30, 30, .ro, .l, []⟩, ⟨29, 29, .ro, .l, []⟩, ⟨28, 28, .ro, .l, []⟩, ⟨27, 27, .ro, .l, []⟩, ⟨18, 16, .ro, .l, []⟩, ⟨6, 4, .ro, .l, []⟩, ⟨3, 0, .ro, .l, []⟩]⟩,
  ⟨0x50004, [], 0x0, true, [⟨31, 31, .w1s, .l, []⟩, ⟨30, 30, .w1s, .l, []⟩, ⟨29, 29, .ro, .l, []⟩, ⟨9, 0, .ro, .l, []⟩]⟩,
  ⟨0x50008, [], 0x0, true, [⟨31, 31, .w1s, .l, []⟩, ⟨30, 30, .ro, .l, []⟩, ⟨27, 24, .ro, .l, []⟩, ⟨23, 23, .ro, .l, []⟩, ⟨15, 8, .ro, .l, []⟩]⟩,
  ⟨0x5000C, [], 0xA, true, [⟨31, 31, .ro, .l, []⟩, ⟨27, 26, .ro, .l, []⟩, ⟨19, 16, .ro, .l, []⟩, ⟨7, 0, .rw, .l, [(1, 255)]⟩]⟩,
  ⟨0x50010, [], 0x0, true, [⟨0, 0, .w1s, .l, []⟩]⟩,
  ⟨0x50020, [(0x4, 8)], 0x0, true, [⟨31, 0, .ro, .l, []⟩]⟩,
  ⟨0x50040, [], 0x0, true, [⟨31, 0, .ro, .l, []⟩]⟩,
  ⟨0x50044, [], 0x0, true, [⟨31, 0, .ro, .l, []⟩]⟩,
  ⟨0x50048, [], 0x0, true, [⟨31, 0, .ro, .l, []⟩]⟩,
  ⟨0x5004C, [], 0x0, true, [⟨31, 16, .ro, .l, []⟩, ⟨15, 0, .ro, .l, []⟩]⟩,
  ⟨0x50050, [], 0x0, true, [⟨3, 0, .w1s, .l, []⟩]⟩,
  ⟨0x50054, [], 0x0, true, [⟨8, 8, .ro, .l, []⟩, ⟨7, 7, .ro, .l, []⟩, ⟨6, 6, .ro, .l, []⟩, ⟨5, 5, .ro, .l, []⟩, ⟨4, 4, .ro, .l, []⟩, ⟨3, 3, .ro, .l, []⟩, ⟨2, 2, .ro, .l, []⟩, ⟨1, 1, .ro, .l, []⟩, ⟨0, 0, .ro, .l, []⟩]⟩,
  ⟨0x50058, [], 0x0, true, [⟨31, 0, .ro, .l, []⟩]⟩,
  ⟨0x5005C, [], 0x0, true, [⟨3, 3, .w1c, .l, []⟩, ⟨2, 2, .w1c, .l, []⟩, ⟨1, 1, .w1c, .l, []⟩, ⟨0, 0, .w1c, .l, []⟩]⟩,
  ⟨0x50060, [(0x4, 16)], 0x0, true, [⟨31, 0, .ro, .l, []⟩]⟩,
  ⟨0x58000, [(0x4, 8192)], 0x0, true, [⟨31, 0, .rw, .l, []⟩]⟩]

/-- Rows of the SEC registers. -/
def regsSec : List RSpec := regsSec0

/-- JNL_HEAD_LO. -/
def rJnlHeadLo : Nat := 0x40000
/-- JNL_HEAD_HI. -/
def rJnlHeadHi : Nat := 0x40004
/-- JNL_STATUS. -/
def rJnlStatus : Nat := 0x40008
/-- JNL_EVT. -/
def rJnlEvt : Nat := 0x4000C
/-- JNL_CNT. -/
def rJnlCnt : Nat := 0x40010
/-- JNL_PEAT_DROP. -/
def rJnlPeatDrop : Nat := 0x40014
/-- JNL_CMD_Wi. -/
def rJnlCmdW (i : Nat) : Nat := 0x40100 + i * 0x4
/-- JNL_CMD_STAT. -/
def rJnlCmdStat : Nat := 0x40140
/-- JNL_CMD_SEQ_LO. -/
def rJnlCmdSeqLo : Nat := 0x40144
/-- JNL_CMD_SEQ_HI. -/
def rJnlCmdSeqHi : Nat := 0x40148
/-- JNL_RD_SEL_LO. -/
def rJnlRdSelLo : Nat := 0x40200
/-- JNL_RD_SEL_HI. -/
def rJnlRdSelHi : Nat := 0x40204
/-- JNL_RD_STAT. -/
def rJnlRdStat : Nat := 0x40208
/-- JNL_RD_Wi. -/
def rJnlRdW (i : Nat) : Nat := 0x40240 + i * 0x4
/-- JNL_PEAT_HEAD. -/
def rJnlPeatHead : Nat := 0x40300
/-- JNL_PEAT_PSEQ. -/
def rJnlPeatPseq : Nat := 0x40304
/-- JNL_PEAT_SEL. -/
def rJnlPeatSel : Nat := 0x40308
/-- JNL_PEAT_STAT. -/
def rJnlPeatStat : Nat := 0x4030C
/-- JNL_PEAT_Wi. -/
def rJnlPeatW (i : Nat) : Nat := 0x40320 + i * 0x4
/-- JNL_FRZk_INFO. -/
def rJnlFrzInfo (k : Nat) : Nat := 0x40380 + k * 0x8
/-- JNL_FRZk_PSEQ. -/
def rJnlFrzPseq (k : Nat) : Nat := 0x40384 + k * 0x8
/-- JNL_FRZ_REL. -/
def rJnlFrzRel : Nat := 0x403A0
/-- JNL_FW_STAT. -/
def rJnlFwStat : Nat := 0x40400
/-- JNL_FW_SEQ_LO. -/
def rJnlFwSeqLo : Nat := 0x40404
/-- JNL_FW_SEQ_HI. -/
def rJnlFwSeqHi : Nat := 0x40408
/-- JNL_FW_Wi. -/
def rJnlFwW (i : Nat) : Nat := 0x40440 + i * 0x4
/-- JNL_FW_DONE. -/
def rJnlFwDone : Nat := 0x40480
/-- JNL_FW_ODATA_LO. -/
def rJnlFwOdataLo : Nat := 0x40484
/-- JNL_FW_ODATA_HI. -/
def rJnlFwOdataHi : Nat := 0x40488

/-- Rows of the JNL registers, part 0. -/
def regsJnl0 : List RSpec := [
  ⟨0x40000, [], 0x0, false, [⟨31, 0, .ro, .l, []⟩]⟩,
  ⟨0x40004, [], 0x0, false, [⟨31, 0, .ro, .l, []⟩]⟩,
  ⟨0x40008, [], 0x0, false, [⟨31, 31, .ro, .l, []⟩, ⟨21, 16, .ro, .l, []⟩, ⟨12, 8, .ro, .l, []⟩, ⟨0, 0, .ro, .l, []⟩]⟩,
  ⟨0x4000C, [], 0x0, false, [⟨5, 5, .w1c, .l, []⟩, ⟨4, 4, .w1c, .l, []⟩, ⟨3, 3, .w1c, .l, []⟩, ⟨2, 2, .w1c, .l, []⟩, ⟨1, 1, .w1c, .l, []⟩, ⟨0, 0, .w1c, .l, []⟩]⟩,
  ⟨0x40010, [], 0x0, false, [⟨31, 16, .ro, .l, []⟩, ⟨15, 0, .ro, .l, []⟩]⟩,
  ⟨0x40014, [], 0x0, false, [⟨31, 0, .ro, .l, []⟩]⟩,
  ⟨0x40100, [(0x4, 16)], 0x0, true, [⟨31, 0, .rw, .l, []⟩]⟩,
  ⟨0x40140, [], 0x0, true, [⟨31, 31, .ro, .l, []⟩, ⟨30, 28, .ro, .l, []⟩, ⟨27, 24, .ro, .l, []⟩, ⟨15, 8, .ro, .l, []⟩, ⟨2, 0, .ro, .l, []⟩]⟩,
  ⟨0x40144, [], 0x0, true, [⟨31, 0, .ro, .l, []⟩]⟩,
  ⟨0x40148, [], 0x0, true, [⟨31, 0, .ro, .l, []⟩]⟩,
  ⟨0x40200, [], 0x0, true, [⟨31, 0, .rw, .l, []⟩]⟩,
  ⟨0x40204, [], 0x0, true, [⟨31, 0, .rw, .l, []⟩]⟩,
  ⟨0x40208, [], 0x0, false, [⟨1, 1, .ro, .l, []⟩, ⟨0, 0, .ro, .l, []⟩]⟩,
  ⟨0x40240, [(0x4, 16)], 0x0, false, [⟨31, 0, .ro, .l, []⟩]⟩,
  ⟨0x40300, [], 0x0, false, [⟨17, 0, .ro, .l, []⟩]⟩,
  ⟨0x40304, [], 0x0, false, [⟨31, 0, .ro, .l, []⟩]⟩,
  ⟨0x40308, [], 0x0, true, [⟨17, 0, .rw, .l, []⟩]⟩,
  ⟨0x4030C, [], 0x0, false, [⟨1, 1, .ro, .l, []⟩, ⟨0, 0, .ro, .l, []⟩]⟩,
  ⟨0x40320, [(0x4, 8)], 0x0, false, [⟨31, 0, .ro, .l, []⟩]⟩,
  ⟨0x40380, [(0x8, 4)], 0x0, false, [⟨31, 31, .ro, .l, []⟩, ⟨30, 29, .ro, .l, []⟩, ⟨17, 0, .ro, .l, []⟩]⟩,
  ⟨0x40384, [(0x8, 4)], 0x0, false, [⟨31, 0, .ro, .l, []⟩]⟩,
  ⟨0x403A0, [], 0x0, false, [⟨3, 0, .w1s, .l, []⟩]⟩,
  ⟨0x40400, [], 0x0, false, [⟨31, 31, .ro, .l, []⟩, ⟨7, 0, .ro, .l, []⟩]⟩,
  ⟨0x40404, [], 0x0, false, [⟨31, 0, .ro, .l, []⟩]⟩]

/-- Rows of the JNL registers, part 1. -/
def regsJnl1 : List RSpec := [
  ⟨0x40408, [], 0x0, false, [⟨31, 0, .ro, .l, []⟩]⟩,
  ⟨0x40440, [(0x4, 16)], 0x0, false, [⟨31, 0, .ro, .l, []⟩]⟩,
  ⟨0x40480, [], 0x0, false, [⟨31, 31, .w1s, .l, []⟩, ⟨15, 8, .rw, .l, []⟩, ⟨2, 0, .rw, .l, [(1, 3)]⟩]⟩,
  ⟨0x40484, [], 0x0, false, [⟨31, 0, .rw, .l, []⟩]⟩,
  ⟨0x40488, [], 0x0, false, [⟨31, 0, .rw, .l, []⟩]⟩]

/-- Rows of the JNL registers. -/
def regsJnl : List RSpec := regsJnl0 ++ regsJnl1

/-- ERU_STATUS. -/
def rEruStatus : Nat := 0x30000
/-- ERU_OVF. -/
def rEruOvf : Nat := 0x30004
/-- ERU_CTRL. -/
def rEruCtrl : Nat := 0x30008
/-- ERU_CNTc. -/
def rEruCnt (c : Nat) : Nat := 0x30010 + c * 0x4
/-- ERU_UDROP. -/
def rEruUdrop : Nat := 0x30020
/-- ERU_Si_EVENT. -/
def rEruSEvent (i : Nat) : Nat := 0x30100 + i * 0x20
/-- ERU_Si_SRC. -/
def rEruSSrc (i : Nat) : Nat := 0x30104 + i * 0x20
/-- ERU_Si_DETAIL. -/
def rEruSDetail (i : Nat) : Nat := 0x30108 + i * 0x20
/-- ERU_Si_ADDR_LO. -/
def rEruSAddrLo (i : Nat) : Nat := 0x3010C + i * 0x20
/-- ERU_Si_ADDR_HI. -/
def rEruSAddrHi (i : Nat) : Nat := 0x30110 + i * 0x20
/-- ERU_Si_TIME_LO. -/
def rEruSTimeLo (i : Nat) : Nat := 0x30114 + i * 0x20
/-- ERU_Si_TIME_HI. -/
def rEruSTimeHi (i : Nat) : Nat := 0x30118 + i * 0x20

/-- Rows of the ERU registers, part 0. -/
def regsEru0 : List RSpec := [
  ⟨0x30000, [], 0x0, false, [⟨8, 8, .ro, .l, []⟩, ⟨7, 0, .ro, .l, []⟩]⟩,
  ⟨0x30004, [], 0x0, false, [⟨31, 24, .ro, .l, []⟩, ⟨23, 16, .ro, .l, []⟩, ⟨15, 8, .ro, .l, []⟩, ⟨7, 0, .ro, .l, []⟩]⟩,
  ⟨0x30008, [], 0x3E8, false, [⟨15, 0, .rw, .s, [(10, 65535)]⟩]⟩,
  ⟨0x30010, [(0x4, 4)], 0x0, false, [⟨31, 0, .ro, .l, []⟩]⟩,
  ⟨0x30020, [], 0x0, false, [⟨31, 0, .ro, .l, []⟩]⟩,
  ⟨0x30100, [(0x20, 8)], 0x0, false, [⟨31, 31, .w1c, .l, []⟩, ⟨15, 0, .ro, .l, []⟩]⟩,
  ⟨0x30104, [(0x20, 8)], 0x0, false, [⟨19, 0, .ro, .l, []⟩]⟩,
  ⟨0x30108, [(0x20, 8)], 0x0, false, [⟨31, 0, .ro, .l, []⟩]⟩,
  ⟨0x3010C, [(0x20, 8)], 0x0, false, [⟨31, 0, .ro, .l, []⟩]⟩,
  ⟨0x30110, [(0x20, 8)], 0x0, false, [⟨31, 0, .ro, .l, []⟩]⟩,
  ⟨0x30114, [(0x20, 8)], 0x0, false, [⟨31, 0, .ro, .l, []⟩]⟩,
  ⟨0x30118, [(0x20, 8)], 0x0, false, [⟨31, 0, .ro, .l, []⟩]⟩]

/-- Rows of the ERU registers. -/
def regsEru : List RSpec := regsEru0

/-- PCIE_STATUS. -/
def rPcieStatus : Nat := 0x80000
/-- PCIE_EVT. -/
def rPcieEvt : Nat := 0x80004
/-- PCIE_CTRL. -/
def rPcieCtrl : Nat := 0x80008
/-- PCIE_INB_ERR. -/
def rPcieInbErr : Nat := 0x8000C
/-- PCIE_OUT_ERR. -/
def rPcieOutErr : Nat := 0x80010
/-- PCIE_RST. -/
def rPcieRst : Nat := 0x80014
/-- PCIE_GWIN_CTRL. -/
def rPcieGwinCtrl : Nat := 0x80018
/-- PCIE_GWIN_BASE_LO. -/
def rPcieGwinBaseLo : Nat := 0x8001C
/-- PCIE_GWIN_BASE_HI. -/
def rPcieGwinBaseHi : Nat := 0x80020
/-- PCIE_DB_REC_CI. -/
def rPcieDbRecCi : Nat := 0x81000
/-- PCIE_DB_CLIP_CI. -/
def rPcieDbClipCi : Nat := 0x81004
/-- PCIE_DB_REC_PI. -/
def rPcieDbRecPi : Nat := 0x81008
/-- PCIE_DB_CLIP_PI. -/
def rPcieDbClipPi : Nat := 0x8100C

/-- Rows of the PCIE registers, part 0. -/
def regsPcie0 : List RSpec := [
  ⟨0x80000, [], 0x0, false, [⟨19, 16, .ro, .l, []⟩, ⟨11, 8, .ro, .l, []⟩, ⟨3, 3, .ro, .l, []⟩, ⟨2, 2, .ro, .l, []⟩, ⟨1, 1, .ro, .l, []⟩, ⟨0, 0, .ro, .l, []⟩]⟩,
  ⟨0x80004, [], 0x0, false, [⟨5, 5, .w1c, .l, []⟩, ⟨4, 4, .w1c, .l, []⟩, ⟨3, 3, .w1c, .l, []⟩, ⟨2, 2, .w1c, .l, []⟩, ⟨1, 1, .w1c, .l, []⟩, ⟨0, 0, .w1c, .l, []⟩]⟩,
  ⟨0x80008, [], 0x3200, false, [⟨15, 8, .rw, .s, [(1, 255)]⟩]⟩,
  ⟨0x8000C, [], 0x0, false, [⟨31, 16, .ro, .l, []⟩, ⟨15, 0, .ro, .l, []⟩]⟩,
  ⟨0x80010, [], 0x0, false, [⟨31, 16, .ro, .l, []⟩, ⟨15, 0, .ro, .l, []⟩]⟩,
  ⟨0x80014, [], 0x0, false, [⟨31, 16, .ro, .l, []⟩, ⟨3, 0, .ro, .l, []⟩]⟩,
  ⟨0x80018, [], 0x0, false, [⟨31, 31, .rw, .l, []⟩, ⟨2, 0, .rw, .l, []⟩]⟩,
  ⟨0x8001C, [], 0x0, false, [⟨31, 28, .rw, .l, []⟩]⟩,
  ⟨0x80020, [], 0x0, false, [⟨31, 0, .rw, .l, []⟩]⟩,
  ⟨0x81000, [], 0x0, false, [⟨31, 0, .rw, .l, []⟩]⟩,
  ⟨0x81004, [], 0x0, false, [⟨31, 0, .rw, .l, []⟩]⟩,
  ⟨0x81008, [], 0x0, false, [⟨31, 0, .ro, .l, []⟩]⟩,
  ⟨0x8100C, [], 0x0, false, [⟨31, 0, .ro, .l, []⟩]⟩]

/-- Rows of the PCIE registers. -/
def regsPcie : List RSpec := regsPcie0

/-- CLK_STATUS. -/
def rClkStatus : Nat := 0xB0000
/-- CLK_CTRL. -/
def rClkCtrl : Nat := 0xB0004
/-- CLK_TEMP. -/
def rClkTemp : Nat := 0xB0008
/-- CLK_THERM. -/
def rClkTherm : Nat := 0xB000C
/-- CLK_AVS_CTRL. -/
def rClkAvsCtrl : Nat := 0xB0010
/-- CLK_AVS_STATUS. -/
def rClkAvsStatus : Nat := 0xB0014
/-- CLK_AVS_Vn. -/
def rClkAvsV (n : Nat) : Nat := 0xB0018 + n * 0x4
/-- CLK_MON0. -/
def rClkMon0 : Nat := 0xB0030
/-- CLK_MON1. -/
def rClkMon1 : Nat := 0xB0034
/-- CLK_PWR. -/
def rClkPwr : Nat := 0xB0038
/-- CLK_PMB_ADDR. -/
def rClkPmbAddr : Nat := 0xB003C
/-- CLK_EVT. -/
def rClkEvt : Nat := 0xB0040

/-- Rows of the CLK registers, part 0. -/
def regsClk0 : List RSpec := [
  ⟨0xB0000, [], 0x0, false, [⟨12, 8, .ro, .l, []⟩, ⟨6, 4, .ro, .l, []⟩, ⟨2, 0, .ro, .l, []⟩]⟩,
  ⟨0xB0004, [], 0x0, false, [⟨2, 0, .rw, .l, [(0, 4)]⟩]⟩,
  ⟨0xB0008, [], 0x0, false, [⟨31, 16, .ro, .l, []⟩, ⟨15, 0, .ro, .l, []⟩]⟩,
  ⟨0xB000C, [], 0x0, false, [⟨31, 16, .ro, .l, []⟩, ⟨15, 0, .ro, .l, []⟩]⟩,
  ⟨0xB0010, [], 0x0, false, [⟨7, 7, .rw, .s, []⟩, ⟨6, 0, .rw, .s, []⟩]⟩,
  ⟨0xB0014, [], 0x0, false, [⟨31, 16, .ro, .l, []⟩, ⟨15, 0, .ro, .l, []⟩]⟩,
  ⟨0xB0018, [(0x4, 5)], 0x0, false, [⟨15, 0, .ro, .l, []⟩]⟩,
  ⟨0xB0030, [], 0x0, false, [⟨31, 16, .ro, .l, []⟩, ⟨15, 0, .ro, .l, []⟩]⟩,
  ⟨0xB0034, [], 0x0, false, [⟨31, 16, .ro, .l, []⟩, ⟨15, 0, .ro, .l, []⟩]⟩,
  ⟨0xB0038, [], 0x0, false, [⟨15, 0, .ro, .l, []⟩]⟩,
  ⟨0xB003C, [], 0x0, false, [⟨30, 24, .rw, .s, []⟩, ⟨22, 16, .rw, .s, []⟩, ⟨14, 8, .rw, .s, []⟩, ⟨6, 0, .rw, .s, []⟩]⟩,
  ⟨0xB0040, [], 0x0, false, [⟨4, 4, .w1c, .l, []⟩, ⟨3, 3, .w1c, .l, []⟩, ⟨2, 2, .w1c, .l, []⟩, ⟨1, 1, .w1c, .l, []⟩, ⟨0, 0, .w1c, .l, []⟩]⟩]

/-- Rows of the CLK registers. -/
def regsClk : List RSpec := regsClk0

/-- The rows of the block that holds offset `o`, by the address map of R563. -/
def regRows (o : Nat) : List RSpec :=
  let b := o / 65536
  if b = 0x1 then regsPos else
  if b = 0xA then regsIox else
  if b = 0x2 then regsPsq else
  if b = 0x80 then regsRes else
  if b = 0x7 then regsCcd else
  if b = 0x6 then regsMtx else
  if b = 0x0 then regsSys else
  if b = 0x9 then regsCfg else
  if b = 0x5 then regsSec else
  if b = 0x4 then regsJnl else
  if b = 0x3 then regsEru else
  if b = 0x8 then regsPcie else
  if b = 0xB then regsClk else
  if b = 0x40 ∨ b = 0x41 then regsIgl else
  if b = 0x50 ∨ b = 0x51 then regsLcu else
  if b = 0x60 then regsGdc else
  if b = 0x70 then regsFab else
  if 0x100 ≤ b ∧ b ≤ 0x110 then regsTile else []

/-- The row of the register at offset `o`, when it names one. -/
def regSpec (o : Nat) : Option RSpec :=
  if o % 4 = 0 then (regRows o).find? (·.covers o) else none

/-- The reset value of the register at `o`; offsets without a register read 0. -/
def regReset (o : Nat) : Word :=
  match regSpec o with
  | some r => w32 r.reset
  | none => 0

/-- The _LO registers: a read of one latches its _HI partner at the next word (R70, R553). -/
def loRows : List (Nat × List (Nat × Nat)) := [
  (0x10008, []),
  (0x10108, [(0x80, 16)]),
  (0x10114, [(0x80, 16)]),
  (0x1011C, [(0x80, 16)]),
  (0x10124, [(0x80, 16)]),
  (0x1012C, [(0x80, 16)]),
  (0x10140, [(0x80, 16)]),
  (0x1014C, [(0x80, 16)]),
  (0x11004, [(0x20, 32)]),
  (0x11404, [(0x40, 4)]),
  (0x1140C, [(0x40, 4)]),
  (0x11414, [(0x40, 4)]),
  (0x20404, []),
  (0x2002C, [(0x20, 2)]),
  (0x20094, [(0x10, 4)]),
  (0x200D4, []),
  (0x800010, []),
  (0x800020, []),
  (0x800028, []),
  (0x800104, [(0x20, 8)]),
  (0x70000C, [(0x1000, 4)]),
  (0x708008, []),
  (0x708100, []),
  (0x70812C, [(0x20, 16)]),
  (0x708404, []),
  (0x60088, [(0x10, 8)]),
  (0x600024, [(0x1000, 8)]),
  (0xC, []),
  (0x9000C, []),
  (0x40000, []),
  (0x40144, []),
  (0x40200, []),
  (0x40404, []),
  (0x40484, []),
  (0x3010C, [(0x20, 8)]),
  (0x30114, [(0x20, 8)]),
  (0x8001C, [])]

/-- The register at `o` is the _LO half of a pair. -/
def isLo (o : Nat) : Bool := loRows.any fun r => decide (r.1 ≤ o) && coversDims r.2 (o - r.1)

end Sys2Proof.Machine
end

