-- ==== Sys2Proof/Machine/Access.lean ====
section
/-! DEFINITION. Access to registers, vectors, times and free values of the state. -/
namespace Sys2Proof.Machine

/-- Entry `i` of a vector, or `d` outside it. -/
def atV {α : Type} {n : Nat} (v : Vector α n) (i : Nat) (d : α) : α := v[i]?.getD d

/-- Change entry `i` of a vector; outside it nothing changes. -/
def updV {α : Type} {n : Nat} (v : Vector α n) (i : Nat) (f : α → α) : Vector α n :=
  if h : i < n then v.set i (f v[i]) else v

/-- Replace entry `i` of a vector. -/
def setV {α : Type} {n : Nat} (v : Vector α n) (i : Nat) (x : α) : Vector α n := updV v i fun _ => x

/-- The stored value of the register at offset `o`. -/
def State.reg (s : State) (o : Nat) : Word := smGet regReset s.regs o

/-- Store a register. -/
def State.setReg (s : State) (o : Nat) (w : Word) : State := { s with regs := smPut regReset s.regs o w }

/-- Field of a register. -/
def State.rf (s : State) (o hi lo : Nat) : Nat := bits (s.reg o) hi lo

/-- One bit of a register. -/
def State.rbit (s : State) (o i : Nat) : Bool := bitN (s.reg o).toNat i

/-- Replace a field of a register. -/
def State.setRf (s : State) (o hi lo v : Nat) : State := s.setReg o (putBits (s.reg o) hi lo v)

/-- Set bits of a register: the sticky bits of an event register. -/
def State.orReg (s : State) (o m : Nat) : State := s.setReg o (s.reg o ||| w32 m)

/-- Clear bits of a register. -/
def State.clrReg (s : State) (o m : Nat) : State := s.setReg o (s.reg o &&& ~~~ (w32 m))

/-- Add to a counter field that saturates. -/
def State.addSat (s : State) (o hi lo n : Nat) : State := s.setRf o hi lo (sat (hi + 1 - lo) (s.rf o hi lo + n))

/-- Add to a 32-bit counter that wraps. -/
def State.addWrap (s : State) (o n : Nat) : State := s.setReg o (s.reg o + w32 n)

/-- The 64-bit value of a _LO, _HI pair, the _HI half at `lo + 4`. -/
def State.reg64 (s : State) (lo : Nat) : Nat := (s.reg lo).toNat + 2 ^ 32 * (s.reg (lo + 4)).toNat

/-- The signed 64-bit value of a pair. -/
def State.regS64 (s : State) (lo : Nat) : Int := signed 64 (s.reg64 lo)

/-- Store a 64-bit value into a pair. -/
def State.setReg64 (s : State) (lo n : Nat) : State := (s.setReg lo (w32 n)).setReg (lo + 4) (w32 (n / 2 ^ 32))

/-- TS units of a microsecond, and of a millisecond. -/
def usTs : Nat := 800
def msTs : Nat := 800000

/-- TS units of `n` nanoseconds, rounded down. -/
def nsTs (n : Nat) : Nat := n * 4 / 5

/-- Fabric time in ticks of 0.25 ns; 5 × TS while the time state is FREE (R323). -/
def State.fabricTime (s : State) : Nat :=
  match s.ft.tstate with
  | .free => 5 * s.ts
  | _ => s.ft.ftBase + ((((s.ts - s.ft.tsBase) * 5 : Nat) : Int) * (1000000000 + s.ft.fadj) / 1000000000).toNat

/-- At least `d` TS units have passed since `t`, if there was a `t`. -/
def past (t : Option Nat) (d now : Nat) : Bool :=
  match t with
  | some x => decide (x + d ≤ now)
  | none => true

/-- Put a message on a port. -/
def State.send (s : State) (m : Sent) : State := { s with sent := m :: s.sent }

/-- The next free value, of `k` bits (log 1). -/
def State.freeNat (s : State) (k : Nat) : Nat := (Config.freeBits s.fresh).toNat % 2 ^ k

/-- `k` free bytes. -/
def State.freeBytes (s : State) (k : Nat) : List Byte :=
  (List.range k).map fun i => (Config.freeBits (s.fresh + i)).setWidth 8

/-- Move the counter of free values on. -/
def State.tick (s : State) (k : Nat) : State := { s with fresh := s.fresh + k }

/-- Code of a device state (R25). -/
def DState.code : DState → Nat
  | .boot => 0 | .verify => 1 | .load => 2 | .train => 3 | .armed => 4
  | .running => 5 | .hold => 6 | .faultStop => 7 | .wiped => 8

/-- The device is ARMED or RUNNING. -/
def State.live (s : State) : Bool := s.sys.st = .armed ∨ s.sys.st = .running

/-- What an engine of the processing die does: nothing while the clocks of that die are stopped (R576; DEDUCED, log 125). -/
def State.clocked (s : State) (f : State → Host.Outcome State Fault Refusal) : Host.Outcome State Fault Refusal :=
  if s.clk.shutdown then .next s else f s

/-- Requester identity of R501, as the journal's REQ of R528. -/
def reqId : Requester → Nat
  | .host => 0x200
  | .core | .dma | .bridge => 0x3FF
  | .fabric a => a.toNat

/-- The domain whose coordinate and lock state domain `d` has: the exit domain of an enabled tracked domain (R66, R332), else `d`. -/
def State.rootDom (s : State) (d : Nat) : Nat :=
  if s.rbit (rPosDCtrl d) 0 ∧ s.rf (rPosDCtrl d) 2 1 = 2 then
    match (List.range 4).find? fun t => s.rbit (rPosTtCtrl t) 0 && s.rf (rPosTtCtrl t) 15 12 == d with
    | some t => s.rf (rPosTtCtrl t) 11 8
    | none => ((s.pos.ttCopy.find? fun e => e.1 == d).map (·.2.1)).getD d
  else d

/-- The state of a domain, through its exit domain when it is tracked. -/
def State.dom (s : State) (d : Nat) : Domain := atV s.pos.dom (s.rootDom d) Domain.init
/-- A domain's own record: a tracked domain keeps its own product start (R61). -/
def State.domOwn (s : State) (d : Nat) : Domain := atV s.pos.dom d Domain.init
def State.gen (s : State) (g : Nat) : Gen := atV s.pos.gen g Gen.init
def State.enc (s : State) (n : Nat) : Encoder := atV s.pos.enc n Encoder.init
def State.mkr (s : State) (n : Nat) : MarkOut := atV s.mrk n MarkOut.init
def State.updDom (s : State) (d : Nat) (f : Domain → Domain) : State := { s with pos.dom := updV s.pos.dom d f }

/-- The shadow a standby root's encoder runs (R333), and a change of it. -/
def State.shadowOf (s : State) (d : Nat) : Domain := atV s.pos.shadowDom d Domain.init
def State.updShadow (s : State) (d : Nat) (f : Domain → Domain) : State := { s with pos.shadowDom := updV s.pos.shadowDom d f }
def State.updGen (s : State) (g : Nat) (f : Gen → Gen) : State := { s with pos.gen := updV s.pos.gen g f }
def State.updEnc (s : State) (n : Nat) (f : Encoder → Encoder) : State := { s with pos.enc := updV s.pos.enc n f }
def State.updMkr (s : State) (n : Nat) (f : MarkOut → MarkOut) : State := { s with mrk := updV s.mrk n f }

/-- Fold a state change over the numbers below `n`. -/
def State.each (s : State) (n : Nat) (f : Nat → State → State) : State := (List.range n).foldl (fun s i => f i s) s

/-- Apply a change when a condition holds. -/
def State.when (s : State) (c : Bool) (f : State → State) : State := if c then f s else s

end Sys2Proof.Machine
end

