-- ==== Sys2Proof/Machine/PosCalc.lean ====
section
/-! DEFINITION. Pure calculations of the position timebase: scales, coordinates at a time, line grids, predicted crossings. -/
namespace Sys2Proof.Machine

/-- POS_Dd_CTRL fields. -/
def State.dEn (s : State) (d : Nat) : Bool := s.rbit (rPosDCtrl d) 0
def State.dSource (s : State) (d : Nat) : Nat := s.rf (rPosDCtrl d) 2 1
def State.dStandby (s : State) (d : Nat) : Bool := s.rbit (rPosDCtrl d) 3
def State.dEncSel (s : State) (d : Nat) : Nat := s.rf (rPosDCtrl d) 5 4
def State.dCheckEn (s : State) (d : Nat) : Bool := s.rbit (rPosDCtrl d) 6
def State.dCheckEnc (s : State) (d : Nat) : Nat := s.rf (rPosDCtrl d) 9 8
def State.dPsSrc (s : State) (d : Nat) : Nat := s.rf (rPosDCtrl d) 11 10
def State.dPsGpi (s : State) (d : Nat) : Nat := s.rf (rPosDCtrl d) 15 12
def State.dCheckTol (s : State) (d : Nat) : Nat := s.rf (rPosDCtrl d) 31 16

/-- The encoder a local domain counts on now (R62). -/
def State.dEncNow (s : State) (d : Nat) : Nat := if (s.dom d).onCheck then s.dCheckEnc d else s.dEncSel d

/-- The scale in use, Q32.32 nm per count: CSCALE on the check encoder, SCALE otherwise (R40, R62). -/
def State.dScale (s : State) (d : Nat) : Nat :=
  if (s.dom d).onCheck then s.reg64 (rPosDCscaleLo d) else s.reg64 (rPosDScaleLo d)

/-- IOX_ENCn_CFG.INVERT. -/
def State.encInvert (s : State) (n : Nat) : Bool := s.rbit (rIoxEncCfg n) 2

/-- The count of encoder `n` after INVERT (R40). -/
def State.encCount (s : State) (n : Nat) : Int := if s.encInvert n then -(s.enc n).count else (s.enc n).count

/-- A or B of encoder `n` in receiver fault (R37). -/
def State.encFaulty (s : State) (n : Nat) : Bool := (s.enc n).rxfA || (s.enc n).rxfB

/-- Estimator windows of POS_Dd_EST (R42, R43), in TS units but for the count N_MIN. -/
def State.dNMin (s : State) (d : Nat) : Nat := s.rf (rPosDEst d) 7 0
def State.dTMin (s : State) (d : Nat) : Nat := s.rf (rPosDEst d) 15 8 * 800
def State.dCreepT (s : State) (d : Nat) : Nat := s.rf (rPosDEst d) 23 16 * 8000
def State.dTStop (s : State) (d : Nat) : Nat := s.rf (rPosDEst d) 31 24 * msTs

/-- Coordinate at count `c`: the held base plus floor of the scaled whole count difference (R40). Coordinates are whole integers, read modulo
2^64: the spec says nothing of one that passes the range of R8 (DESIGN CHOICE, log 83). -/
def Domain.coordOf (m : Domain) (scale : Nat) (c : Int) : Int := m.base + (c - m.c0) * (scale : Int) / 2 ^ 32
def State.coordOfCount (s : State) (d : Nat) (c : Int) : Int := (s.dom d).coordOf (s.dScale d) c

/-- The estimator's prediction at time `t` (TS, may be fractional times 1/16 in `t16`): p + v·dt + a·dt²/2. -/
def Domain.predict16 (m : Domain) (t16 : Int) : Int :=
  let dt := t16 - 16 * (m.te : Int)
  m.pe + (m.v * dt * 32 + m.acc * dt * dt) / (2 ^ 32 * 512)

/-- The coordinate on known edges: interpolated between two that enclose `t`, else the oldest (R41). -/
def interpKnown : List (Nat × Int) → Int → Int → Int
  | [], _, dflt => dflt
  | [(_, x)], _, _ => x
  | (t1, x1) :: (t0, x0) :: r, t, dflt =>
    if (t0 : Int) ≤ t then
      if t1 = t0 then x1 else x0 + (x1 - x0) * (t - t0) / ((t1 : Int) - t0)
    else interpKnown ((t0, x0) :: r) t dflt

/-- The coordinate of a domain at time `t` in TS units (R41). -/
def Domain.at (m : Domain) (t : Int) : Int :=
  match m.known with
  | [] => if m.lock = .coast then m.predict16 (16 * t) else m.coord
  | (tn, xn) :: _ =>
    if t ≤ (tn : Int) then interpKnown m.known t m.coord
    else if m.lock = .lost then m.coord
    else if m.lock = .coast then m.predict16 (16 * t)
    else if m.motion = .track then m.predict16 (16 * t)
    else xn
def State.coordAt (s : State) (d : Nat) (t : Int) : Int := (s.dom d).at t

/-- The present coordinate. -/
def State.coordNow (s : State) (d : Nat) : Int := s.coordAt d s.ts

/-- Velocity in µm/s (R42, POS_Dd_VEL): nm per TS times 8 × 10⁸ TS/s ÷ 10³. -/
def Domain.velUm (m : Domain) : Int := m.v * 800000 / 2 ^ 32

/-- POS_TGg_CTRL fields. -/
def State.gEn (s : State) (g : Nat) : Bool := s.rbit (rPosTgCtrl g) 0
def State.gDom (s : State) (g : Nat) : Nat := s.rf (rPosTgCtrl g) 4 1
def State.gOut (s : State) (g : Nat) : Nat := s.rf (rPosTgCtrl g) 8 7
def State.gBall (s : State) (g : Nat) : Nat := s.rf (rPosTgCtrl g) 12 9
def State.gLane (s : State) (g : Nat) : Nat := s.rf (rPosTgCtrl g) 17 13
def State.gNph (s : State) (g : Nat) : Nat := s.rf (rPosTgCtrl g) 19 18 + 1
def State.gDiv1 (s : State) (g : Nat) : Nat := s.rf (rPosTgCtrl g) 23 20 + 1
def State.gHofs (s : State) (g : Nat) : Int := s.regS64 (rPosTgHofsLo g)
def State.gComp (s : State) (g : Nat) : Int := signed 32 (s.reg (rPosTgComp g)).toNat
def State.gWidth (s : State) (g : Nat) : Nat := s.rf (rPosTgPulse g) 15 0
def State.gMinPeriod (s : State) (g : Nat) : Nat := s.rf (rPosTgPulse g) 31 16

def State.dPitch (s : State) (d : Nat) : Nat := (s.reg (rPosDPitch d)).toNat
def State.dGrid (s : State) (d : Nat) : Int := s.regS64 (rPosDGridLo d)

/-- Line position x_k of R44. -/
def State.lineX (s : State) (d : Nat) (k : Int) : Int := s.dGrid d + k * (s.dPitch d : Int)

/-- Target T_k of generator `g` (R45). -/
def State.target (s : State) (g : Nat) (k : Int) : Int := s.lineX (s.gDom g) k + s.gHofs g

/-- Phase index of line `k` (R59). -/
def State.phaseOf (s : State) (g : Nat) (k : Int) : Nat := ((k / (s.gDiv1 g : Int)) % (s.gNph g : Int)).toNat

/-- COMMIT of POS_CTRL in 1/16 TS units (R47). -/
def State.commit16 (s : State) : Int := ((s.rf rPosCtrl 15 0 * 64 / 5 : Nat) : Int)

/-- Least multiple of `m` at or above `k`. -/
def roundUpTo (k : Int) (m : Nat) : Int := -((-k) / (m : Int)) * (m : Int)

/-- The next line of generator `g`: the least line of its divider whose target lies above the high-water mark, above every
committed trigger not cancelled, and not passed over by a skip (R45 to R48). -/
def State.nextLine (s : State) (g : Nat) : Int :=
  let m := s.dom (s.gDom g)
  let top := ((s.gen g).trigs.filter fun t => !t.cancelled).foldl (fun a t => max a t.target) m.hwm
  let pitch : Int := (s.dPitch (s.gDom g) : Int)
  let k0 := if pitch = 0 then 0 else (top - s.dGrid (s.gDom g) - s.gHofs g) / pitch + 1
  let k1 := match (s.gen g).kMin with
    | some k => max k k0
    | none => k0
  roundUpTo k1 (s.gDiv1 g)

/-- Time in 1/16 TS from the newest edge to the crossing of a target `dist` nm ahead, with one Newton step (R47); needs v above 0. -/
def Domain.crossing16 (m : Domain) (dist : Int) : Int :=
  let dt := tdiv (dist * 16 * 2 ^ 32) m.v
  if m.acc = 0 then dt
  else
    let den := 2 * (16 * m.v + m.acc * dt)
    if den = 0 then dt else dt - tdiv (m.acc * dt * dt) den

/-- Predicted time of the crossing of coordinate `x`, 1/16 TS (R47). -/
def Domain.crossTime (m : Domain) (x : Int) : Int := 16 * (m.te : Int) + m.crossing16 (x - m.pe)

/-- Answers of a tracking table (R68). -/
inductive Track where
  | at_ (x : Int)
  | notYet
  | outOfRange
  deriving DecidableEq, Repr

/-- x of sample `i`, counted from the oldest held: the newest less the later deltas. -/
def TrkTable.sample (t : TrkTable) (i : Nat) : Int :=
  t.lastX - ((sumN (t.deltas.take (t.count - 1 - i)) : Nat) : Int)

/-- The tracked coordinate of entry coordinate `e` (R68). -/
def TrkTable.lookup (t : TrkTable) (e : Int) : Track :=
  if t.count = 0 then .notYet
  else if e < t.base then .outOfRange
  else
    let i := ((e - t.base) / 1000000).toNat
    if i + 1 < t.count then
      let x0 := t.sample i
      let x1 := t.sample (i + 1)
      .at_ (x0 + (e - (t.base + (i : Int) * 1000000)) * (x1 - x0) / 1000000)
    else .notYet

/-- The table that serves tracked domain `d`: an enabled one of this device, or the copy of a remote one (R66, R69). -/
def State.trackTable (s : State) (d : Nat) : Option TrkTable :=
  match (List.range 4).find? fun t => s.rbit (rPosTtCtrl t) 0 && s.rf (rPosTtCtrl t) 15 12 == d with
  | some t => some (atV s.pos.tt t TrkTable.init)
  | none => (s.pos.ttCopy.find? fun e => e.1 == d).map (·.2.2)

end Sys2Proof.Machine
end

