-- ==== Sys2Proof/Machine/Recipe.lean ====
section
/-! DEFINITION. Fields of the recipe table (R472), of result rules (R266), of table sets and schedule sets, read from the bytes the
loader keeps; the mapping of virtual columns (R175). -/
namespace Sys2Proof.Machine

/-- `k` bytes at offset `o` of recipe `n`, little-endian. -/
def State.rcp (s : State) (n o k : Nat) : Nat := fieldAt s.img.recipes (640 * n + o) k

def State.rcpValid (s : State) (n : Nat) : Bool := decide (n < 64) && bitN (s.rcp n 0 1) 0
def State.rcpAuto (s : State) (n : Nat) : Bool := bitN (s.rcp n 0 1) 1
def State.rcpMode (s : State) (n : Nat) : Nat := s.rcp n 1 1
def State.rcpSS (s : State) (n : Nat) : Nat := s.rcp n 2 1
def State.rcpTS (s : State) (n : Nat) : Nat := s.rcp n 3 1
def State.rcpFdom (s : State) (n : Nat) : Nat := s.rcp n 4 1 % 16
def State.rcpB (s : State) (n : Nat) : Nat := s.rcp n 5 1
def State.rcpProg (s : State) (n : Nat) : Nat := s.rcp n 6 1 % 4
def State.rcpSlipDrop (s : State) (n : Nat) : Bool := bitN (s.rcp n 7 1) 0
def State.rcpK (s : State) (n : Nat) : Nat := s.rcp n 8 1
def State.rcpThrFloor (s : State) (n : Nat) : Nat := s.rcp n 9 1
def State.rcpFallback (s : State) (n : Nat) : Option Nat := if s.rcp n 10 1 = 0xFF then none else some (s.rcp n 10 1)
def State.rcpTwinWait (s : State) (n : Nat) : Nat := s.rcp n 11 1
def State.rcpSA (s : State) (n : Nat) : Nat := s.rcp n 12 2
def State.rcpBndOfs (s : State) (n : Nat) : Int := signed 64 (s.rcp n 16 8)
def State.rcpVMax (s : State) (n : Nat) : Nat := s.rcp n 24 4
def State.rcpHead (s : State) (n h : Nat) : Bool := bitN (s.rcp n 28 4) h
/-- The start recipe (R474). -/
def State.startRecipe (s : State) : Nat :=
  let l := (List.range 64).filter s.rcpValid
  match l.find? s.rcpAuto with
  | some r => r
  | none => l.headD 0

/-- Lead lanes assigned to the array by recipe `n`. -/
def State.rcpHeads (s : State) (n : Nat) : List Nat := (List.range 32).filter (s.rcpHead n)
/-- OV_V and OV_P of band `b`, 1 to 3. -/
def State.rcpOvV (s : State) (n b : Nat) : Nat := s.rcp n (32 + 4 * (b - 1)) 4
def State.rcpOvP (s : State) (n b : Nat) : Nat := s.rcp n (44 + 2 * (b - 1)) 2
def State.rcpMkofsEn (s : State) (n m : Nat) : Bool := bitN (s.rcp n 50 1) m
def State.rcpMkofs (s : State) (n m : Nat) : Nat := s.rcp n (64 + 8 * m) 8
/-- Recipe constant `i`, 0 to 12, a 128-bit word. -/
def State.rcpConst (s : State) (n i : Nat) : Nat := s.rcp n (128 + 16 * i) 16
/-- `k` bytes at offset `o` of rule `r` of recipe `n` (R266). -/
def State.rule (s : State) (n r o k : Nat) : Nat := s.rcp n (336 + 16 * r + o) k
def State.ruleRdom (s : State) (n r : Nat) : Nat := s.rule n r 0 1 / 16
def State.ruleToken (s : State) (n r : Nat) : Bool := bitN (s.rule n r 0 1) 2
def State.ruleClip (s : State) (n r : Nat) : Bool := bitN (s.rule n r 0 1) 1
def State.ruleExport (s : State) (n r : Nat) : Bool := bitN (s.rule n r 0 1) 0
def State.ruleSevMin (s : State) (n r : Nat) : Nat := s.rule n r 1 1
def State.ruleMkmask (s : State) (n r : Nat) : Nat := s.rule n r 2 1
def State.ruleTokmk (s : State) (n r : Nat) : Nat := s.rule n r 3 1
def State.ruleTokdest (s : State) (n r : Nat) : Nat := s.rule n r 4 2
def State.ruleClipPl (s : State) (n r : Nat) : Nat := s.rule n r 6 1 % 16
def State.ruleClipW (s : State) (n r : Nat) : Nat := s.rule n r 8 2
def State.ruleClipH (s : State) (n r : Nat) : Nat := s.rule n r 10 2
/-- The rule raises nothing: inert (R266). -/
def State.ruleInert (s : State) (n r : Nat) : Bool :=
  !s.ruleExport n r && !s.ruleClip n r && !s.ruleToken n r && s.ruleMkmask n r == 0 && s.ruleTokmk n r == 0

/-- The frame domain of the recipe in force (R474). -/
def State.fdom (s : State) : Option Nat := s.frm.recipe.map s.rcpFdom

/-- Bytes of schedule set `i`, and of table set `i`, of the image loaded. -/
def State.setBytes (s : State) (i : Nat) : List Byte := ((s.img.sets.find? fun d => d.index == i).map (·.data)).getD []
def State.tabBytes (s : State) (i : Nat) : List Byte := ((s.img.tabs.find? fun d => d.index == i).map (·.data)).getD []
def State.hasSet (s : State) (i : Nat) : Bool := s.img.sets.any fun d => d.index == i
def State.hasTab (s : State) (i : Nat) : Bool := s.img.tabs.any fun d => d.index == i

/-- Header fields of a schedule set (R226). -/
def ssCols (b : List Byte) : Nat := fieldAt b 5 1
def ssRows (b : List Byte) : Nat := fieldAt b 6 1
def ssModes (b : List Byte) : Nat := fieldAt b 7 1
def ssP (b : List Byte) : Nat := fieldAt b 8 2
def ssNrec (b : List Byte) : Nat := fieldAt b 10 2
def ssBudget (b : List Byte) (p : Nat) : Nat := fieldAt b (16 + 4 * p) 4
def ssIdx (b : List Byte) : Nat := fieldAt b 40 4
/-- Offset of record `i`. -/
def ssRec (b : List Byte) (i : Nat) : Nat := fieldAt b (ssIdx b + 4 * i) 4

/-- Physical columns that carry virtual columns, in ascending order (R175). -/
def State.mappedCols (s : State) : List Nat :=
  (List.range 17).filter fun c => match s.otp.discol with
    | some d => c != d
    | none => c != 16

/-- The virtual column of a physical column. -/
def State.vcolOf (s : State) (pc : Nat) : Option Nat :=
  let i := s.mappedCols.findIdx fun c => c == pc
  if i < s.mappedCols.length then some i else none

/-- The physical column of a virtual column (R175). -/
def State.pcolOf (s : State) (v : Nat) : Option Nat := s.mappedCols[v]?

/-- Physical tile number of a virtual position (R177). -/
def State.ptile (s : State) (v row : Nat) : Option Nat := (s.pcolOf v).map fun c => c * 16 + row

/-- Bytes of the schedule set in the tiles. -/
def State.arrBytes (s : State) : List Byte := match s.img.arr with
  | some i => s.setBytes i
  | none => []

/-- Width W of a copy in ASSURED (R211, R212): half of the virtual columns the device offers. -/
def State.halfCols (s : State) : Nat := if s.otp.grade = 1 then 6 else 8

/-- The fabric plan (R480): TWIN role, 0 none, 1 primary, 2 secondary, and the serial of the peer. -/
def State.twinRole (s : State) : Nat := fieldAt s.img.plan 2 1
def State.twinPeer (s : State) : Nat := fieldAt s.img.plan 8 8

/-- The cases in which a SET_MODE to `m` is refused with MODE under recipe `r` (R28, R210). -/
def State.modeRefused (s : State) (r m : Nat) : Bool :=
  !bitN (ssModes (s.setBytes (s.rcpSS r))) m || (m == 3 && s.rcpB r != 8) || (m == 4 && decide (s.rcpThrFloor r < 3)) ||
    (m == 2 && s.twinRole == 0)

/-- A SET_MODE that cannot take effect under the recipe `c.1` it meets (R28; log 94). -/
def State.switchRefused (s : State) (c : Nat × Nat) (w : Switch) : Bool := w.isMode && s.modeRefused c.1 w.mode

/-- Recipe and mode after a switch has been applied to those before it (R29, R30). -/
def State.switchTo (s : State) (c : Nat × Nat) (w : Switch) : Nat × Nat :=
  if w.isMode then if s.switchRefused c w then c else (c.1, w.mode) else (w.recipe, s.rcpMode w.recipe)

/-- Recipe and mode of the frame whose first line is `m`: those in force, as changed by every pending switch at or before `m`;
a SET_MODE that its boundary refuses changes nothing (R30, R206, R210). -/
def State.recAt (s : State) (m : Int) : Nat × Nat :=
  s.frm.switches.foldl
    (fun c w => match w.ms with
      | some x => if x ≤ m then s.switchTo c w else c
      | none => c)
    (s.frm.recipe.getD 0, s.frm.mode)

/-- The switch from recipe and mode `a` to `b` is seamless (R207, R210). -/
def State.seamless (s : State) (a b : Nat × Nat) : Bool :=
  let light := fun (m : Nat) => m = 0 || m = 3 || m = 4
  s.rcpSS a.1 == s.rcpSS b.1 && s.rcpFdom a.1 == s.rcpFdom b.1 && (a.2 == b.2 || (light a.2 && light b.2))

/-- A reload stands between the array and the frame whose first line is `m` (R208): one is on its way, or a switch at or before that frame
will need one. -/
def State.reloadAhead (s : State) (m : Int) : Bool :=
  let lines := (s.frm.switches.filterMap (·.ms)).filter fun k => decide (k ≤ m)
  let at_ := fun (k : Int) => s.recAt k
  s.frm.reload.isSome ||
    (lines.foldl (fun (x : (Nat × Nat) × Bool) k => (at_ k, x.2 || !s.seamless x.1 (at_ k))) ((s.frm.recipe.getD 0, s.frm.mode), false)).2

/-- Number of the frame whose first line is `m`. -/
def State.frameOf (s : State) (m : Int) : Int :=
  let b := s.rcpB (s.recAt m).1
  if b = 0 then 0 else m / (b : Int)

/-- Mirror ports: those of USE 2 (R215, R295). -/
def State.mirrorPorts (s : State) : List Nat := (List.range 4).filter fun p => s.rf (rFabPCtrl p) 1 0 == 2

/-- The mode in force, 0xFF when none. -/
def State.modeNow (s : State) : Nat := s.frm.mode

end Sys2Proof.Machine
end

