-- ==== Sys2Proof/Machine/View.lean ====
section
/-! DEFINITION. What each register reads as: the status registers as functions of the state, every other register as stored. -/
namespace Sys2Proof.Machine

/-- The word of a register pair at offsets `lo` and `lo + 4`. -/
def pairW (o lo v : Nat) : Word := if o = lo then w32 v else w32 (v / 2 ^ 32)

/-- The code of a lock state (R63). -/
def Lock.code : Lock → Nat
  | .off => 0 | .acquire => 1 | .locked => 2 | .coast => 3 | .lost => 4

def Motion.code : Motion → Nat
  | .stopped => 0 | .creep => 1 | .track => 2 | .reverse => 3

def TileSt.code : TileSt → Nat
  | .off => 0 | .idle => 1 | .run => 2 | .faulted => 3 | .halted => 4

def TState.code : TState → Nat
  | .free => 0 | .acquire => 1 | .locked => 2 | .holdover => 3

def LifeCycle.code : LifeCycle → Nat
  | .blank => 0 | .provisioned => 1 | .owned => 2 | .returned => 3 | .scrapped => 4

/-- IGL_Lnn_STATUS.STATE (R93): 6 while a lane retrains. -/
def Lane.code (l : Lane) : Nat :=
  match l.phase with
  | .off => 0 | .up => 5 | .failed => 7
  | .bcLock => if l.retraining then 6 else 1
  | .equalise => if l.retraining then 6 else 2
  | .blockLock => if l.retraining then 6 else 3
  | .capability => if l.retraining then 6 else 4

/-- Bit `i` of a word for each `i` below `k` at which `f` holds. -/
def maskOf (k : Nat) (f : Nat → Bool) : Nat := sumN ((List.range k).map fun i => if f i then 2 ^ i else 0)

def State.tileAt (s : State) (t : Nat) : Tile := atV s.tile t Tile.init
def State.laneAt (s : State) (n : Nat) : Lane := atV s.lane n Lane.init
def State.sliceAt (s : State) (n : Nat) : Slice := atV s.slice n Slice.init
def State.ttAt (s : State) (t : Nat) : TrkTable := atV s.pos.tt t TrkTable.init
def State.gdcAt (s : State) (p : Nat) : GdcPort := atV s.gdc p GdcPort.init

/-- GDDR7 port `p` is disabled by the grade: GD_P6 and GD_P7 of the TRS-632, in every device state (R4, R439). -/
def State.portDisabled (s : State) (p : Nat) : Bool := decide (s.otp.grade = 1) && decide (6 ≤ p)

/-- Lane `n` is disabled by the grade: IG_L24 to IG_L31 of the TRS-632 (R4). -/
def State.laneDisabled (s : State) (n : Nat) : Bool := decide (s.otp.grade = 1) && decide (24 ≤ n)

def State.fportAt (s : State) (p : Nat) : FabPort := atV s.fport p FabPort.init
def State.cwAt (s : State) (d : Nat) : Cw := atV s.cw d Cw.init
def State.cxAt (s : State) (c : Nat) : Cx := atV s.psq.cx c Cx.init
def State.dmaAt (s : State) (c : Nat) : DmaCh := atV s.mtx.dma c DmaCh.init
def State.slotAt (s : State) (i : Nat) : EruSlot := atV s.eru.slots i EruSlot.init

/-- The POS block (R70). -/
def State.viewPos (s : State) (o : Nat) : Word :=
  if o = rPosStatus then
    w32 (maskOf 16 (fun d => (s.dom d).lock = .lost) * 2 ^ 16 + maskOf 16 (fun d => (s.dom d).lock = .locked))
  else if o = rPosTsLo ∨ o = rPosTsHi then pairW o rPosTsLo s.ts
  else if rPosDCtrl 0 ≤ o ∧ o < rPosDCtrl 16 then
    let d := (o - rPosDCtrl 0) / 0x80
    let m := s.dom d
    if o = rPosDStatus d then
      w32 (fldsOr [(31, 16, sat 16 m.coastCnt), (8, 8, b2n m.onCheck), (5, 4, m.motion.code), (2, 0, m.lock.code)])
    else if o = rPosDCoordLo d ∨ o = rPosDCoordHi d then pairW o (rPosDCoordLo d) (unsigned 64 (s.coordNow d))
    else if o = rPosDHwmLo d ∨ o = rPosDHwmHi d then pairW o (rPosDHwmLo d) (unsigned 64 m.hwm)
    else if o = rPosDVel d then w32i m.velUm
    else if o = rPosDOriginLo d ∨ o = rPosDOriginHi d then pairW o (rPosDOriginLo d) (unsigned 64 (s.domOwn d).origin)
    else if o = rPosDProduct d then w32 (s.domOwn d).product
    else s.reg o
  else if rPosTgCtrl 0 ≤ o ∧ o < rPosTgCtrl 32 then
    let g := (o - rPosTgCtrl 0) / 0x20
    if o = rPosTgFired g then w32 (s.gen g).fired
    else if o = rPosTgLoss g then w32 (sat 16 (s.gen g).skipCnt * 2 ^ 16 + sat 16 (s.gen g).lateCnt)
    else s.reg o
  else if rPosTtCtrl 0 ≤ o ∧ o < rPosTtCtrl 4 then
    let t := (o - rPosTtCtrl 0) / 0x40
    let m := s.ttAt t
    if o = rPosTtBaseLo t ∨ o = rPosTtBaseHi t then pairW o (rPosTtBaseLo t) (unsigned 64 m.base)
    else if o = rPosTtCount t then w32 m.count
    else if o = rPosTtLast t then w32 (m.deltas.headD 0)
    else if o = rPosTtNonmono t then w32 (sat 32 m.nonmono)
    else s.reg o
  else s.reg o

/-- The IOX block (R70, R291). -/
def State.viewIox (s : State) (o : Nat) : Word :=
  if o < rIoxEncCfg 4 then
    let n := (o - rIoxEncCfg 0) / 0x10
    let e := s.enc n
    if o = rIoxEncCount n then w32i e.count
    else if o = rIoxEncZcap n then w32i e.zcap
    else if o = rIoxEncStat n then
      w32 (fldsOr [(31, 16, sat 16 e.qerrCnt), (5, 5, b2n e.zerr), (4, 4, b2n e.qerr), (3, 3, b2n e.ovsp), (2, 2, b2n e.rxfZ),
        (1, 1, b2n e.rxfB), (0, 0, b2n e.rxfA)])
    else s.reg o
  else if o = rIoxGpiIn then w32 (maskOf 16 fun i => atV s.res.gpi i false)
  else s.reg o

/-- The present time in bits of the back channel, 0.64 ns each: the boundary not before it (R73). -/
def State.nowBit (s : State) : Int := -(-(16 * (s.ts : Int) * 125) / 1024)

/-- Lane `n` is sending a management message, or one waits: TX_BUSY (R113). -/
def State.txBusy (s : State) (n : Nat) : Bool :=
  (s.laneAt n).bcq.any (fun m => m.1 == 0x30) || decide (s.nowBit < (s.laneAt n).mgEnd)

/-- The IGL blocks (R113). -/
def State.viewIgl (s : State) (o : Nat) : Word :=
  let n := (o - rIglLCtrl 0) / 0x1000
  let l := s.laneAt n
  if o = rIglLStatus n then w32 (fldsOr [(15, 8, sat 8 l.attempts), (2, 0, l.code)])
  else if o = rIglLWindow n then w32 (fldsOr [(31, 16, l.base % 2 ^ 16), (6, 0, l.top - l.base)])
  else if o = rIglLMgCtrl n then
    w32 (fldsOr [(29, 29, b2n l.rxReady), (28, 28, b2n (s.txBusy n)), (24, 16, l.mgRx.length), (6, 0, s.rf o 6 0)])
  else if o = rIglLMgRx n then w32 (leNat (bslice l.mgRx l.mgPos 4))
  else s.reg o

/-- The LCU blocks (R138): role 1 lead, 2 ganged, 0 off, as IGL_Lnn_CTRL.PERS and IGL_Lnn_HEAD.LANE_IDX give it (R107, R115). -/
def State.lcuRole (s : State) (n : Nat) : Nat :=
  if s.rf (rIglLCtrl n) 1 0 = 0 then 0
  else if s.rf (rIglLHead n) 23 21 = 0 then 1 else 2

def State.viewLcu (s : State) (o : Nat) : Word :=
  let n := (o - rLcuSCtrl 0) / 0x1000
  let l := s.sliceAt n
  if o = rLcuSStatus n then
    let b := atV l.banks (1 - l.bank) { ts := none, ready := false }
    w32 (fldsOr [(9, 9, b2n (b.ts.isSome && !b.ready)), (8, 8, l.bank), (1, 0, s.lcuRole n)])
  else s.reg o

/-- The TILE blocks (R182). -/
def State.viewTile (s : State) (o : Nat) : Word :=
  let n := (o - rTileCtrl 0) / 0x1000
  let t := s.tileAt n
  if o = rTileStatus n then w32 (fldsOr [(26, 16, t.pc), (13, 12, t.prog), (10, 8, t.loops.length), (2, 0, t.st.code)])
  else if o = rTileMap n then
    let v := s.vcolOf (n / 16)
    let skip := fun (a b : Nat) => decide (s.otp.discol = some a) && decide (b < 17)
    w32 (fldsOr [(31, 31, b2n v.isSome), (30, 30, b2n (v.isSome && skip (n / 16 + 1) (n / 16 + 2))),
      (29, 29, b2n (v.isSome && decide (2 ≤ n / 16) && skip (n / 16 - 1) 0)), (23, 20, v.getD 0), (19, 16, n % 16),
      (12, 8, n / 16), (3, 0, n % 16)])
  else if o = rTileFault n then
    w32 (fldsOr [(31, 28, t.fCode), (27, 27, b2n t.fSrc), (26, 24, t.fSlot), (23, 16, t.fSock), (10, 0, t.fPc)])
  else if o = rTileFaultCyc n then w32 (fldsOr [(31, 30, t.fProg), (29, 24, sat 6 t.fMore), (23, 0, t.fCyc)])
  else if o = rTileFaultFrm n then w32i t.fFrame
  else if o = rTileFrames n then w32 t.frames
  else if o = rTileLastcyc n then w32 (t.lastCyc % 2 ^ 24)
  else if o = rTileFree n then w32 (sat 24 t.free)
  else if o = rTileQhwm n then
    let h := fun i => atV t.hwm i 0
    w32 (fldsOr [(31, 26, h 6), (25, 21, h 5), (20, 18, h 4), (15, 12, h 3), (11, 8, h 2), (7, 4, h 1), (3, 0, h 0)])
  else if o = rTileOutq n then w32 (fldsOr [(31, 16, sat 16 t.pushed), (15, 0, sat 16 t.discarded)])
  else if o = rTileEcc n then w32 (fldsOr [(31, 16, sat 16 t.ceCnt), (15, 0, sat 16 t.ueCnt)])
  else if o = rTileEccAddr n then w32 (fldsOr [(29, 16, t.ueAddr), (13, 0, t.ceAddr)])
  else if o = rTileScrub n then w32 (fldsOr [(31, 16, t.passes % 2 ^ 16), (13, 0, t.scrubNext)])
  else s.reg o

/-- Lag of the oldest undispatched frame (R198): how many frames have fallen due after it (log 93). -/
def State.lag (s : State) : Nat :=
  match s.frm.due with
  | e :: _ => e.after
  | [] => 0

/-- The PSQ block: sequencer, frames, array summary (R220, R239, R263). -/
def State.viewPsq (s : State) (o : Nat) : Word :=
  let p := s.psq
  if o = rPsqStatus then
    w32 (fldsOr [(31, 16, p.patchVer), (9, 9, b2n p.patched), (8, 8, b2n p.swap.isSome), (0, 0, p.page)])
  else if rPsqCxCtrl 0 ≤ o ∧ o < rPsqCxCtrl 2 then
    let c := (o - rPsqCxCtrl 0) / 0x20
    let x := s.cxAt (6 + c)
    if o = rPsqCxStatus c then
      w32 (fldsOr [(31, 28, x.fcode), (18, 16, x.stack.length), (15, 14, x.st), (9, 0, x.upc)])
    else if o = rPsqCxCapLo c ∨ o = rPsqCxCapHi c then pairW o (rPsqCxCapLo c) (unsigned 64 x.cap)
    else s.reg o
  else if rPsqCnt 0 ≤ o ∧ o < rPsqCnt 4 then atV p.cnt ((o - rPsqCnt 0) / 4) 0
  else if rPsqCmpCtrl 0 ≤ o ∧ o < rPsqCmpCtrl 4 then
    let n := (o - rPsqCmpCtrl 0) / 0x10
    if o = rPsqCmpValLo n ∨ o = rPsqCmpValHi n then pairW o (rPsqCmpValLo n) (unsigned 64 (atV p.cmp n 0))
    else if o = rPsqCmpStat n then
      w32 (b2n (s.rbit (rPsqCmpCtrl n) 0 && decide (atV p.cmp n 0 ≤ (s.dom (s.rf (rPsqCmpCtrl n) 4 1)).hwm)))
    else s.reg o
  else if o = rPsqFrmStatus then
    w32 (fldsOr [(27, 24, s.rf o 27 24), (23, 23, b2n s.frm.reload.isSome), (22, 21, s.frm.band), (20, 16, sat 5 s.lag),
      (15, 10, s.frm.recipe.getD 0), (9, 7, s.frm.step), (6, 4, if s.frm.recipe.isSome then s.frm.mode else 0),
      (3, 0, s.fdom.getD 0)])
  else if o = rPsqFrmNextLo ∨ o = rPsqFrmNextHi then pairW o rPsqFrmNextLo (unsigned 64 ((s.frm.next.map s.frameOf).getD 0))
  else if o = rPsqArrSet then
    match s.img.arr with
    | none => 0
    | some i =>
      let b := s.setBytes i
      w32 (fldsOr [(31, 30, i), (29, 25, ssModes b), (23, 20, ssCols b - 1), (19, 16, ssRows b - 1), (9, 0, ssP b)])
  else if o = rPsqArrHalt then
    w32 (fldsOr [(24, 16, (s.tile.toList.filter fun t => t.st = .halted).length),
      (8, 0, (s.tile.toList.filter fun t => t.fLast).length)])
  else s.reg o

/-- The RES block (R291). -/
def State.viewRes (s : State) (o : Nat) : Word :=
  if o = rResSeq then w32 s.res.seq
  else if o = rResRecPi then w32 s.res.recR.pi
  else if o = rResClipPi then w32 s.res.clipR.pi
  else if o = rResTrkHold then w32 (s.rf o 31 16 * 2 ^ 16 + s.res.held.length % 2 ^ 13)
  else if rResMkCtrl 0 ≤ o ∧ o < rResMkCtrl 8 then
    let n := (o - rResMkCtrl 0) / 0x20
    let m := s.mkr n
    if o = rResMkPend n then w32 m.queue.length
    else if o = rResMkFired n then w32 m.fired
    else if o = rResMkLoss n then
      w32 (fldsOr [(31, 24, sat 8 m.late), (23, 16, sat 8 m.full), (15, 8, sat 8 m.lost), (7, 0, sat 8 m.dis)])
    else s.reg o
  else s.reg o

/-- Credits the transmitter of a class holds: the buffer of R300 less what is sent and not freed. -/
def fabBuf (tc : Nat) : Nat := [16, 64, 256, 32].getD tc 0

def FabTxq.credits (q : FabTxq) (tc : Nat) : Nat := fabBuf tc - (q.next - q.freed)

/-- A routing entry in the layout of R317. -/
def Route.word (s : State) (r : Route) : Word :=
  let ch := fun (c : Option Nat) => match c with
    | some p => 8 + p
    | none => 0
  let down := fun (c : Option Nat) => match c with
    | some p => decide ((s.fportAt p).st ≠ 2) || s.fab.dead.contains p
    | none => false
  w32 (fldsOr [(31, 31, 1), (30, 30, b2n r.self), (29, 29, b2n ((down r.pri && r.alt.isSome) || (down r.dpri && r.dalt.isSome))),
    (28, 24, r.hops), (15, 12, ch r.pri), (11, 8, ch r.alt), (7, 4, ch r.dpri), (3, 0, ch r.dalt)])

/-- The routing entry of an address, 0 when it has none. -/
def State.routeWord (s : State) (a : Nat) : Word :=
  match s.fab.table.find? fun r => r.addr == a with
  | some r => Route.word s r
  | none => 0

/-- STATE of FAB_STATUS: off, electing, mapped, NOADDR. -/
def State.fabState (s : State) : Nat :=
  if !s.rbit rFabCtrl 0 then 0
  else if s.fab.noAddr then 3
  else if s.fab.addr.isSome then 2 else 1

/-- Tree ports (R312): the up port and the ports whose peer reports UP. -/
def State.treePort (s : State) (p : Nat) : Bool :=
  s.fab.upPort == some p || (decide ((s.fportAt p).st = 2) && (s.fportAt p).up && s.rf (rFabPCtrl p) 1 0 == 1)

/-- The FAB ports and core (R322, R346). -/
def State.viewFab (s : State) (o : Nat) : Word :=
  if o < rFabPCtrl 4 then
    let p := (o - rFabPCtrl 0) / 0x1000
    let q := s.fportAt p
    if o = rFabPStatus p then
      w32 (fldsOr [(7, 7, b2n (s.treePort p)), (6, 6, b2n (s.fab.upPort == some p)), (5, 4, q.mode), (1, 0, q.st)])
    else if o = rFabPPeerLo p ∨ o = rFabPPeerHi p then pairW o (rFabPPeerLo p) (q.peerSerial.getD 0)
    else if o = rFabPPeerAddr p then w32 (fldsOr [(17, 16, q.peerPort), (8, 0, q.peerAddr.getD 0)])
    else if o = rFabPCredit p then
      let c := fun tc => if q.st = 2 then (atV q.tx tc FabTxq.init).credits tc else 0
      w32 (fldsOr [(31, 25, c 3), (24, 16, c 2), (15, 8, c 1), (7, 0, c 0)])
    else s.reg o
  else if o = rFabStatus then
    w32 (fldsOr [(31, 31, b2n s.fab.isRoot), (30, 30, b2n s.fab.part), (27, 26, s.fabState), (25, 21, s.fab.dist),
      (9, 9, b2n s.fab.addr.isSome), (8, 0, s.fab.addr.getD 0)])
  else if o = rFabRootSerLo ∨ o = rFabRootSerHi then pairW o rFabRootSerLo s.fab.rootSerial
  else if o = rFabMapEpoch then w32 s.fab.mapEpoch
  else if o = rFabDevices then w32 s.fab.map.length
  else if rFabRouteWin 0 ≤ o ∧ o < rFabRouteWin 8 then
    let a := s.rf rFabRouteBase 8 0 + (o - rFabRouteWin 0) / 4
    if a ≤ 511 then s.routeWord a else 0
  else if o = rFabRaCmd then
    w32 (fldsOr [(30, 30, b2n s.fab.ra.isSome), (29, 28, s.rf o 29 28), (11, 0, s.rf o 11 0)])
  else if o = rFabFtLo ∨ o = rFabFtHi then pairW o rFabFtLo s.fabricTime
  else if o = rFabTimeStatus then
    w32 (fldsOr [(31, 30, s.ft.tstate.code), (15, 0, unsigned 16 (satS 16 s.ft.theta))])
  else if o = rFabTimeFadj then w32i s.ft.fadj
  else if o = rFabTimeSteps then w32 (sat 32 s.ft.steps)
  else if rFabCwRoot 0 ≤ o ∧ o < rFabCwRoot 16 then
    let d := (o - rFabCwRoot 0) / 0x20
    let c := s.cwAt d
    if o = rFabCwRoot d then
      w32 (fldsOr [(31, 31, b2n c.active),
        (30, 30, b2n (c.standby || (!c.active && s.rbit (rPosDCtrl d) 3 && s.rf (rPosDCtrl d) 2 1 == 0))), (29, 22, c.gen), (13, 9, c.hops), (8, 0, c.root)])
    else if o = rFabCwSofsLo d ∨ o = rFabCwSofsHi d then pairW o (rFabCwSofsLo d) (unsigned 64 c.sofs)
    else s.reg o
  else if o = rFabCenStatus then
    w32 (fldsOr [(31, 31, b2n s.cen.listed), (30, 30, b2n s.cen.stale), (29, 29, b2n s.cen.nores), (28, 28, b2n s.cen.noMaj),
      (27, 26, s.cen.action), (9, 0, s.cen.count)])
  else if o = rFabCenEpochLo ∨ o = rFabCenEpochHi then pairW o rFabCenEpochLo s.cen.epoch
  else if rFabCenDigest 0 ≤ o ∧ o < rFabCenDigest 8 then w32 (fieldAt s.cen.digest (o - rFabCenDigest 0) 4)
  else if o = rFabCenRound then w32 s.cen.resRound
  else s.reg o

/-- CCLK cycles since TS 0, 3 per 2 TS units (R38, R380). -/
def State.cclk (s : State) : Nat := s.ts * 3 / 2

/-- CYCLE: CCLK cycles of 1.2 GHz since the reset of the core, 3 per 2 TS units (R415). -/
def State.cycle (s : State) : Nat := (s.ts - s.core.cycFrom) * 3 / 2

/-- Interrupt sources 0 to 63 that are pending (R403). -/
def State.irqPend (s : State) : Nat → Bool
  | 0 => s.psq.uevt ≠ []
  | 1 => s.rbit rResCtrl 1 && s.res.recR.due
  | 2 => s.rbit rResCtrl 2 && s.res.clipR.due
  | 3 => s.reg rMtxMbxDbIn ≠ 0
  | 4 => s.rbit rMtxMbxColl 31
  | 5 => (s.slotAt 4).valid || (s.slotAt 5).valid
  | 6 => (s.slotAt 2).valid || (s.slotAt 3).valid
  | 7 => (s.slotAt 0).valid || (s.slotAt 1).valid
  | 8 => s.jnl.fw.isSome
  | 9 => s.core.fwMsg ≠ []
  | 10 => s.core.cenIrq
  | 11 => s.core.timerHit || decide (s.core.timecmp.toNat ≤ s.cycle)
  | 12 => s.mtx.dma.toList.any (·.done)
  | 13 => s.mtx.dma.toList.any (·.err)
  | 14 => s.reg rIoxGpiEdge ≠ 0
  | 48 => s.rbit rPsqArrFirst 0
  | 49 => s.reg rPsqFrmEvt ≠ 0
  | 50 => s.reg rFabEvt ≠ 0 || (List.range 4).any fun p => s.reg (rFabPEvt p) ≠ 0
  | 51 => s.reg rFabCenEvt ≠ 0 || s.ft.leftLock
  | 52 => s.rbit rMtxErrInfo 31
  | 63 => s.core.swi
  | n => decide (16 ≤ n ∧ n ≤ 47) && s.reg (rIglLEvt (n - 16)) ≠ 0

/-- The value of a CSR (R415); `none` for a number that names none. Level of access: `csrUser`. -/
def State.csr (s : State) (n : Nat) : Option Word :=
  let c := s.core
  if n = 0x000 then some c.accst
  else if n = 0x001 then some (w32 s.cycle)
  else if n = 0x002 then some c.cycHi
  else if n = 0x010 then some c.status
  else if n = 0x011 then some c.cause
  else if n = 0x012 then some c.far
  else if n = 0x013 then some c.vbase
  else if n = 0x014 then some c.a7u
  else if n = 0x015 then some c.a7p
  else if n = 0x018 then some c.rsBase
  else if n = 0x019 then some c.rsLimit
  else if n = 0x01A then some c.rsSpill
  else if n = 0x01B then some (w32 c.rs.length)
  else if n = 0x020 then some c.ccCfg
  else if n = 0x021 then some (w32 (b2n c.bar))
  else if n = 0x028 then some c.brCnt
  else if n = 0x029 then some c.mispCnt
  else if n = 0x030 then some (w32 (maskOf 32 s.irqPend))
  else if n = 0x031 then some (w32 (maskOf 32 fun i => s.irqPend (32 + i)))
  else if n = 0x032 then some (c.irqEn.setWidth 32)
  else if n = 0x033 then some ((c.irqEn >>> 32).setWidth 32)
  else if n = 0x034 then some (w32 (b2n c.swi))
  else if 0x038 ≤ n ∧ n ≤ 0x03F then some (atV c.prio (n - 0x38) 0)
  else if n = 0x040 then some (c.timecmp.setWidth 32)
  else if n = 0x041 then some ((c.timecmp >>> 32).setWidth 32)
  else none

/-- The CCD block (R416). -/
def State.viewCcd (s : State) (o : Nat) : Word :=
  if o = rCcdStatus then w32 (fldsOr [(3, 3, b2n s.core.lastPriv), (2, 0, s.core.st)])
  else if o = rCcdPc then s.core.lastPc
  else if o = rCcdLockPc then s.core.lockPc
  else if o = rCcdLockCause then w32 s.core.lockCause
  else if o = rCcdCsrData then (s.csr (s.rf rCcdCsrSel 11 0)).getD 0
  else s.reg o

/-- Responses are still owed to `k`, a master, or 7 + c for channel c of the DMA, that was reset with transactions open, within TIMEOUT of
the reset (R429, R432). Its new requests wait until then. -/
def State.owes (s : State) (k : Nat) : Bool :=
  s.mtx.owed.any fun o => o.1 == k && decide (0 < o.2.1) && decide (s.ts ≤ o.2.2 + s.rf rMtxCtrl 31 16 * usTs)

/-- Whether owed key `k` is master `m`: those from 7 on are the channels of the DMA. -/
def owedOf (m k : Nat) : Bool := k == m || (m == 2 && 7 ≤ k)

/-- The transactions of master `m` that are open: those whose responses are owed (R432). -/
def State.outOf (s : State) (m : Nat) : Nat :=
  sumN ((s.mtx.owed.filter fun o => owedOf m o.1 && s.owes o.1).map (·.2.1))

/-- The MTX block (R438). A master is in reset while responses are owed to it (R432). Any other transaction, and every locked sequence, is served
within its row, so OUT counts none of them and LOCKED reads 0 (log 109). -/
def State.viewMtx (s : State) (o : Nat) : Word :=
  if o = rMtxStatus then w32 (fldsOr [(22, 16, maskOf 7 fun m => s.owes m || (m == 2 && (List.range 4).any fun c => s.owes (7 + c)))])
  else if rMtxMCtrl 0 ≤ o ∧ o < rMtxMCtrl 7 then w32 (sat 5 (s.outOf ((o - rMtxMCtrl 0) / 4)) * 65536 + s.rf o 0 0)
  else if o = rMtxSpmWipe then w32 (b2n s.mtx.wiping * 2 ^ 31 + s.rf o 15 0)
  else if rMtxDmaSrc 0 ≤ o ∧ o < rMtxDmaSrc 4 ∧ o = rMtxDmaCtrl ((o - rMtxDmaSrc 0) / 0x10) then
    let d := s.dmaAt ((o - rMtxDmaSrc 0) / 0x10)
    w32 (fldsOr [(29, 29, b2n d.busy), (28, 28, b2n d.done), (27, 27, b2n d.err)])
  else s.reg o

/-- Capacity of a GDDR7 port in MiB (R439). -/
def State.gdcCap (s : State) (p : Nat) : Nat :=
  (if s.rf (rGdcPCtrl p) 5 4 = 1 then 3072 else 2048) * (if s.rbit (rGdcPCtrl p) 3 then 2 else 1)

/-- The GDC blocks (R454). -/
def State.viewGdc (s : State) (o : Nat) : Word :=
  let p := (o - rGdcPCtrl 0) / 0x1000
  let g := s.gdcAt p
  if o = rGdcPStatus p then w32 (fldsOr [(8, 8, b2n g.syscopy), (2, 0, if s.portDisabled p then 4 else g.st)])
  else if o = rGdcPTrain p then w32 (fldsOr [(31, 24, g.attempts), (18, 16, g.step), (15, 0, sat 16 g.trainMs)])
  else if o = rGdcPCap p then if g.st = 2 ∨ g.st = 3 then w32 (s.gdcCap p) else 0
  else s.reg o

/-- The SYS and CFG blocks (R490). -/
def State.viewSys (s : State) (o : Nat) : Word :=
  if o = rSysGrade then w32 (fldsOr [(5, 4, s.otp.range), (1, 0, s.otp.grade)])
  else if o = rSysSerialLo ∨ o = rSysSerialHi then pairW o rSysSerialLo s.otp.serial
  else if o = rSysState then w32 (fldsOr [(23, 20, s.sys.holdCause), (7, 4, s.sys.prev.code), (3, 0, s.sys.st.code)])
  else if o = rSysOut then
    w32 (fldsOr [(6, 4, if s.frm.recipe.isSome then s.frm.mode else 0), (1, 1, b2n s.sys.cenStop), (0, 0, b2n s.sys.outEn)])
  else if o = rSysReset then w32 s.sys.resetCause
  else if o = rSysTArmed then w32 s.sys.tArmed
  else if o = rSysStarts then w32 (sat 32 s.sys.starts)
  else s.reg o

def State.viewCfg (s : State) (o : Nat) : Word :=
  if o = rCfgStatus then
    w32 (fldsOr [(31, 24, s.img.bCode), (23, 16, s.img.aCode), (7, 6, s.img.xspiMode), (3, 3, s.img.sel), (2, 2, b2n s.img.valid),
      (1, 1, b2n s.img.fallback), (0, 0, if s.img.valid then s.img.slot else 0)])
  else s.reg o

/-- Code of an owner slot in SEC_KEYS. -/
def OwnerSlot.code : OwnerSlot → Nat
  | .empty => 0 | .active _ => 1 | .revoked => 2

/-- The SEC block (R519). SEC_BUF reads 0 to a requester that does not hold it while it is held (R501). -/
def State.viewSec (s : State) (who : Requester) (o : Nat) : Word :=
  let c := s.sec
  if rSecBuf 0 ≤ o then
    match c.claim with
    | some cl => if cl.holder = reqId who then w32 (leNat (memGetBytes ramDefault c.buf (o - rSecBuf 0) 4)) else 0
    | none => w32 (leNat (memGetBytes ramDefault c.buf (o - rSecBuf 0) 4))
  else if o = rSecStatus then
    w32 (fldsOr [(31, 31, b2n c.approved), (30, 30, b2n c.entropyFail), (29, 29, b2n c.debugOpened), (28, 28, b2n c.transient),
      (27, 27, b2n c.zeroising), (18, 16, c.lc.code), (6, 4, c.scope), (3, 0, c.lastTamper)])
  else if o = rSecClaim then
    match c.claim with
    | some cl => w32 (fldsOr [(29, 29, 1), (9, 0, cl.holder)])
    | none => 0
  else if o = rSecSvc then
    w32 (fldsOr [(30, 30, b2n c.busy), (27, 24, c.result), (23, 23, b2n c.svcAppr), (15, 8, c.svcType)])
  else if o = rSecSess then
    w32 (fldsOr [(31, 31, b2n c.host.isSome), (27, 26, (c.host.map (·.slot)).getD 0), (19, 16, c.fabs.length), (7, 0, s.rf o 7 0)])
  else if rSecChal 0 ≤ o ∧ o < rSecChal 8 then
    match c.claim with
    | some cl => w32 (fieldAt (cl.chal.getD []) (o - rSecChal 0) 4)
    | none => 0
  else if o = rSecKeys then w32 (sumN ((List.range 4).map fun i => (atV c.slots i .empty).code * 4 ^ i))
  else if o = rSecImgFloor then w32 c.imgFloor
  else if o = rSecPatchFloor then w32 c.patchFloor
  else if o = rSecCounts then w32 (fldsOr [(31, 16, sat 16 c.tampers), (15, 0, sat 16 c.transitions)])
  else if o = rSecTmpEn then w32 c.tmpEn
  else if o = rSecSelftest then w32 c.selftest
  else if rSecIdpub 0 ≤ o ∧ o < rSecIdpub 16 then
    match c.idKey with
    | some k => w32 (fieldAt (Config.slhPub k) (o - rSecIdpub 0) 4)
    | none => 0
  else s.reg o

/-- The 62 bytes of a journal entry before OCRC, and the entry with both checksums (R528). A damaged checksum is shown inverted. -/
def JEntry.bytes (e : JEntry) : List Byte :=
  let head := leBytes 8 e.seq ++ leBytes 8 e.intent ++ leBytes 1 e.code ++ leBytes 1 (e.dom + 16 * e.state) ++ leBytes 2 e.req ++
    leBytes 8 e.ft ++ leBytes 8 (unsigned 64 e.coord) ++ fitBytes 10 e.argdig
  let tail := leBytes 1 e.ostat ++ leBytes 1 e.ocode ++ leBytes 4 e.dur ++ leBytes 8 e.odata
  let c := fun (ok : Bool) (bs : List Byte) => leBytes 2 (if ok then crc16 bs else 65535 - crc16 bs)
  head ++ c e.acrcOk head ++ tail ++ c e.ocrcOk tail

/-- A peat entry's 32 bytes (R532). -/
def PeatEntry.bytes (e : PeatEntry) : List Byte :=
  let b := leBytes 4 e.pseq ++ leBytes 2 e.start ++ leBytes 1 e.type ++ leBytes 1 e.sub ++ leBytes 8 e.time ++ fitBytes 14 e.body
  b ++ leBytes 2 (if e.ok then crc16 b else 65535 - crc16 b)

/-- The SEQ of the journal head: the newest valid entry (R530). -/
def State.jnlHead (s : State) : Nat := ((s.jnl.entries.find? fun e => e.acrcOk).map (·.seq)).getD 0

/-- The entry with a sequence number, when held and its ACRC is good. -/
def State.jnlEntry (s : State) (n : Nat) : Option JEntry := s.jnl.entries.find? fun e => e.seq == n && e.acrcOk

/-- The read selectors of a requester (R542): the control core and its DMA channels have one set, as of command buffers. -/
def State.selOf (s : State) (who : Requester) : ReadSel :=
  ((s.jnl.sels.find? fun x => x.1 == reqId who).map (·.2)).getD { rdSelLo := 0, rdSelHi := 0, peatSel := 0 }

/-- The command buffer of a requester (R522): an absent fabric buffer reads as at its allocation. -/
def State.cmdBuf (s : State) (who : Requester) : CmdBuf :=
  match who with
  | .host => s.jnl.host
  | .core | .dma | .bridge => s.jnl.core
  | .fabric a => ((s.jnl.fab.find? fun b => b.1 == a.toNat).map (·.2)).getD CmdBuf.init

def peatDefault (_ : Nat) : Option PeatEntry := none

/-- Whether a ring index lies in a frozen region (R535). -/
def Peat.frozen (p : Peat) (i : Nat) : Bool :=
  p.regions.toList.any fun r => match r with
    | some f => f.spans.any fun sp => decide (sp.1 ≤ i) && decide (i < sp.1 + sp.2)
    | none => false

/-- CODE of a submitted descriptor. -/
def QCmd.code (q : QCmd) : Nat := fieldAt q.desc 0 1

/-- The JNL block, as requester `who` sees it (R542). -/
def State.viewJnl (s : State) (who : Requester) (o : Nat) : Word :=
  let b := s.cmdBuf who
  let r := s.selOf who
  if o = rJnlHeadLo ∨ o = rJnlHeadHi then pairW o rJnlHeadLo s.jnlHead
  else if o = rJnlStatus then
    w32 (fldsOr [(31, 31, b2n (decide (4 ≤ s.sys.st.code))), (21, 16, s.jnl.queue.length), (12, 8, s.jnl.wait.length),
      (0, 0, b2n s.jnl.fw.isSome)])
  else if o = rJnlPeatDrop then w32 (sat 32 s.peat.drop)
  else if rJnlCmdW 0 ≤ o ∧ o < rJnlCmdW 16 then atV b.words ((o - rJnlCmdW 0) / 4) 0
  else if o = rJnlCmdStat then w32 (fldsOr [(30, 28, b.disp), (27, 24, b.rej), (15, 8, b.ocode), (2, 0, b.ostat)])
  else if o = rJnlCmdSeqLo ∨ o = rJnlCmdSeqHi then pairW o rJnlCmdSeqLo b.seq
  else if o = rJnlRdSelLo then r.rdSelLo
  else if o = rJnlRdSelHi then r.rdSelHi
  else if o = rJnlRdStat then
    match s.jnlEntry (r.rdSelLo.toNat + 2 ^ 32 * r.rdSelHi.toNat) with
    | some e => w32 (1 + 2 * b2n e.ocrcOk)
    | none => 0
  else if rJnlRdW 0 ≤ o ∧ o < rJnlRdW 16 then
    match s.jnlEntry (r.rdSelLo.toNat + 2 ^ 32 * r.rdSelHi.toNat) with
    | some e => w32 (fieldAt e.bytes (o - rJnlRdW 0) 4)
    | none => 0
  else if o = rJnlPeatHead then w32 (s.peat.head.getD 0)
  else if o = rJnlPeatPseq then w32 (if s.peat.head.isSome then s.peat.next + 2 ^ 32 - 1 else 0)
  else if o = rJnlPeatSel then r.peatSel
  else if o = rJnlPeatStat then
    let ok := match smGet peatDefault s.peat.ring r.peatSel.toNat with
      | some e => e.ok
      | none => false
    w32 (b2n ok + 2 * b2n (s.peat.frozen r.peatSel.toNat))
  else if rJnlPeatW 0 ≤ o ∧ o < rJnlPeatW 8 then
    match smGet peatDefault s.peat.ring r.peatSel.toNat with
    | some e => w32 (fieldAt e.bytes (o - rJnlPeatW 0) 4)
    | none => 0
  else if rJnlFrzInfo 0 ≤ o ∧ o < rJnlFrzInfo 4 then
    let k := (o - rJnlFrzInfo 0) / 8
    match atV s.peat.regions k none with
    | some r => if o = rJnlFrzInfo k then w32 (fldsOr [(31, 31, 1), (30, 29, r.cause), (17, 0, r.first)]) else w32 r.pseq
    | none => 0
  else if o = rJnlFwStat then
    match s.jnl.fw with
    | some (q, _) => w32 (2 ^ 31 + q.code)
    | none => 0
  else if o = rJnlFwSeqLo ∨ o = rJnlFwSeqHi then
    pairW o rJnlFwSeqLo ((s.jnl.fw.map (·.1.seq)).getD 0)
  else if rJnlFwW 0 ≤ o ∧ o < rJnlFwW 16 then
    match s.jnl.fw with
    | some (q, _) => w32 (fieldAt q.desc (o - rJnlFwW 0) 4)
    | none => 0
  else s.reg o

/-- The ERU block (R542). -/
def State.viewEru (s : State) (o : Nat) : Word :=
  let e := s.eru
  if o = rEruStatus then w32 (b2n e.fatalActive * 256 + maskOf 8 fun i => (s.slotAt i).valid)
  else if o = rEruOvf then
    let v := fun c => sat 8 (atV e.ovf c 0)
    w32 (fldsOr [(31, 24, v 3), (23, 16, v 2), (15, 8, v 1), (7, 0, v 0)])
  else if rEruCnt 0 ≤ o ∧ o < rEruCnt 4 then w32 (atV e.cnt ((o - rEruCnt 0) / 4) 0)
  else if o = rEruUdrop then w32 e.udrop
  else if rEruSEvent 0 ≤ o then
    let i := (o - rEruSEvent 0) / 0x20
    let x := s.slotAt i
    if o = rEruSEvent i then w32 (b2n x.valid * 2 ^ 31 + x.event)
    else if o = rEruSSrc i then w32 x.src
    else if o = rEruSDetail i then w32 x.detail
    else if o = rEruSAddrLo i ∨ o = rEruSAddrHi i then pairW o (rEruSAddrLo i) x.addr
    else if o = rEruSTimeLo i ∨ o = rEruSTimeHi i then pairW o (rEruSTimeLo i) x.time
    else s.reg o
  else s.reg o

/-- The PCIE and CLK blocks (R564, R591). -/
def State.viewPcie (s : State) (o : Nat) : Word :=
  let p := s.pcie
  if o = rPcieStatus then
    w32 (fldsOr [(19, 16, if p.flr then 0 else p.speed), (11, 8, if p.flr then 0 else p.width), (3, 3, b2n p.d3hot), (2, 2, b2n p.bme),
      (1, 1, b2n (p.msixEn && !p.fnMask)), (0, 0, b2n (p.linkUp && !p.flr))])
  else if o = rPcieDbRecCi then w32 s.res.recR.ci
  else if o = rPcieDbClipCi then w32 s.res.clipR.ci
  else if o = rPcieDbRecPi then w32 s.res.recR.pi
  else if o = rPcieDbClipPi then w32 s.res.clipR.pi
  else s.reg o

/-- The fastest step of the mode in force, in TRAIN of the start recipe's (R27, R197): 1.2 GHz in COOL. Steps are numbered from the fastest, 0,
to the slowest, 4. -/
def State.modeStep (s : State) : Nat :=
  if (s.frm.recipe.isSome ∧ s.frm.mode = 4) ∨ (s.sys.st = .train ∧ s.rcpMode s.startRecipe = 4) then 3 else 0

/-- The fastest step that STEP_CAP, AVS and the mode allow (R572, R575). -/
def State.fastest (s : State) : Nat := max (max (s.rf rClkCtrl 2 0) (if s.rbit rClkAvsCtrl 7 then 0 else 1)) s.modeStep

/-- The fastest step permitted now: that of R575, and no faster than the thermal control permits. -/
def State.stepLimit (s : State) : Nat := max s.clk.permit s.fastest

def State.viewClk (s : State) (o : Nat) : Word :=
  if o = rClkStatus then
    w32 (fldsOr [(12, 8, if s.sys.pdReleased && !s.clk.shutdown then 31 else 0), (6, 4, if s.sys.pdReleased then s.stepLimit else 0),
      (2, 0, s.frm.step)])
  else if o = rClkTemp then w32 (fldsOr [(31, 16, unsigned 16 s.clk.tLd), (15, 0, unsigned 16 s.clk.tPd)])
  else if o = rClkAvsStatus then
    if s.rbit rClkAvsCtrl 7 then w32 (fldsOr [(31, 16, s.clk.vout), (15, 0, s.clk.target)]) else 0
  else if rClkAvsV 0 ≤ o ∧ o < rClkAvsV 5 then w32 (atV s.otp.avs ((o - rClkAvsV 0) / 4) 0)
  else if o = rClkPwr then w32 (sat 16 s.clk.power)
  else s.reg o

/-- What the register at offset `o` reads as for requester `who`, before views, states and read side effects. -/
def State.viewReg (s : State) (who : Requester) (o : Nat) : Word :=
  if o < 0x10000 then s.viewSys o
  else if o < 0x20000 then s.viewPos o
  else if o < 0x30000 then s.viewPsq o
  else if o < 0x40000 then s.viewEru o
  else if o < 0x50000 then s.viewJnl who o
  else if o < 0x60000 then s.viewSec who o
  else if o < 0x70000 then s.viewMtx o
  else if o < 0x80000 then s.viewCcd o
  else if o < 0x90000 then s.viewPcie o
  else if o < 0xA0000 then s.viewCfg o
  else if o < 0xB0000 then s.viewIox o
  else if o < 0x100000 then s.viewClk o
  else if o < 0x400000 then s.reg o
  else if o < 0x500000 then s.viewIgl o
  else if o < 0x600000 then s.viewLcu o
  else if o < 0x700000 then s.viewGdc o
  else if o < 0x800000 then s.viewFab o
  else if o < 0x1000000 then s.viewRes o
  else s.viewTile o

end Sys2Proof.Machine
end

