-- ==== Sys2Proof/Machine/Ops.lean ====
section
/-! DEFINITION. Operations that every family shares: the peat record (R532 to R537), the error reporting unit (R538 to R541), state
changes and safe outputs (R25, R455, R456), completion of commands (R528, R529). -/
namespace Sys2Proof.Machine

/-- The ring index after `i`, skipping frozen regions (R535). -/
def Peat.nextIdx (p : Peat) : Nat → Nat → Nat
  | 0, i => i
  | f + 1, i =>
    let hit := p.regions.toList.findSome? fun r => match r with
      | some x => x.spans.find? fun sp => decide (sp.1 ≤ i) && decide (i < sp.1 + sp.2)
      | none => none
    match hit with
    | some sp => p.nextIdx f ((sp.1 + sp.2) % 262144)
    | none => i

/-- Write one entry at the next index of the ring. -/
def State.peatWrite (s : State) (r : PeatReq) : State :=
  let p := s.peat
  let i := p.nextIdx 64 (match p.head with
    | some h => (h + 1) % 262144
    | none => 0)
  let e : PeatEntry := { pseq := p.next % 2 ^ 32, start := s.sys.starts % 2 ^ 16, type := r.type, sub := r.sub, time := r.time,
                         body := fitBytes 14 r.body, ok := true }
  { s with peat := { p with ring := smPut peatDefault p.ring i (some e), head := some i, next := p.next + 1 } }

/-- Latch an NMI on the rising edge of its two inputs (R405). Lockup ignores requests (R414). -/
def State.nmiEdge (s : State) : State :=
  let lvl := (s.slotAt 6).valid || (s.slotAt 7).valid || s.core.nmiPin
  let hit := lvl && !s.core.nmiLevel && decide (s.core.st ≠ 3) && decide (s.core.st ≠ 0)
  { s with core := { s.core with nmiLevel := lvl, nmi := s.core.nmi || hit } }

/-- Capture and count an event in the ERU (R539). -/
def State.eruCapture (s : State) (ev : Ev) (inst detail addr : Nat) : State :=
  let c := ev.cls
  let slot : EruSlot := { valid := true, event := ev.id, src := ev.src + inst, detail := detail % 2 ^ 32,
                          addr := addr % 2 ^ 64, time := s.fabricTime }
  let cnt := updV s.eru.cnt c fun n => (n + 1) % 2 ^ 32
  let e := if (s.slotAt (2 * c)).valid then
      if (s.slotAt (2 * c + 1)).valid then { s.eru with cnt := cnt, ovf := updV s.eru.ovf c (· + 1) }
      else { s.eru with cnt := cnt, slots := setV s.eru.slots (2 * c + 1) slot }
    else { s.eru with cnt := cnt, slots := setV s.eru.slots (2 * c) slot }
  ({ s with eru := e } : State).nmiEdge

/-- Queue a peat entry; one that finds 1,024 waiting is dropped, counted and reported, and so is the report's own entry then (R534). -/
def State.peatPush (s : State) (type sub : Nat) (body : List Byte) : State :=
  if s.peat.queue.length < 1024 then
    { s with peat := { s.peat with queue := s.peat.queue ++ [{ type := type, sub := sub, time := s.fabricTime, body := body }] } }
  else
    let s := ({ s with peat := { s.peat with drop := s.peat.drop + 1 } } : State).orReg rJnlEvt 0x10
    let held := (s.eru.rate.find? fun r => r.1 == (evJnlPeatDrop.id, evJnlPeatDrop.src)).any fun r => decide (s.ts < r.2 + evJnlPeatDrop.window)
    if held then s
    else
      let key := (evJnlPeatDrop.id, evJnlPeatDrop.src)
      ({ s with eru.rate := (key, s.ts) :: s.eru.rate.filter fun r => r.1 != key,
                peat.drop := s.peat.drop + 1 } : State).eruCapture evJnlPeatDrop 0 0 0

/-- Walk back from index `i` over the ring, gathering the spans of the newest `n` unfrozen entries in the order in which they were written:
`lim` is the PSEQ after the next older one. Entries that a released region left behind are of an older PSEQ and are passed over (R535). -/
def Peat.backSpans (p : Peat) : Nat → Nat → Nat → Nat → List (Nat × Nat) → List (Nat × Nat)
  | 0, _, _, _, acc => acc
  | _, 0, _, _, acc => acc
  | f + 1, n + 1, lim, i, acc =>
    match smGet peatDefault p.ring i with
    | none => acc
    | some e =>
      if (e.pseq + 1) % 2 ^ 32 ≠ lim % 2 ^ 32 then p.backSpans f (n + 1) lim ((i + 262143) % 262144) acc
      else if p.frozen i then p.backSpans f (n + 1) e.pseq ((i + 262143) % 262144) acc
      else
        let acc' := match acc with
          | (st, l) :: r => if st = i + 1 then (i, l + 1) :: r else (i, 1) :: acc
          | [] => [(i, 1)]
        p.backSpans f n e.pseq ((i + 262143) % 262144) acc'

/-- The snapshot of R536. -/
def State.snapshot (s : State) : List Byte :=
  let w := fun (o : Nat) => leBytes 4 (s.viewReg .bridge o).toNat
  w rSysState ++ w rSysOut ++ w rPsqFrmStatus ++ w rPsqArrFirst ++
  leBytes 8 s.jnlHead ++ leBytes 8 s.fabricTime ++
  (List.range 16).flatMap (fun d => w (rPosDStatus d) ++ w (rPosDVel d) ++ w (rPosDCoordLo d) ++ w (rPosDCoordHi d)) ++
  (List.range 8).flatMap (fun i =>
    let x := s.slotAt i
    leBytes 2 x.event ++ leBytes 1 (b2n x.valid) ++ leBytes 3 x.src ++ leBytes 4 x.detail ++ leBytes 8 x.addr ++ leBytes 6 x.time) ++
  (List.range 8).flatMap (fun p => w (rGdcPStatus p)) ++
  (List.range 4).flatMap (fun p => w (rFabPStatus p)) ++
  w rFabStatus ++ w rFabTimeStatus ++ w rFabCenStatus ++ w rSecStatus ++
  w rCcdStatus ++ w rCcdPc ++ w rCcdLockPc ++ w rCcdLockCause ++
  w rMtxErrInfo ++ w rMtxErrAddr ++ w rMtxStatus ++
  (List.range 32).flatMap (fun n => w (rIglLStatus n))

/-- The region a freeze uses: a free one, else the oldest, which is released first (R535). -/
def Peat.freeRegion (p : Peat) : Nat × Peat :=
  match (List.range 4).find? fun k => atV p.regions k none = none with
  | some k => (k, p)
  | none =>
    match p.order with
    | k :: r => (k, { p with regions := setV p.regions k none, order := r })
    | [] => (0, p)

/-- Make a freeze: the FREEZE entry, 63 SNAPSHOT entries, then the region (R535). Answers the region and its PSEQ as well. -/
def State.freeze (s : State) (cause : Nat) : State × Nat × Nat :=
  let snap := s.snapshot
  let (k, p) := s.peat.freeRegion
  let s := { s with peat := p }
  let pseq := p.next % 2 ^ 32
  -- the first entry of the region is found before writing: 16,320 entries older than the 64 written now
  let startIdx := match p.head with
    | some h => match (p.backSpans 262144 16320 p.next h []) with
      | (i, _) :: _ => i
      | [] => (h + 1) % 262144
    | none => 0
  let body := leBytes 2 k ++ leBytes 4 startIdx ++ leBytes 8 s.jnlHead
  let s := s.peatWrite { type := 0x0B, sub := cause, time := s.fabricTime, body := body }
  let s := s.each 63 fun i s => s.peatWrite { type := 0x0C, sub := i + 1, time := s.fabricTime, body := bslice snap (14 * i) 14 }
  let spans := s.peat.backSpans 262144 16384 s.peat.next (s.peat.head.getD 0) []
  let r : FrzRegion := { cause := cause, first := startIdx, pseq := pseq, spans := spans }
  ({ s with peat := { s.peat with regions := setV s.peat.regions k (some r), order := s.peat.order ++ [k] } }, k, pseq)

/-- Complete the journal entry `seq` (R528, R529). -/
def State.complete (s : State) (seq ostat ocode odata : Nat) : State :=
  let fix := fun (e : JEntry) => if e.seq = seq then
      { e with ostat := ostat, ocode := ocode, odata := odata % 2 ^ 64, dur := sat 32 ((s.ts - e.at_) / usTs), ocrcOk := true, doneAt := s.ts }
    else e
  ({ s with jnl := { s.jnl with entries := s.jnl.entries.map fix } } : State).orReg rJnlEvt 2

/-- MRK off at the polarity of IOX_MRK_POL, high impedance until the image has been applied and while the Lagg die is lost (R15, R25, R31,
R289, R569). -/
def State.mrkOff (s : State) (n : Nat) : Level :=
  if !s.sys.mrkLive ∨ s.sys.laggLost then .hiZ else if s.rbit rIoxMrkPol n then .high else .low

/-- MRK active level. -/
def State.mrkOn (s : State) (n : Nat) : Level :=
  if !s.sys.mrkLive ∨ s.sys.laggLost then .hiZ else if s.rbit rIoxMrkPol n then .low else .high

def lvl (b : Bool) : Level := if b then .high else .low

/-- GPO balls that carry the phase code of an enabled generator (R59, R289). -/
def State.gpoPhase (s : State) (i : Nat) : Bool :=
  (List.range 32).any fun g => s.gEn g && s.rbit (rPosTgPhase g) 21 &&
    (decide (s.rf (rPosTgPhase g) 20 16 = i) || decide (s.rf (rPosTgPhase g) 20 16 + 1 = i))

/-- GPO levels as R289 gives them: IOX_GPO_OUT while the outputs are enabled, IOX_GPO_SAFE otherwise; high impedance while the Lagg die is
lost (R15, R31). -/
def State.gpoRefresh (s : State) : State :=
  let g := Vector.ofFn fun (i : Fin 16) =>
    if s.sys.laggLost then .hiZ
    else if s.sys.outEn then
      if s.gpoPhase i then atV s.balls.gpo i .low else lvl (s.rbit rIoxGpoOut i)
    else lvl (s.rbit rIoxGpoSafe i)
  { s with balls := { s.balls with gpo := g } }

/-- Cancel a committed trigger at the LD (R49): the trigger event `id` and its phase event `id + 1`. -/
def State.sendCancel (s : State) (id : Nat) : State :=
  { s with pos := { s.pos with toLd := s.pos.toLd ++ [.cancel id] } }

/-- Cancel every committed trigger of a generator whose cancel was not sent. MIN_PERIOD of the next one still counts from the last of them
(DESIGN CHOICE, log 121). -/
def State.cancelGen (s : State) (g : Nat) : State :=
  let ids := ((s.gen g).trigs.filter fun t => !t.cancelled).map (·.id)
  let s := ids.foldl (fun s id => (s.sendCancel id).sendCancel (id + 1)) s
  s.updGen g fun x => { x with trigs := x.trigs.map fun t => { t with cancelled := true } }

/-- LD events of a marking's committed sides. -/
def Marking.ids (m : Marking) : List Nat :=
  (match m.start with
    | .committed id _ => [id]
    | _ => []) ++
  (match m.stop with
    | .committed id _ => [id]
    | _ => [])

/-- Discard every pending and committed marking of output `n`, each counted in DIS; an active output goes off, a span whose start has fired
being no such marking (R25, R287; log 63). -/
def State.mkDiscardAll (s : State) (n : Nat) : State :=
  let q := (s.mkr n).queue
  let s := (q.flatMap Marking.ids).foldl (fun s id => s.sendCancel id) s
  s.updMkr n fun m => { m with queue := [], since := none, pulseEnd := none, gone := [], dis := m.dis + (q.filter fun x => match x.start with | .done _ => false | _ => true).length }

/-- The rate limit of an event: not raised again by the same instance within its window. -/
def State.rateOk (s : State) (ev : Ev) (inst : Nat) : Bool :=
  decide (ev.window = 0) || match s.eru.rate.find? fun r => r.1 == (ev.id, ev.src + inst) with
    | some (_, t) => decide (t + ev.window ≤ s.ts)
    | none => true

def State.rateNote (s : State) (ev : Ev) (inst : Nat) : State :=
  if ev.window = 0 then s
  else { s with eru := { s.eru with rate := ((ev.id, ev.src + inst), s.ts) :: s.eru.rate.filter fun r => r.1 != (ev.id, ev.src + inst) } }

/-- An event is captured and counted, with its peat entry, as the rate limit of `key` lets it (R534, R539). -/
def State.noteAs (s : State) (ev : Ev) (key inst detail addr : Nat) : State :=
  if !s.rateOk ev key then s
  else ((s.rateNote ev key).eruCapture ev inst detail addr).peatPush 0x01 ev.cls
    (leBytes 2 ev.id ++ leBytes 3 (ev.src + inst) ++ leBytes 4 detail ++ leBytes 5 addr)

/-- An event of instance `inst`, which its rate limit goes by; a FATAL one acts beside this (R541). -/
def State.note (s : State) (ev : Ev) (inst detail addr : Nat) : State := s.noteAs ev inst inst detail addr

/-- The device state stands while a FATAL event is being handled, until FAULT_STOP is entered (R541). -/
def State.fatalStands (s : State) : Bool :=
  s.eru.fatalActive && (s.sys.st == .train || s.sys.st == .armed || s.sys.st == .running || s.sys.st == .hold)

/-- The other tile of a pair in ASSURED (R211, R212). -/
def State.pairOf (s : State) (t : Nat) : Option Nat :=
  (s.vcolOf (t / 16)).bind fun v => s.ptile (if v < s.halfCols then v + s.halfCols else v - s.halfCols) (t % 16)

/-- Tile `t` has met no fault and no poison in frame `r`, as far as it has run (R213). -/
def State.cleanIn (s : State) (r : RunFrame) (t : Nat) : Bool :=
  let v := (s.vcolOf (t / 16)).getD 0
  !(r.faults.any fun e => e.1 == t) && !r.halted.contains t && !(decide ((s.tileAt t).frame = r.f) && (s.tileAt t).popPoison) &&
    !s.res.outq.any fun e => e.isEnd && e.vcol == v && e.vrow == t % 16 && decide (e.frame = unsigned 16 r.f) && (e.fault || e.poison)

/-- Records of frames are discarded (R456): the faults of an ASSURED frame, whose events waited for the comparison of the pair, are raised by
what the pair has met so far (R181, R213, R214; DEDUCED, log 106). -/
def State.faultsNoted (s : State) (rs : List RunFrame) : State :=
  (rs.filter fun r => r.mode == 1).foldl (fun s r => r.faults.foldl (fun s e =>
    s.note { tileEv e.2 with cls := if (s.pairOf e.1).all (s.cleanIn r) then 1 else 2 } e.1 e.2 0) s) s

/-- Every output in its safe state, committed triggers and markings cancelled, records not yet formed discarded (R25, R456): the frame on the
array goes on, and its records do not count. -/
def State.outputsSafe (s : State) : State :=
  let s := { s with sys := { s.sys with outEn := false } }
  let s := s.each 32 fun g s => s.cancelGen g
  let s := s.each 8 fun n s => s.mkDiscardAll n
  let s := { s with pos := { s.pos with trgEnd := Vector.replicate 16 none },
                    balls := { s.balls with trg := Vector.replicate 16 (if s.sys.laggLost then .hiZ else .low), mrk := Vector.ofFn fun (n : Fin 8) => s.mrkOff n } }
  let s := s.gpoRefresh
  let s := s.faultsNoted s.frm.ended
  let keep := fun (e : OutqEnt) => s.frm.running.any fun r => decide (unsigned 16 r.f = e.frame)
  { s with frm.ended := [], frm.running := s.frm.running.map fun (r : RunFrame) => { r with out := false },
           res := { s.res with outq := s.res.outq.filter keep, held := [], twin := [], checks := [], growing := [], bands := [] } }

/-- Complete every command on the wait list ABORTED (R526), and a census request that holds the queue (R529; DEDUCED, log 22). -/
def State.abortWaits (s : State) : State :=
  let s := (s.jnl.wait ++ s.jnl.run.toList).foldl (fun s q => s.complete q.seq 4 0 0) s
  { s with jnl := { s.jnl with wait := [], run := none },
           frm := { s.frm with switches := [], reload := none },
           psq := { s.psq with swap := none, swapped := [], swapTwice := [] } }

/-- Stop every context (R242). -/
def State.stopContexts (s : State) : State :=
  { s with psq := { s.psq with cx := s.psq.cx.map fun c => { c with st := 0, stack := [], fcode := 0 } } }

/-- Peat entry of a frame event (R533): cause of R203, or 0x80, 0x81 for a run of LATE frames. -/
def State.peatFrame (s : State) (cause dom head : Nat) (f : Int) (n : Nat) : State :=
  s.peatPush 0x05 cause (leBytes 1 dom ++ leBytes 1 head ++ leBytes 8 (unsigned 64 f) ++ leBytes 4 n)

/-- Leaving ARMED and RUNNING: the wait list is aborted, the contexts stop, a run of LATE frames ends, no recipe is in force (R242, R474, R526,
R534). -/
def State.leaveLive (s : State) : State :=
  let s := s.abortWaits.stopContexts
  let s := s.when s.frm.lateRun fun s => s.peatFrame 0x81 s.frm.lateDom 0xFF s.frm.lateLast s.frm.lateN
  let s := s.faultsNoted (s.frm.ended ++ s.frm.running.toList)
  { s with res.outq := [], frm.ended := [], frm.recipe := none, frm.due := [], frm.running := none, frm.staged := [], frm.next := none, frm.dueLine := none,
           frm.lateRun := false, cen.stale := true }

/-- Change the device state (R455): outputs safe on leaving RUNNING, peat entry STATE, PCIE_EVT.STATE; from LOAD on the endpoint serves
configuration requests (R545). -/
def State.goState (s : State) (t : DState) : State :=
  let old := s.sys.st
  let s := s.when (old = .running ∧ t ≠ .running) State.outputsSafe
  let s := s.when ((old = .armed ∨ old = .running) ∧ t ≠ .armed ∧ t ≠ .running) State.leaveLive
  let s := { s with sys := { s.sys with st := t, prev := old, stAt := s.ts, faultN := decide (t = DState.faultStop) },
                    pcie.crs := s.pcie.crs && decide (t.code < 2) }
  (s.peatPush 0x02 0 (leBytes 1 old.code ++ leBytes 1 t.code ++ leBytes 1 s.sys.holdCause ++ leBytes 1 s.sys.resetCause)).orReg
    rPcieEvt 1

/-- FAULT_STOP entered because of a FATAL event: outputs safe, FAULT_N asserted, the record frozen (R541). -/
def State.enterFaultStop (s : State) : State := ((s.outputsSafe.goState .faultStop).freeze 1).1

/-- What a FATAL event does beside its capture (R541). `held`: a FATAL slot was held before. In VERIFY and LOAD it waits for TRAIN, a tamper or
a thermal shutdown too, and in BOOT it is captured alone, as R455 names no other change of state (DEDUCED, log 113). -/
def State.fatalAct (s : State) (ev : Ev) (held : Bool) : State :=
  let tamper := decide (ev.id = evSecTamper.id)
  let now := tamper || decide (ev.id = evThermShutdown.id)
  match s.sys.st with
  | .faultStop | .wiped | .boot => s
  | .verify | .load => { s with sys := { s.sys with fatalPend := true } }
  | _ =>
    if now || held then s.enterFaultStop
    else
      let s := s.outputsSafe
      { s with sys := { s.sys with noDispatch := true },
               eru := { s.eru with fatalActive := true, fatalDue := s.ts + s.rf rEruCtrl 15 0 * usTs } }

/-- Raise an ERU event of instance `inst` of its block: rate limit, capture, count, peat entry (R534, R539), FATAL handling (R541). -/
def State.raise (s : State) (ev : Ev) (inst detail addr : Nat) : State :=
  if !s.rateOk ev inst then s
  else if ev.cls = 3 then (s.note ev inst detail addr).fatalAct ev ((s.slotAt 6).valid || (s.slotAt 7).valid)
  else s.note ev inst detail addr

/-- Peat entry of a security event (R533): kind 1 tamper, 2 life-cycle change, 3 self-test failure. -/
def State.peatSec (s : State) (kind what old new : Nat) : State :=
  s.peatPush 0x0A kind (leBytes 1 what ++ leBytes 1 old ++ leBytes 1 new ++ leBytes 1 0 ++ leBytes 2 (unsigned 16 s.clk.tLd) ++
    leBytes 2 (s.rf rClkMon1 15 0) ++ leBytes 2 (s.rf rClkMon1 31 16))

/-- Peat entry of a lock change of a domain (R533). -/
def State.peatLock (s : State) (d : Nat) (old new : Lock) : State :=
  s.peatPush 0x04 d (leBytes 1 1 ++ leBytes 1 old.code ++ leBytes 1 new.code ++ leBytes 1 (s.dom d).motion.code ++
    leBytes 8 (unsigned 64 (s.coordNow d)))

/-- Peat entry of a coordinate step (R65, R533). -/
def State.peatStep (s : State) (d : Nat) (step : Int) : State :=
  s.peatPush 0x04 d (leBytes 1 2 ++ leBytes 1 (s.dom d).lock.code ++ leBytes 1 (s.dom d).lock.code ++
    leBytes 1 (s.dom d).motion.code ++ leBytes 8 (unsigned 64 step))

end Sys2Proof.Machine
end

