-- ==== Sys2Proof/Machine/Bands.lean ====
section
/-! DEFINITION. Heads and their output lines (R115, R121, R124, R127), and the blind bands of R203 and R273. -/
namespace Sys2Proof.Machine

/-- Trigger generator of the head whose lead lane is `n`, its domain, its sensor planes and its output planes (R107, R115). -/
def State.headGen (s : State) (n : Nat) : Nat := s.rf (rIglLHead n) 28 24
def State.headDom (s : State) (n : Nat) : Nat := s.gDom (s.headGen n)
def State.headPlanes (s : State) (n : Nat) : Nat := s.rf (rIglLHead n) 17 16 + 1
def State.headNopl (s : State) (n : Nat) : Nat := s.headPlanes n * s.gNph (s.headGen n)
/-- PIXELS, OUT_PIXELS, OWN_HI, OWN_LO of a head (R124). -/
def State.headPixels (s : State) (n : Nat) : Nat := s.rf (rIglLLine n) 16 0
def State.outPixels (s : State) (n : Nat) : Nat := s.rf (rLcuSOutw n) 15 0
def State.ownHi (s : State) (n : Nat) : Nat := s.rf (rLcuSOutw n) 31 16
def State.ownLo (s : State) (n : Nat) : Nat := if s.rbit (rLcuSStitchL n) 31 then s.rf (rLcuSStitchL n) 10 0 else 0
/-- OPITCH of a head, nm (R121). -/
def State.opitch (s : State) (n : Nat) : Nat := s.dPitch (s.headDom n) * (s.rf (rLcuSCtrl n) 23 20 + 1)
/-- y_m of a head (R121). -/
def State.lineY (s : State) (n : Nat) (m : Int) : Int := s.dGrid (s.headDom n) + m * (s.opitch n : Int)
/-- The lead lane served by generator `g`: the lane its CTRL names. -/
def State.genLead (s : State) (g : Nat) : Nat := s.gLane g

/-- Directory entry of the head with lead lane `n` in table set `ts` (R127), as an offset in the set. -/
def dirEntry (b : List Byte) (n : Nat) : Option Nat :=
  (List.range 32).findSome? fun i => if fieldAt b (32 * i) 1 = n then some (32 * i) else none

/-- A directory field of `k` bytes at offset `o`. -/
def State.dirField (s : State) (ts n o k : Nat) : Nat :=
  let b := s.tabBytes ts
  match dirEntry b n with
  | some e => fieldAt b (e + o) k
  | none => 0

/-- BAR_X of a head under the table set of recipe `r`. -/
def State.barX (s : State) (r n : Nat) : Nat := s.dirField (s.rcpTS r) n 20 4

/-- Output pitch of the frame domain under recipe `r`: that of its assigned heads, all equal (R183). -/
def State.rcpOpitch (s : State) (r : Nat) : Nat :=
  match s.rcpHeads r with
  | h :: _ => s.opitch h
  | [] => s.dPitch (s.rcpFdom r)

/-- Y0 of a line of the frame domain of recipe `r`. -/
def State.rcpLineY (s : State) (r : Nat) (m : Int) : Int := s.dGrid (s.rcpFdom r) + m * (s.rcpOpitch r : Int)

/-- Frames of height `b` that hold at least one line from `first` to `next` - 1. -/
def framesOf (b : Nat) (first next : Int) : Nat :=
  if b = 0 then 0 else ((next - 1) / (b : Int) - first / (b : Int) + 1).toNat

/-- The blind band of lines `first` to `next` - 1 of the frame domain under recipe `r` and `mode` (R203, R272); `out`: its record counts. -/
def State.bandOf (s : State) (r mode : Nat) (out : Bool) (cause detail head x xn : Nat) (first next : Int) : Band :=
  let b := s.rcpB r
  { cause := cause, detail := detail, head := head, x := x, xn := xn, frame := if b = 0 then 0 else first / (b : Int),
    nframes := framesOf b first next, first := first, next := next, y0 := s.rcpLineY r first, y1 := s.rcpLineY r next, recipe := r,
    mode := mode, fdom := s.rcpFdom r, out := out }

/-- The same band over other lines. -/
def State.bandSpan (s : State) (g : Band) (first next : Int) : Band :=
  s.bandOf g.recipe g.mode g.out g.cause g.detail g.head g.x g.xn first next

/-- Its span is one head's or the whole bar's: such spans join (R203). -/
def Band.joins (g : Band) : Bool := g.head != 0xFF || (g.x == 0 && g.xn == 0xFFFFFFFF)

/-- Two bands that differ in their lines alone, and whose lines adjoin or overlap. -/
def Band.touches (g h : Band) : Bool :=
  { g with frame := h.frame, nframes := h.nframes, first := h.first, next := h.next, y0 := h.y0, y1 := h.y1 } == h &&
    decide (g.first ≤ h.next) && decide (h.first ≤ g.next)

/-- Report a blind band (R203): it joins the growing ones that it adjoins. What covers 64 whole frames is ready, and a new record continues
the span (R273). -/
def State.bandAdd (s : State) (g : Band) : State :=
  let b := s.rcpB g.recipe
  if g.next ≤ g.first ∨ b = 0 ∨ !s.live then s
  else if !g.joins then { s with res := { s.res with bands := s.res.bands ++ [g] } }
  else
    let near := s.res.growing.filter g.touches
    let first := near.foldl (fun a x => min a x.first) g.first
    let next := near.foldl (fun a x => max a x.next) g.next
    let f0 : Int := first / (b : Int)
    let n := ((next - f0 * (b : Int)) / (64 * (b : Int))).toNat
    let cut := fun (k : Nat) => max first ((f0 + 64 * (k : Int)) * (b : Int))
    let full := (List.range n).map fun k => s.bandSpan g (cut k) (cut (k + 1))
    let rest := if cut n < next then [s.bandSpan g (cut n) next] else []
    { s with res := { s.res with growing := (s.res.growing.filter fun x => !g.touches x) ++ rest, bands := s.res.bands ++ full } }

/-- A blind band over the owned columns of a head (R273), under the recipe and mode of its first line. -/
def State.bandHead (s : State) (cause detail n : Nat) (first next : Int) : State :=
  let (r, mode) := s.recAt first
  s.bandAdd (s.bandOf r mode (s.sys.st = .running) cause detail n (s.barX r n + s.ownLo n) (s.ownHi n - s.ownLo n) first next)

/-- The growing bands that pass `p` have stopped growing. -/
def State.bandsStop (s : State) (p : Band → Bool) : State :=
  { s with res := { s.res with bands := s.res.bands ++ s.res.growing.filter p, growing := s.res.growing.filter fun g => !p g } }

/-- Whole frames that were not run end below line `m`, which a frame that runs begins. -/
def Band.dropsBelow (m : Int) (g : Band) : Bool := (g.cause ≤ 3 || g.cause == 9) && decide (g.next ≤ m)

/-- The first line of the head at or beyond coordinate `x`. -/
def State.lineAtOrAfter (s : State) (n : Nat) (x : Int) : Int :=
  if s.opitch n = 0 then 0 else -((s.dGrid (s.headDom n) - x) / (s.opitch n : Int))

/-- The NOT_ACQUIRED band of a head that the recipe assigns: its output lines whose y lies from `x0` up to, not including, `x1` (R65). -/
def State.bandLost (s : State) (n : Nat) (x0 x1 : Int) : State :=
  let m := s.lineAtOrAfter n x0
  s.when (s.rcpHead (s.recAt m).1 n) fun s => s.bandHead 10 0 n m (s.lineAtOrAfter n x1)

end Sys2Proof.Machine
end

