-- ==== Sys2Proof/Machine/FrameBase.lean ====
section
/-! DEFINITION. Frames of a recipe: which recipe a frame runs under, falling due, overspeed bands, drops (R183 to R206). -/
namespace Sys2Proof.Machine

/-- ACLK in MHz at a step (R190). -/
def aclkMHz (st : Nat) : Nat := [1800, 1600, 1400, 1200, 900].getD st 900

/-- First line after the frame of recipe `r` that begins at line `m`. -/
def State.nextFrameLine (s : State) (r : Nat) (m : Int) : Int := m + (s.rcpB r : Int)

/-- The boundary C_f of the frame that begins at line `m` (R185). -/
def State.boundary (s : State) (r : Nat) (m : Int) : Int := s.rcpLineY r (s.nextFrameLine r m) + s.rcpBndOfs r

/-- The first line of the next frame to dispatch: the oldest frame due, else the next to become due. -/
def State.refreshNext (s : State) : State :=
  let n := match s.frm.due with
    | e :: _ => some e.line
    | [] => s.frm.dueLine
  { s with frm := { s.frm with next := n } }

/-- The stream engines give up what they hold for the next frame. -/
def State.unstage (s : State) : State :=
  { s with frm.staged := [], tile := s.tile.map fun (t : Tile) => { t with engine := [], strPos := 0, strWait := [] } }

/-- Drop an undispatched frame (R199 to R201, R205, R208): counted, reported as a blind band, entered in the peat record. Only the next frame
has staged words. -/
def State.frameDrop (s : State) (e : DueFrame) (cause : Nat) : State :=
  let s := s.when (s.frm.next = some e.line) State.unstage
  let s := { s with frm.due := s.frm.due.filter fun x => x.line != e.line }
  let s := if cause = 1 then s.addSat rPsqFrmDrop 31 16 1
    else if cause = 2 then s.addSat rPsqFrmDrop 15 0 1
    else if cause = 3 then s.addWrap rPsqFrmOvsp 1
    else s.addSat rPsqFrmSwitch 15 0 1
  let s := if cause = 3 then s.orReg rPsqFrmEvt 4 else s.when (cause ≤ 2) fun s => s.orReg rPsqFrmEvt 2
  let s := s.when (cause ≤ 2) fun s => s.raise evFrmDrop 0 cause (unsigned 64 e.f)
  let s := s.when (cause = 9) fun s =>
    { s with frm := { s.frm with reload := s.frm.reload.map fun r => { r with drops := r.drops + 1 },
                                 switchDrops := if s.frm.reload.isSome then s.frm.switchDrops else e.line :: s.frm.switchDrops } }
  let s := s.bandAdd (s.bandOf e.recipe e.mode (s.sys.st = .running) cause 0 0xFF 0 0xFFFFFFFF e.line (s.nextFrameLine e.recipe e.line))
  (s.peatFrame cause (s.rcpFdom e.recipe) 0xFF e.f 1).refreshNext

/-- The overspeed band for effective speed 1,800 v ÷ F (R204, R205): the highest band reached; a band is left for a lower one only
below 0.98 of its threshold. A recipe without the band in force leaves it at once. -/
def State.ovBand (s : State) (r : Nat) (v : Nat) (old : Nat) : Nat :=
  let f := aclkMHz s.frm.step
  let hit := fun (n : Nat) => decide (s.rcpOvV r n ≠ 0) && decide (s.rcpOvV r n * f ≤ v * 1800)
  let n := if hit 3 then 3 else if hit 2 then 2 else if hit 1 then 1 else 0
  if n < old ∧ s.rcpOvV r old ≠ 0 ∧ 98 * s.rcpOvV r old * f ≤ 100 * (v * 1800) then old else n

/-- Frame `f` of recipe `r` is kept in overspeed band `band` (R204). -/
def State.frameKept (s : State) (r band : Nat) (f : Int) : Bool := band == 0 || bitN (s.rcpOvP r band) (f % 16).toNat

/-- A copy of the sets is readable (R450). -/
def State.sysCopyUp (s : State) : Bool :=
  (decide ((s.gdcAt 0).st = 2) && (s.gdcAt 0).syscopy) || (decide ((s.gdcAt 1).st = 2) && (s.gdcAt 1).syscopy)

/-- The cause of a drop: every frame of a recipe whose reload cannot proceed, as no copy of the sets can be read, is dropped with cause
SWITCH (R450). -/
def State.dropCause (s : State) (e : DueFrame) (cause : Nat) : Nat := if !s.sysCopyUp && s.reloadAhead e.line then 9 else cause

/-- Undispatched frames under LATE for which more frames than the elasticity allows have fallen due are dropped (R199). -/
def State.lateLimit (s : State) : State :=
  (s.frm.due.filter fun x => decide (s.rcpK x.recipe + 1 ≤ x.after) && !s.rcpSlipDrop x.recipe).foldl
    (fun s x => s.frameDrop x (s.dropCause x 2)) s

/-- The frame of recipe `r` that begins at line `m` falls due (R185, R199, R204). -/
def State.fallDue (s : State) (r mode : Nat) (m : Int) : State :=
  let f := m / (s.rcpB r : Int)
  let v := (s.dom (s.rcpFdom r)).velUm
  let band := s.ovBand r v.natAbs s.frm.band
  let s := s.when (band ≠ s.frm.band) fun s => s.raise evFrmOverspeed 0 band 0
  let e : DueFrame := { f := f, recipe := r, mode := mode, line := m, due := s.ts, vel := v, late := false, after := 0 }
  let s := { s with frm := { s.frm with band := band, dueLine := some (s.nextFrameLine r m),
                                        due := s.frm.due.map fun (x : DueFrame) => { x with after := x.after + 1 } } }
  let s := if s.frameKept r band f then ({ s with frm.due := s.frm.due ++ [e] } : State).refreshNext else s.frameDrop e (s.dropCause e 3)
  s.lateLimit

/-- Frames fall due while their boundaries lie at or below the high-water mark of the frame domain (R185). -/
def State.framesDueN : Nat → State → State
  | 0, s => s
  | k + 1, s =>
    match s.frm.dueLine with
    | none => s
    | some m =>
      let (r, mode) := s.recAt m
      if s.live ∧ s.rcpB r ≠ 0 ∧ s.boundary r m ≤ (s.dom (s.rcpFdom r)).hwm then State.framesDueN k (s.fallDue r mode m) else s

/-- More than the frames of recipe `r` from line `m` on that its domain's high-water mark makes due. -/
def State.dueBound (s : State) (m : Int) (r : Nat) : Nat :=
  let b : Int := ((s.rcpB r * s.rcpOpitch r : Nat) : Int)
  if b = 0 then 0 else (((s.dom (s.rcpFdom r)).hwm - s.boundary r m) / b).toNat + 2

/-- Frames the high-water mark of domain `d` makes due, under the recipe in force and those of the switches ahead. -/
def State.framesDue (s : State) (d : Nat) : State :=
  if s.fdom.map s.rootDom = some d then
    match s.frm.dueLine with
    | none => s
    | some m => s.framesDueN (sumN (((s.recAt m).1 :: (s.frm.switches.filter fun w => !w.isMode).map (·.recipe)).map (s.dueBound m)))
  else s

/-- The lines of generator `g` whose targets lie above `old` and at or below `x`, and that no trigger, committed or fired,
acquires. -/
def State.passedLines (s : State) (g : Nat) (old x : Int) : List Int :=
  let pitch : Int := (s.dPitch (s.gDom g) : Int)
  if pitch = 0 then []
  else
    let o := s.dGrid (s.gDom g) + s.gHofs g
    let div : Int := (s.gDiv1 g : Int)
    let k0 := roundUpTo ((old - o) / pitch + 1) (s.gDiv1 g)
    let n := (((x - o) / pitch - k0) / div + 1).toNat
    let gone := fun (k : Int) => match (s.gen g).lastK with
      | some z => decide (k ≤ z)
      | none => false
    ((List.range n).map fun (i : Nat) => k0 + div * (i : Int)).filter fun k =>
      !gone k && !(s.gen g).trigs.any fun t => !t.cancelled && decide (t.k = k)

/-- The high-water mark passes lines of the generators that are gated off: they are not acquired (R255). -/
def State.noteGated (s : State) (d : Nat) (old x : Int) : State :=
  s.each 32 fun g s =>
    if s.live && s.gEn g && atV s.psq.gateOff g false && s.rootDom (s.gDom g) == s.rootDom d then
      let ks := s.passedLines g old x
      s.updGen g fun e => { e with gated := e.gated ++ ks }
    else s

/-- Raise the high-water mark of a domain to `x` (R46); frames may fall due. -/
def State.raiseHwm (s : State) (d : Nat) (x : Int) : State :=
  if (s.dom d).hwm < x then
    let old := (s.dom d).hwm
    ((s.updDom d fun m => { m with hwm := x }).noteGated d old x).framesDue d
  else s

/-- The frames of the frame domain begin afresh: none is due, none staged, and no blind band grows on. -/
def State.framesClear (s : State) : State :=
  (({ s with frm := { s.frm with next := none, dueLine := none, due := [], switchDrops := [] } } : State).unstage).bandsStop fun _ => true

/-- A frame domain that locks begins its frames afresh (R188). -/
def State.framesRestart (s : State) (d : Nat) : State := if s.fdom.map s.rootDom = some d then s.framesClear else s

/-- The first output line written after the lock fixes the first frame (R188). -/
def State.framesBegin (s : State) (d : Nat) (m : Int) : State :=
  if s.fdom = some d ∧ s.frm.dueLine = none then
    match s.frm.recipe with
    | some r =>
      let b := s.rcpB r
      if b = 0 then s else ({ s with frm := { s.frm with dueLine := some (roundUpTo m b) } } : State).refreshNext.framesDue (s.rootDom d)
    | none => s
  else s

end Sys2Proof.Machine
end

