-- ==== Sys2Proof/Machine/FabSend.lean ====
section
/-! DEFINITION. Sending on the fabric: routes, fragments and transmit queues (R300, R306 to R308, R316, R317). -/
namespace Sys2Proof.Machine

/-- The peer's HELLO shows another use than this port's (R295). -/
def State.useDiffers (s : State) (p : Nat) : Bool :=
  (s.fportAt p).peerSerial.isSome && (s.fportAt p).peerUse != s.rf (rFabPCtrl p) 1 0

/-- A fabric or mirror port that is up, and whose peer has the same use for it: otherwise it carries HELLO alone (R295). -/
def State.portUp (s : State) (p : Nat) : Bool := decide ((s.fportAt p).st = 2) && !s.useDiffers p

/-- Send a control block (R298): TXTIME is the fabric time now. -/
def State.sendCtl (s : State) (p ctype : Nat) (body : List Byte) : State :=
  s.send (.fabCtl p (ctlWords ctype s.fab.addr s.fabricTime body))

/-- The routing entry of an address. -/
def State.route (s : State) (a : Nat) : Option Route := s.fab.table.find? fun r => r.addr == a

/-- Routes over port `p` are valid: its link is up, and has not gone down since the MAP of the routing table (R318). -/
def State.routeUp (s : State) (p : Nat) : Bool := s.portUp p && !s.fab.dead.contains p

/-- The port a block to address `a` leaves by: the first choice, or its alternate from the loss of that port to a new MAP (R316, R318). -/
def State.routePort (s : State) (a : Nat) (down : Bool) : Option Nat :=
  match s.route a with
  | none => none
  | some r =>
    let first := if down then r.dpri else r.pri
    let alt := if down then r.dalt else r.alt
    match first with
    | some p => if s.routeUp p then some p else match alt with
      | some q => if s.routeUp q then some q else none
      | none => none
    | none => none

/-- Put a block on the transmit queue of its class at port `p`. -/
def State.queueBlk (s : State) (p : Nat) (b : FabBlk) (inPort : Option Nat) : State :=
  { s with fport := updV s.fport p fun q =>
      { q with tx := updV q.tx b.tc fun t => { t with waiting := t.waiting ++ [{ blk := b, inPort := inPort }] } } }

/-- A block without a valid route is discarded and counted (R307). The event, of the fabric core's block (R539), is rate-limited by the port the
block came in on, and by 4 for a block of this device (R321; DESIGN CHOICE, log 100). -/
def State.unreach (s : State) (a : Nat) (inPort : Option Nat) : State :=
  ((s.addWrap rFabUnreach 1).orReg rFabEvt 2).noteAs evFabUnreach (inPort.getD 4) 0 a 0

/-- Tree ports a broadcast leaves by (R308). -/
def State.treePorts (s : State) (inPort : Option Nat) : List Nat :=
  (List.range 4).filter fun p => s.treePort p && s.portUp p && inPort != some p

/-- Route a block that this device holds: a broadcast on every tree port but the one it came in on, any other by its route. -/
def State.sendBlk (s : State) (b : FabBlk) (inPort : Option Nat) : State :=
  if b.bcast then (s.treePorts inPort).foldl (fun s p => s.queueBlk p b inPort) s
  else match s.routePort b.dst b.down with
    | some p => s.queueBlk p b inPort
    | none => s.unreach b.dst inPort

/-- Pieces of at most 512 bytes, at least one (R306). -/
def pieces (p : List Byte) : List (List Byte) :=
  (List.range (max 1 ((p.length + 511) / 512))).map fun i => (p.drop (512 * i)).take 512

/-- The blocks of a message of this device. -/
def State.msgBlks (s : State) (tc mtype dst : Nat) (bcast : Bool) (payload : List Byte) : List FabBlk :=
  let ps := pieces payload
  (List.range ps.length).map fun i =>
    { tc := tc, mtype := mtype, down := false, bcast := bcast, dst := if bcast then 0 else dst, hops := 0,
      nosrc := s.fab.addr.isNone, src := s.fab.addr.getD 0, len := (ps.getD i []).length, msgid := atV s.fab.msgId tc 0,
      frag := i, nfrag := ps.length - 1, payload := ps.getD i [] }

/-- Take the next message number of a class. -/
def State.nextMsg (s : State) (tc : Nat) : State := { s with fab.msgId := updV s.fab.msgId tc fun n => (n + 1) % 65536 }

/-- Send a message (R306): to every device, to an address, or, when the address is this device's own, to itself. A device without an
address sends none but TOPO (R314). -/
def State.fabOut (s : State) (tc mtype dst : Nat) (bcast : Bool) (payload : List Byte) : State :=
  if !s.rbit rFabCtrl 0 ∨ s.fab.addr.isNone then s
  else
    let s := s.send (.fabMsg tc mtype (if bcast then 0x8000 else dst) payload)
    if !bcast ∧ s.fab.addr = some dst then
      { s with fab.inbox := s.fab.inbox ++ [{ src := dst, nosrc := false, tc := tc, mtype := mtype, payload := payload }] }
    else
      let bs := s.msgBlks tc mtype dst bcast payload
      bs.foldl (fun s b => s.sendBlk b none) (s.nextMsg tc)

/-- Send a message to the neighbour at port `p` (TOPO hop by hop, R312; mirror slots and frame checks, R317). A device without an
address sends TOPO alone (R314). -/
def State.fabOutPort (s : State) (p tc mtype : Nat) (payload : List Byte) : State :=
  if !s.rbit rFabCtrl 0 ∨ !s.portUp p ∨ (s.fab.addr.isNone ∧ mtype ≠ 0x20) then s
  else
    let dst := ((s.fportAt p).peerAddr).getD 0
    let s := s.send (.fabMsg tc mtype dst payload)
    let bs := s.msgBlks tc mtype dst false payload
    bs.foldl (fun s b => s.queueBlk p b none) (s.nextMsg tc)

/-- Take the oldest message of a type from those received whole. -/
def State.takeMsg (s : State) (p : FabMsg → Bool) : Option (FabMsg × State) :=
  match s.fab.inbox.find? p with
  | some m => some (m, { s with fab.inbox := s.fab.inbox.erase m })
  | none => none

/-- The mirror port for line `m`: chosen by m mod 2, the other when it is down, none when both are (R216). -/
def State.mirrorPortFor (s : State) (m : Int) : Option Nat :=
  match s.mirrorPorts with
  | [p, q] =>
    let first := if m % 2 = 0 then p else q
    let other := if m % 2 = 0 then q else p
    if s.portUp first then some first else if s.portUp other then some other else none
  | _ => none

end Sys2Proof.Machine
end

