-- ==== Sys2Proof/Machine/Lcu.lean ====
section
/-! DEFINITION. Conditioning slices: corrections, the line generator, fills, stitching, table banks, slot writes (R114 to R137). -/
namespace Sys2Proof.Machine

/-- PFMT depth of a head in bits (R82). -/
def State.headDepth (s : State) (n : Nat) : Nat := s.rf (rIglLHead n) 15 8

/-- Bank `i` of a slice. -/
def Slice.bankAt (c : Slice) (i : Nat) : Bank := atV c.banks i { ts := none, ready := false }

/-- The bank that serves output line `m` of lead slice `n` (R129): the one with the table set of the line's recipe, be it the active bank or
still the other one; not ready where neither holds it. Heads off the frame domain have the active bank. The lead slice's bank decides for a ganged
head (DESIGN CHOICE, log 103). -/
def State.bankFor (s : State) (n : Nat) (m : Int) : Bank :=
  let c := s.sliceAt n
  if s.fdom = some (s.headDom n) then
    let ts := s.rcpTS (s.recAt m).1
    if (c.bankAt c.bank).ts = some ts then c.bankAt c.bank
    else if (c.bankAt (1 - c.bank)).ts = some ts then c.bankAt (1 - c.bank)
    else { ts := some ts, ready := false }
  else c.bankAt c.bank

/-- The table set of the bank that serves output line `m`. -/
def State.tabFor (s : State) (n : Nat) (m : Int) : Nat := ((s.bankFor n m).ts).getD 0

/-- The other slices of the head with lead slice `n` (R114). -/
def State.ganged (s : State) (n : Nat) : List Nat :=
  (List.range 32).filter fun k => s.lcuRole k == 2 && s.headGen k == s.headGen n

/-- Apply a change of event bits or counters to every slice of a head (R114; DESIGN CHOICE, log 88). -/
def State.headEach (s : State) (n : Nat) (f : Nat → State → State) : State := (n :: s.ganged n).foldl (fun s k => f k s) s

/-- Change a slice. -/
def State.updSlice (s : State) (n : Nat) (f : Slice → Slice) : State := { s with slice := updV s.slice n f }

/-- Change an output plane of a slice. -/
def State.updPlane (s : State) (n q : Nat) (f : PlaneGen → PlaneGen) : State :=
  s.updSlice n fun x => { x with planes := updV x.planes q f }

/-- Output plane `q` of lead slice `n`. -/
def State.planeAt (s : State) (n q : Nat) : PlaneGen := atV (s.sliceAt n).planes q PlaneGen.init

/-- Byte offset of the table named by directory field `o` of head `n`, `none` when it is absent (R127). -/
def State.tabOfs (s : State) (ts n o : Nat) : Option Nat :=
  let v := s.dirField ts n o 4
  if v = 0 then none else some v

/-- Flat-field correction of one pixel and whether it was clamped (R118). -/
def ffPixel (v e : Nat) : Nat × Bool :=
  let gain : Int := ((e / 65536 : Nat) : Int)
  let y := (((v : Int) - signed 16 e) * gain + 8192) / 16384
  if y < 0 then (0, true) else if 65535 < y then (65535, true) else (y.toNat, false)

/-- Flat-field correction of a line of output plane `q`: pixels and the count of clamped ones. -/
def flatField (b : List Byte) (ofs npix q : Nat) (v : List Nat) : List Nat × Nat :=
  let r := (List.range v.length).map fun j => ffPixel (v.getD j 0) (fieldAt b (ofs + (q * npix + j) * 4) 4)
  (r.map (·.1), (r.filter (·.2)).length)

/-- Defect-pixel entries of sensor plane `sp` (R119): pixel and method, in ascending order. -/
def defectMap (b : List Byte) (ofs : Nat) (counts : List Nat) (sp : Nat) : List (Nat × Nat) :=
  let skip := sumN (counts.take sp)
  (List.range (counts.getD sp 0)).map fun i =>
    let e := fieldAt b (ofs + (skip + i) * 4) 4
    (bitsN e 14 0, bitsN e 18 16)

/-- Replace defect pixels in ascending order, in place (R119). An entry beyond the line does nothing. -/
def replaceDefects (listed : List Nat) : List (Nat × Nat) → List Nat → List Nat
  | [], v => v
  | (p, m) :: r, v =>
    let l := if p = 0 then none else v[p - 1]?
    let h := if listed.contains (p + 1) then none else v[p + 1]?
    let x := match m, l, h with
      | 0, some a, some b => (a + b + 1) / 2
      | 2, _, some b => b
      | 2, some a, none => a
      | _, some a, _ => a
      | _, none, some b => b
      | _, none, none => 0
    replaceDefects listed r (if p < v.length then v.set p x else v)

/-- Cross-direction resampling (R120). -/
def crossMap (b : List Byte) (ofs outPix sp : Nat) (v : List Nat) : List Nat :=
  (List.range outPix).map fun j =>
    let e := fieldAt b (ofs + (sp * outPix + j) * 4) 4
    let i := bitsN e 31 17
    let f := bitsN e 16 8
    if bitN e 0 then
      let a := v.getD i 0
      let c := v.getD (i + 1) a
      (a * (512 - f) + c * f + 256) / 512
    else 0

/-- Steps 1 to 5 of R116 on one line plane of head `n`: pixels in containers and the clamped count. `m`: the output line at or after it,
whose tables apply (DESIGN CHOICE, log 89). -/
def State.condition (s : State) (n sp q : Nat) (m : Int) (raw : List Nat) : List Nat × Nat :=
  let ts := s.tabFor n m
  let b := s.tabBytes ts
  let c := rLcuSCtrl n
  let v := raw.map fun p => p * 2 ^ (16 - s.headDepth n)
  let (v, sat) := match s.rbit c 11, s.tabOfs ts n 4 with
    | true, some o => flatField b o (s.headPixels n) q v
    | _, _ => (v, 0)
  let v := match s.rbit c 12, s.tabOfs ts n 8 with
    | true, some o =>
      let counts := [s.dirField ts n 2 2, s.dirField ts n 24 2, s.dirField ts n 26 2, s.dirField ts n 28 2]
      let m := defectMap b o counts sp
      replaceDefects (m.map (·.1)) m v
    | _, _ => v
  let v := match s.rbit c 13, s.tabOfs ts n 12 with
    | true, some o => crossMap b o (s.outPixels n) sp v
    | _, _ => v
  (v, sat)

/-- PH_OFS of output plane `q`, in units of 10 nm (R121). -/
def State.phOfs (s : State) (n q : Nat) : Int :=
  let r := if q < 2 then rLcuSPhofs01 n else rLcuSPhofs23 n
  if q % 2 = 0 then signed 16 (s.rf r 15 0) else signed 16 (s.rf r 31 16)

/-- Stitching of head `n` with its left neighbour, and sending of strips to its right (R124, R125). -/
def State.stitchL (s : State) (n : Nat) : Bool := s.rbit (rLcuSStitchL n) 31
def State.stitchR (s : State) (n : Nat) : Bool := s.rbit (rLcuSStitchR n) 31
def State.edgeTo (s : State) (n : Nat) : Nat := s.rf (rLcuSCtrl n) 31 24 * usTs

/-- Flags of R132. -/
def flIncomplete : Nat := 1
def flInterp : Nat := 16
def flStitchMissing : Nat := 32

/-- The head's own columns stand (R126): STITCH_MISSING, counted and reported. -/
def State.stitchMiss (s : State) (n : Nat) (l : OutLine) : State × OutLine :=
  let s := (s.headEach n fun k s => (s.addSat (rLcuSFaults k) 15 0 1).orReg (rLcuSEvt k) 16).raise evLcuStitchMiss n n 0
  (s, { l with flags := l.flags ||| flStitchMissing, waits := false })

/-- Blend a line with the strip of its left neighbour, or let it stand when either line is filled (R126). -/
def State.stitchLine (s : State) (n : Nat) (l : OutLine) (x : Strip) : State × OutLine :=
  if l.filled ∨ bitN x.flags 0 then s.stitchMiss n l
  else
    let ts := s.tabFor n l.m
    let b := s.tabBytes ts
    let o := s.dirField ts n 16 4
    let pix := (List.range l.pix.length).map fun i =>
      let r := l.pix.getD i 0
      if i < s.ownLo n then
        let w := bitsN (fieldAt b (o + 2 * i) 2) 11 0
        (x.pix.getD i 0 * (4096 - w) + r * w + 2048) / 4096
      else r
    (s, { l with pix := pix, waits := false })

/-- A strip of line `m`, plane `q` reaches head `n` (R126). -/
def State.stripArrive (s : State) (n : Nat) (x : Strip) : State :=
  let pl := s.planeAt n x.q
  let mine := (s.sliceAt n).lines.find? fun l => l.m == x.m && l.q == x.q
  let late := s.headEach n fun k s => s.orReg (rLcuSEvt k) 32
  match mine with
  | some l =>
    if !l.waits ∨ l.formed + s.edgeTo n < s.ts then late
    else
      let (s, l') := s.stitchLine n l x
      s.updSlice n fun c => { c with lines := c.lines.map fun e => if e.m = x.m ∧ e.q = x.q then l' else e }
  | none =>
    match pl.mNext with
    | some k => if x.m < k then late else s.updSlice n fun c => { c with strips := c.strips ++ [x] }
    | none => s.updSlice n fun c => { c with strips := c.strips ++ [x] }

/-- Send the edge strip of a line to the right-hand head: directly on this device, on TC2 otherwise (R125, R309). -/
def State.sendStrip (s : State) (n : Nat) (l : OutLine) : State :=
  let pix := (l.pix.drop (s.ownHi n)).take (s.outPixels n - s.ownHi n)
  let dev := s.rf (rLcuSStitchR n) 30 22
  let head := s.rf (rLcuSStitchR n) 21 17
  if s.fab.addr.getD dev = dev then s.stripArrive head { m := l.m, q := l.q, flags := l.flags, pix := pix }
  else
    s.fabOut 2 0x08 dev false
      (leBytes 8 (unsigned 64 l.m) ++ leBytes 1 l.q ++ leBytes 1 head ++ leBytes 1 n ++ leBytes 1 0 ++ leBytes 2 l.flags ++
        leBytes 2 pix.length ++ leBytes 16 0 ++ pix.flatMap fun p => leBytes 2 p)

/-- An output line is formed: it is sent to the right, waits for its strip or is blended at once, and joins the lines to write. -/
def State.formLine (s : State) (n : Nat) (l : OutLine) : State :=
  let early := (s.sliceAt n).strips.find? fun x => x.m == l.m && x.q == l.q
  let s := s.updSlice n fun c => { c with strips := c.strips.filter fun x => x.q != l.q || decide (l.m < x.m) }
  let (s, l) := if s.stitchL n then
      match early with
      | some x => s.stitchLine n l x
      | none => (s, { l with waits := true })
    else (s, l)
  let s := s.updSlice n fun c => { c with lines := c.lines ++ [l] }
  s.when (s.stitchR n) fun s => s.sendStrip n l

/-- A filled output line (R123): its pixels by INC_POL, its flags with REASON. -/
def State.filledLine (s : State) (n q : Nat) (m : Int) (reason flags line : Nat) : OutLine :=
  let pix := match s.rf (rLcuSCtrl n) 17 16, (s.planeAt n q).lastGood with
    | 1, some p => p
    | _, _ => List.replicate (s.outPixels n) 0
  { m := m, q := q, y := s.lineY n m, line := line, flags := flags ||| flIncomplete ||| (reason * 128), sat := 0,
    pix := pix, filled := true, formed := s.ts, waits := false }

/-- A filled line is counted and reported (R123, R129, R137). -/
def State.noteFill (s : State) (n reason : Nat) : State :=
  let bits := 1 + (if reason = 2 then 2 else 0) + (if reason = 3 then 64 else 0)
  let s := s.headEach n fun k s => (s.addSat (rLcuSFaults k) 31 16 1).orReg (rLcuSEvt k) bits
  (s.when (reason = 3) fun s => s.raise evLcuTblLate n n 0).raise evLcuFill n n 0

/-- An output line is filled (R123, R129). -/
def State.fillLine (s : State) (n q : Nat) (m : Int) (reason flags line : Nat) : State :=
  (s.noteFill n reason).formLine n (s.filledLine n q m reason flags line)

/-- Form output line `m` from the input lines used, or fill it: REASON 3 before 1 (R123, R129; DEDUCED, log 10). What INC_POL 1 repeats is the line
as it was before stitching (R123; DESIGN CHOICE, log 103). -/
def State.emitLine (s : State) (n q : Nat) (m : Int) (pix : Option (List Nat)) (flags sat line : Nat) : State :=
  if !(s.bankFor n m).ready then s.fillLine n q m 3 flags line
  else match pix with
    | none => s.fillLine n q m 1 flags line
    | some p =>
      let s := s.updPlane n q fun g => { g with lastGood := some p }
      s.formLine n { m := m, q := q, y := s.lineY n m, line := line, flags := flags, sat := sat, pix := p, filled := false,
                     formed := s.ts, waits := false }

/-- One output line of the generator of R122, at y between the previous input and `x`. In LINEAR an incomplete input line whose weight is 0 does not
fill the line, and SAT_CNT is the sum of both lines' counts, whatever the weights (R123, R132; DESIGN CHOICE, log 103). -/
def State.genLine (s : State) (n q : Nat) (prev : Option InLine) (x : InLine) (m : Int) : State :=
  let c := rLcuSCtrl n
  let y := s.lineY n m
  let mode := s.rf c 15 14
  let gap : Int := ((s.rf (rLcuSRlines n) 31 24 * s.opitch n : Nat) : Int)
  let near := match prev with
    | some p => if y - p.s ≤ x.s - y then p else x
    | none => x
  let pass : State :=
    if y = x.s then s.emitLine n q m x.pix x.flags x.sat x.line
    else s.fillLine n q m (if (s.bankFor n m).ready then 2 else 3) 0 near.line
  match prev with
  | none => pass
  | some p =>
    if mode = 0 ∨ gap < x.s - p.s then pass
    else if mode = 1 then s.emitLine n q m near.pix (near.flags ||| flInterp) near.sat near.line
    else
      let d := x.s - p.s
      let w := ((y - p.s) * 256 + d / 2) / d
      let flags := p.flags ||| x.flags ||| (if w ≠ 0 ∧ w ≠ 256 then flInterp else 0)
      let pix := if w = 0 then p.pix else if w = 256 then x.pix
        else match p.pix, x.pix with
          | some a, some b => some ((List.range a.length).map fun j =>
              ((a.getD j 0 : Int) + (((b.getD j 0 : Int) - (a.getD j 0 : Int)) * w + 128) / 256).toNat)
          | _, _ => none
      s.emitLine n q m pix flags (p.sat + x.sat) near.line

/-- An input line of output plane `q` in arrival order (R122). -/
def State.onInput (s : State) (n q : Nat) (x : InLine) : State :=
  let g := s.planeAt n q
  let order := match g.prev with
    | some p => decide (x.s ≤ p.s)
    | none => false
  if order then
    ((s.headEach n fun k s => s.orReg (rLcuSEvt k) 4).updSlice n fun c => { c with stampOrder := c.stampOrder + 1 }).raise evLcuStampOrder n n 0
  else if s.opitch n = 0 then s
  else
    let op : Int := (s.opitch n : Int)
    let grid := s.dGrid (s.headDom n)
    let m0 := match g.mNext with
      | some m => m
      | none => -((grid - x.s) / op)
    let cnt := ((x.s - grid) / op - m0 + 1).toNat
    let s := s.each cnt fun i s => s.genLine n q g.prev x (m0 + (i : Int))
    s.updPlane n q fun g => { g with mNext := some (m0 + (cnt : Int)), prev := some x }

/-- A line of head `n` is complete (pixels of each sensor plane) or declared incomplete (`none`): R105, R116. -/
def State.lcuLine (s : State) (n : Nat) (x : Int) (line phase flags : Nat) (planes : Option (List (List Nat))) : State :=
  if !s.rbit (rLcuSCtrl n) 0 then s
  else s.each (s.headPlanes n) fun sp s =>
    let q := sp * s.gNph (s.headGen n) + phase
    if s.headNopl n ≤ q ∨ 4 ≤ q then s
    else
      let st := x + 10 * s.phOfs n q
      match planes with
      | none => s.onInput n q { s := st, line := line, flags := flags, sat := 0, pix := none }
      | some ps =>
        let (v, sat) := s.condition n sp q (s.lineAtOrAfter n st) (ps.getD sp [])
        let s := s.when (sat ≠ 0) fun s => s.headEach n fun k s => s.orReg (rLcuSEvt k) 8
        s.onInput n q { s := st, line := line, flags := flags, sat := sat, pix := some v }

/-- SLOT of R131, in bytes. -/
def slotBytes (outPix : Nat) : Nat := (64 + 2 * outPix + 255) / 256 * 256

/-- Port, and byte address within it, of the slot of line `m`, plane `q` of head `n` (R131). -/
def State.slotPort (s : State) (n : Nat) : Nat := s.rf (rLcuSRing n) 31 29
def State.ringLines (s : State) (n : Nat) : Nat := s.rf (rLcuSRlines n) 15 0
def State.slotAddr (s : State) (n q : Nat) (m : Int) : Nat :=
  let sl := slotBytes (s.outPixels n)
  let ring := (s.ringLines n * sl + 65535) / 65536 * 65536
  s.rf (rLcuSRing n) 16 0 * 65536 + q * ring + (m % (s.ringLines n : Int)).toNat * sl

/-- Key of byte `a` of port `p` in the GDDR7 store. -/
def gddrKey (p a : Nat) : Nat := p * 2 ^ 36 + a

/-- The 64-byte slot header (R132). BAR_X comes from the directory of the bank that serves the line. -/
def State.slotHeader (s : State) (n : Nat) (l : OutLine) : List Byte :=
  leBytes 8 (unsigned 64 l.y) ++ leBytes 8 (unsigned 64 l.m) ++ leBytes 8 s.ts ++ leBytes 4 l.line ++ leBytes 2 l.flags ++
    leBytes 1 l.q ++ leBytes 1 n ++ leBytes 2 (s.ownLo n) ++ leBytes 2 (s.ownHi n) ++ leBytes 4 (s.dirField (s.tabFor n l.m) n 20 4) ++
    leBytes 2 (sat 16 l.sat) ++ leBytes 22 0

/-- Bytes of a whole slot after its header: pixels, then zeros (R132). -/
def State.slotPixels (s : State) (n : Nat) (l : OutLine) : List Byte :=
  fitBytes (slotBytes (s.outPixels n) - 64) (l.pix.flatMap fun p => leBytes 2 p)

/-- Store bytes of a slot, pixels first and header last; a port that is not UP takes nothing (R133, R447, R448). -/
def State.storeSlot (s : State) (n q : Nat) (m : Int) (header pixels : List Byte) : State :=
  let p := s.slotPort n
  if (s.gdcAt p).st ≠ 2 then s
  else
    let a := gddrKey p (s.slotAddr n q m)
    { s with gddr := memPutBytes ramDefault (memPutBytes ramDefault s.gddr (a + 64) pixels) a header }

/-- Note a written line for the frames that need it (R134), and begin the frames of its domain at the first one (R188). -/
def State.noteSlot (s : State) (n q : Nat) (m : Int) (flags : Nat) : State :=
  let keep := fun (e : SlotInfo) => !(e.head == n && e.q == q && (decide (e.m + (s.ringLines n : Int) ≤ m) || decide (e.m = m)))
  let s := { s with frm.slots := { head := n, q := q, m := m, flags := flags } :: s.frm.slots.filter keep }
  let s := s.updPlane n q fun g => { g with wFirst := some (g.wFirst.getD m), wLast := some m }
  match s.frm.recipe with
  | some r => if s.rcpHead r n then s.framesBegin (s.headDom n) m else s
  | none => s

/-- A slot of a TWIN primary goes to the secondary (R216): over the mirror port for its line, or dropped. -/
def State.mirrorSlot (s : State) (n : Nat) (l : OutLine) (header : List Byte) : State :=
  if s.twinRole = 1 ∧ (s.recAt l.m).2 = 2 ∧ s.fdom = some (s.headDom n) then
    match s.mirrorPortFor l.m with
    | some p => s.fabOutPort p 2 0x09 (header ++ fitBytes (2 * s.outPixels n) (l.pix.flatMap fun p => leBytes 2 p))
    | none => s
  else s

/-- The oldest line of a slice that may be written: it does not wait, and no earlier line of its plane does. -/
def writable : List OutLine → List Nat → Option OutLine
  | [], _ => none
  | l :: r, held => if l.waits ∨ held.contains l.q then writable r (l.q :: held) else some l

/-- Write a line's slot (R133). -/
def State.writeLine (s : State) (n : Nat) (l : OutLine) : State :=
  let s := s.updSlice n fun c => { c with lines := c.lines.filter fun e => !(e.m == l.m && e.q == l.q) }
  let h := s.slotHeader n l
  let s := (s.storeSlot n l.q l.m h (s.slotPixels n l)).headEach n fun k s => s.addWrap (rLcuSLines k) 1
  (s.mirrorSlot n l h).noteSlot n l.q l.m l.flags

/-- Lead lanes: the KSL or CoaXPress lanes of LANE_IDX 0. -/
def State.leadLanes (s : State) : List Nat := (List.range 32).filter fun n => s.lcuRole n == 1

/-- The switches that stand: of those at one frame boundary the last (R30). -/
def standing : List Switch → List Switch
  | [] => []
  | w :: r => if w.ms.isSome && r.any (fun x => x.ms == w.ms) then standing r else w :: standing r

/-- The table set that the slices with active table set `act` need next (R129, R130): that of the first waiting recipe switch which stands
and names another one. -/
def State.nextTable (s : State) (act : Option Nat) : Option Nat :=
  ((standing (s.frm.switches.filter fun w => !w.isMode)).map fun w => s.rcpTS w.recipe).find? fun t => act != some t

/-- The other bank is to hold table set `ts` (R129, R130): unless it holds or loads it, a load of it begins there, in place of what it
held. A set that the bank holds from earlier use is not loaded again (DESIGN CHOICE, log 103). -/
def Slice.wantTable (c : Slice) (ts : Nat) : Slice :=
  let o := 1 - c.bank
  if (c.bankAt o).ts = some ts then c
  else { c with banks := setV c.banks o { ts := some ts, ready := false }, loads := (c.loads.filter fun b => b != o) ++ [o] }

/-- Every slice looks to its other bank, after a switch is accepted and after one has taken effect (R129, R130). -/
def State.wantTables (s : State) : State :=
  { s with slice := s.slice.map fun (c : Slice) => match s.nextTable (c.bankAt c.bank).ts with
      | some t => c.wantTable t
      | none => c }

/-- At the frame boundary of a switch to table set `ts` the banks change over, whether or not the load has ended (R129, R130). -/
def Slice.changeTable (c : Slice) (ts : Nat) : Slice :=
  if (c.bankAt c.bank).ts = some ts then c else { c.wantTable ts with bank := 1 - c.bank }

/-- The load of a slice ends (R129, R130): its bank is ready, and the next load runs. -/
def Slice.loadDone (c : Slice) : Slice :=
  match c.loads with
  | [] => c
  | o :: r => { c with banks := updV c.banks o fun b => { b with ready := true }, loads := r }

end Sys2Proof.Machine
end

