-- ==== Sys2Proof/Machine/LaneOps.lean ====
section
/-! DEFINITION. Ingress lanes: training, the selective repeat, the trigger record and the assembly of lines (R71 to R112). -/
namespace Sys2Proof.Machine

/-- Change a lane. -/
def State.updLane (s : State) (n : Nat) (f : Lane → Lane) : State := { s with lane := updV s.lane n f }

/-- IGL_Lnn_CTRL fields: personality, automatic retraining, free-running head; the lane's generator and index. -/
def State.lPers (s : State) (n : Nat) : Nat := s.rf (rIglLCtrl n) 1 0
def State.lAuto (s : State) (n : Nat) : Bool := s.rbit (rIglLCtrl n) 4
def State.lFree (s : State) (n : Nat) : Bool := s.rbit (rIglLCtrl n) 3
def State.lIdx (s : State) (n : Nat) : Nat := s.rf (rIglLHead n) 23 21
def State.lLanes (s : State) (n : Nat) : Nat := s.rf (rIglLHead n) 20 18 + 1
def State.laneUp (s : State) (n : Nat) : Bool := decide ((s.laneAt n).phase = .up)
def State.lineTo16 (s : State) (n : Nat) : Int := ((16 * usTs * s.rf (rIglLLto n) 31 16 : Nat) : Int)

/-- The bit boundary of the back channel nearest the fire time `t` (1/16 TS), the earlier when midway (R89). A boundary lies at TS 0 on
every lane (DESIGN CHOICE, log 121). -/
def ttsBit (t : Int) : Int := -((1024 - 250 * t) / 2048)

/-- TTS go out on lane `n`: it is UP and leads a head whose generator has KSL among its outputs (R106). -/
def State.ttsLane (s : State) (n : Nat) : Bool := s.laneUp n && decide (s.genLead (s.headGen n) = n) && decide (2 ≤ s.gOut (s.headGen n))

/-- The TTS of the next committed trigger that goes out on lane `n` (R90). One whose cancel is on its way may still fire (R13). -/
def State.nextTts (s : State) (n : Nat) : Option Int :=
  if s.ttsLane n then
    (s.gen (s.headGen n)).trigs.foldl (fun a t => match a with
      | some b => some (min b (ttsBit t.fire))
      | none => some (ttsBit t.fire)) none
  else none

/-- Put symbols on the back channel of lane `n` from bit time `t`, IDLE before them and, before a TTS, filler up to the boundary (R85, R89). -/
def State.putSyms (s : State) (n : Nat) (t : Int) (syms : List Sym) : State :=
  let l := s.laneAt n
  let (rd, last, fill) := l.idleTo t
  let (codes, rd) := code10s rd syms
  (s.send (.lane n t (fillBits last fill) syms codes)).updLane n fun l =>
    { l with bcEnd := t + 10 * (syms.length : Int), rd := rd, lastBit := (codes.getLastD 0).getLsbD 0 }

/-- The end of the IDLE pair in progress: where lane `n` can start a message. -/
def State.bcStart (s : State) (n : Nat) : Int :=
  let e := (s.laneAt n).bcEnd
  if s.nowBit ≤ e then e else e - 20 * ((e - s.nowBit) / 20)

/-- A message of `syms` symbols may start on lane `n` at bit time `t` (R90): on a lane with TTS only when it ends before the next committed
one, which is judged no sooner than in the 20 bits before its start (DESIGN CHOICE, log 122). -/
def State.mayStart (s : State) (n : Nat) (t : Int) (syms : Nat) : Bool :=
  !s.ttsLane n || (decide (t ≤ s.nowBit + 20) && match s.nextTts n with
    | some b => decide (t + 10 * (syms : Int) ≤ b)
    | none => true)

/-- Send the messages that wait on lane `n`, oldest first, each once it may start (R90). -/
def State.flushBackN (n : Nat) : Nat → State → State
  | 0, s => s
  | f + 1, s =>
    match (s.laneAt n).bcq with
    | [] => s
    | (mtype, p) :: r =>
      let t := s.bcStart n
      let syms := bcMessage mtype p
      if s.mayStart n t syms.length then
        State.flushBackN n f ((s.putSyms n t syms).updLane n fun l =>
          { l with bcq := r, mgEnd := if mtype = 0x30 then t + 10 * (syms.length : Int) else l.mgEnd })
      else s
def State.flushBack (s : State) (n : Nat) : State := State.flushBackN n (s.laneAt n).bcq.length s

/-- One TS unit passes: the counter counts, and messages that waited for their lane leave (R90). -/
def State.passTs (s : State) : State := ({ s with ts := s.ts + 1 } : State).each 32 fun n s => s.flushBack n

/-- Send a back-channel message on a lane with the KSL personality (R86, R87), when it may start (R90). -/
def State.backChannel (s : State) (n mtype : Nat) (p : List Byte) : State :=
  if s.lPers n = 1 then (s.updLane n fun l => { l with bcq := l.bcq ++ [(mtype, p)] }).flushBack n else s

/-- The trigger record of generator `g`. -/
def State.record (s : State) (g : Nat) : List TrigRec := atV s.heads g []
def State.setRecord (s : State) (g : Nat) (l : List TrigRec) : State := { s with heads := setV s.heads g l }

/-- Add an entry: the last 64 are kept, and older ones whose line is still open. -/
def pushRec (r : TrigRec) (l : List TrigRec) : List TrigRec :=
  let l := r :: l
  l.take 64 ++ (l.drop 64).filter fun e => !e.done

/-- Change the entry at place `i` of a record. -/
def State.updRec (s : State) (g i : Nat) (f : TrigRec → TrigRec) : State := s.setRecord g ((s.record g).modify i f)

/-- An entry that a line can match: one of the last 64 triggers, or one whose line has begun to arrive (R103). -/
def State.inRecord (s : State) (g i : Nat) : Bool :=
  match (s.record g)[i]? with
  | some r => !r.free && (decide (i < 64) || r.wire.isSome)
  | none => false

/-- Count ORPHAN, or STAMP_ERR (R101, R103, R108). -/
def State.orphan (s : State) (n : Nat) : State :=
  ((s.addSat (rIglLMatch n) 31 16 1).orReg (rIglLEvt n) 4).raise evIglOrphan n n 0
def State.stampErr (s : State) (n : Nat) : State :=
  ((s.addSat (rIglLMatch n) 15 0 1).orReg (rIglLEvt n) 8).raise evIglOrphan n n 0

/-- Pixels from `pos` to `stop` covered by blocks that follow one another, as one list (R81, R82). -/
def chain (blks : List LineBlk) (stop : Nat) : Nat → Nat → Option (List Nat)
  | 0, pos => if pos = stop then some [] else none
  | f + 1, pos =>
    if pos = stop then some []
    else match blks.find? fun b => b.ofs == pos && !b.pix.isEmpty with
      | some b =>
        let p := b.pix.take (stop - pos)
        (chain blks stop f (pos + p.length)).map fun r => p ++ r
      | none => none

/-- The pixels of every sensor plane of head `n`, once every segment has arrived up to its LAST block (R105). -/
def State.wholeLine (s : State) (n : Nat) (blks : List LineBlk) : Option (List (List Nat)) :=
  let npix := s.headPixels n
  let nl := s.lLanes n
  (List.range (s.headPlanes n)).mapM fun p =>
    let bs := blks.filter fun b => b.plane == p
    if (List.range nl).all fun i => bs.any fun b => b.idx == i && b.last then chain bs npix bs.length 0 else none

/-- LCU flags of a line: COAST, CREEP, FREE, TRG_BAD (R132). -/
def TrigRec.flags (r : TrigRec) : Nat := 2 * b2n r.coast + 4 * b2n r.creep + 8 * b2n r.free + 64 * b2n r.bad

/-- A line passed while gated off is handed on as not acquired once every earlier line of its generator is (R123, R255). -/
def State.flushGatedN : Nat → State → Nat → State
  | 0, s, _ => s
  | n + 1, s, g =>
    match (s.gen g).gated with
    | [] => s
    | k :: r =>
      let x := s.lineX (s.gDom g) k
      let waits := ((s.gen g).trigs.any fun t => !t.cancelled && decide (t.k < k)) ||
        (s.record g).any fun e => !e.done && decide (e.x < x)
      if waits then s
      else
        let s := s.updGen g fun e => { e with gated := r }
        State.flushGatedN n (if s.gOut g = 0 then s else s.lcuLine (s.genLead g) x (unsigned 32 k) (s.phaseOf g k) 0 none) g
def State.flushGated (s : State) (g : Nat) : State := State.flushGatedN (s.gen g).gated.length s g
def State.flushAllGated (s : State) : State := s.each 32 fun g s => s.flushGated g

/-- Hand a line on, complete with its pixels or declared incomplete (R105). The lead lane of its head counts it (DESIGN CHOICE, log 86). -/
def State.deliver (s : State) (g i : Nat) (planes : Option (List (List Nat))) : State :=
  match (s.record g)[i]? with
  | none => s
  | some r =>
    if r.done then s
    else
      let n := s.genLead g
      let s := s.updRec g i fun r => { r with done := true, blks := [] }
      let s := if planes.isSome then s.addWrap (rIglLLines n) 1 else (s.addWrap (rIglLLineInc n) 1).orReg (rIglLEvt n) 1
      ((s.flushGated g).lcuLine n r.x r.line r.phase r.flags planes).flushGated g

/-- Declare incomplete every open line of generator `g` that `p` picks, oldest first. -/
def State.declareAll (s : State) (g : Nat) (p : TrigRec → Bool) : State :=
  let idx := ((List.range (s.record g).length).filter fun i =>
    match (s.record g)[i]? with
    | some r => !r.done && p r
    | none => false).reverse
  idx.foldl (fun s i => s.deliver g i none) s

/-- Add a block to the line at place `i`, and hand the line on once it is whole. -/
def State.addBlk (s : State) (g i n : Nat) (b : LineBlk) : State :=
  let s := s.updRec g i fun r => { r with blks := r.blks ++ [b] }
  match (s.record g)[i]? with
  | none => s
  | some r => match s.wholeLine n r.blks with
    | some ps => s.deliver g i (some ps)
    | none => s

/-- Place of the oldest entry that `p` picks. -/
def State.oldest (s : State) (g : Nat) (p : TrigRec → Bool) : Option Nat :=
  ((List.range (s.record g).length).reverse).find? fun i =>
    match (s.record g)[i]? with
    | some r => p r
    | none => false

/-- Place of the oldest entry of the trigger record of R103 that `p` picks. -/
def State.oldestTrig (s : State) (g : Nat) (p : TrigRec → Bool) : Option Nat :=
  ((List.range (s.record g).length).reverse).find? fun i =>
    match (s.record g)[i]? with
    | some r => s.inRecord g i && p r
    | none => false

/-- Pixels of a payload at depth `d`, packed LSB first (R82). -/
def unpackPix (d : Nat) (p : List Byte) : List Nat :=
  if d = 0 then []
  else
    let w := leNat p
    (List.range (8 * p.length / d)).map fun j => bitsN w (j * d + d - 1) (j * d)

/-- Line block fields taken from its header, the line descriptor when it is FIRST, and the TS of its start word. -/
structure BlkIn where
  lane : Nat
  first : Bool
  last : Bool
  plane : Nat
  ofs : Nat
  line : Nat
  desc : List Byte
  pix : List Nat
  start : Nat
  deriving DecidableEq, Repr

/-- The block as a part of its line: pixels up to the end of the lane's segment, the padding of the last block cut off (R81, R82). -/
def BlkIn.blk (s : State) (b : BlkIn) : LineBlk :=
  let seg := s.headPixels b.lane / s.lLanes b.lane
  { idx := s.lIdx b.lane, plane := b.plane, ofs := b.ofs, first := b.first, last := b.last,
    pix := b.pix.take ((s.lIdx b.lane + 1) * seg - b.ofs) }

/-- A block of a free-running head (R104): its line is stamped by the first block on LANE_IDX 0; one that gets none keeps the stamp of its
first block on another lane (DESIGN CHOICE, log 121). FREE_LAT is rounded down to TS units (DESIGN CHOICE, log 86). -/
def State.freeBlock (s : State) (b : BlkIn) : State :=
  let n := b.lane
  let g := s.headGen n
  let x := s.coordAt (s.headDom n) ((b.start : Int) - (nsTs (s.rf (rIglLLto n) 15 0) : Int))
  match s.oldest g fun r => r.free && r.wire == some b.line with
  | some i =>
    match (s.record g)[i]? with
    | some r =>
      if r.done then s.orphan n
      else
        let s := s.when (s.lIdx n = 0 ∧ !r.blks.any fun c => c.idx == 0) fun s => s.updRec g i fun r => { r with x := x }
        s.addBlk g i n (b.blk s)
    | none => s
  | none =>
    let r : TrigRec := { line := b.line, x := x, phase := 0, coast := false, creep := false, free := true,
                         fire := 16 * (b.start : Int), wire := some b.line, stampErr := false, bad := false, seen := [], done := false, blks := [] }
    (s.setRecord g (pushRec r (s.record g))).addBlk g 0 n (b.blk s)

/-- The descriptor of a line differs from its record (R84, R103). -/
def TrigRec.differs (r : TrigRec) (d : List Byte) : Bool :=
  fieldAt d 0 8 != unsigned 64 r.x || bitsN (fieldAt d 12 1) 3 0 != r.phase + 4 * b2n r.coast + 8 * b2n r.creep ||
    bitN (fieldAt d 12 1) 5

/-- Match a block to the trigger record (R103), by LINE, or for TRG_BAD to the oldest entry not yet matched that fired before, declared
incomplete or not. Blocks of lines with TRG_BAD all carry LINE 0xFFFF_FFFF: a FIRST one belongs to the oldest such line that has not shown
its plane and LANE_IDX, every other one to the oldest such line still open (DESIGN CHOICE, log 103). Where none is open, a block with that
LINE that no record has, come before its FIRST one, begins such a line. -/
def State.matchBlock (s : State) (b : BlkIn) : Option Nat :=
  let g := s.headGen b.lane
  if b.first && bitN (fieldAt b.desc 12 1) 4 then
    match s.oldestTrig g fun r => r.bad && !r.seen.contains (b.plane, s.lIdx b.lane) with
    | some i => some i
    | none => s.oldestTrig g fun r => r.wire.isNone && decide (r.fire < 16 * (b.start : Int))
  else
    match s.oldestTrig g fun r => !r.done && !r.bad && r.line == b.line with
    | some i => some i
    | none =>
      match s.oldestTrig g fun r => r.bad && !r.done && b.line == 0xFFFFFFFF with
      | some i => some i
      | none =>
        match s.oldestTrig g fun r => r.line == b.line with
        | some i => some i
        | none => s.oldestTrig g fun r => b.line == 0xFFFFFFFF && r.wire.isNone && decide (r.fire < 16 * (b.start : Int))

/-- A block of a line that matches no record: the line is counted in ORPHAN once, its later blocks are discarded (R103). A FIRST block of a
plane and LANE_IDX already seen begins another line (DESIGN CHOICE, log 103). -/
def State.orphanLine (s : State) (b : BlkIn) : State :=
  let g := s.headGen b.lane
  let key := (b.plane, s.lIdx b.lane)
  let l := atV s.orphans g []
  let same := fun (o : OrphanLine) => o.line == b.line && !(b.first && o.seen.contains key)
  if l.any same then
    { s with orphans := setV s.orphans g (l.map fun o => if b.first && same o then { o with seen := key :: o.seen } else o) }
  else
    ({ s with orphans := setV s.orphans g (({ line := b.line, seen := if b.first then [key] else [] } :: l).take 64) } : State).orphan b.lane

/-- A good line block reaches line assembly (R103 to R105). A block of a line already complete is discarded and counted as one of a line
declared incomplete is (DESIGN CHOICE, log 121). -/
def State.lineBlock (s : State) (b : BlkIn) : State :=
  if s.lFree b.lane then s.freeBlock b
  else
    let g := s.headGen b.lane
    let n := b.lane
    match s.matchBlock b with
    | none => s.orphanLine b
    | some i =>
      match (s.record g)[i]? with
      | none => s
      | some r =>
        let bad := b.first && bitN (fieldAt b.desc 12 1) 4
        let noLine := b.line == 0xFFFFFFFF && r.line != b.line
        let err := !r.stampErr && (bad || (!b.first && noLine) || (b.first && r.differs b.desc))
        let s := s.when err fun s => s.stampErr n
        let s := s.updRec g i fun r => { r with wire := some b.line, stampErr := r.stampErr || err, bad := r.bad || bad || (!b.first && noLine),
                                                seen := if bad then (b.plane, s.lIdx n) :: r.seen else r.seen }
        if r.done then s.orphan n else s.addBlk g i n (b.blk s)

/-- A trigger has fired: its entry in the record, and its way out on the lane (R58, R89, R91, R103, R106, R111). Answers whether it
went out on the lane. `ball`: it went out at its ball. A CoaXPress trigger packet leaves whatever the state of the head's first lane
(DESIGN CHOICE, log 103). -/
def State.laneTrigger (s : State) (g : Nat) (t : Trig) (ball : Bool) : State × Bool :=
  let out := s.gOut g
  let n := s.genLead g
  let line := unsigned 32 t.k
  let s := if out = 0 then s else
    s.setRecord g (pushRec { line := line, x := t.x, phase := t.phase, coast := t.coast, creep := t.creep, free := false,
                             fire := t.fire, wire := none, stampErr := false, bad := false, seen := [], done := false, blks := [] } (s.record g))
  let p := leBytes 1 (t.phase + 4 * b2n t.coast + 8 * b2n t.creep) ++ leBytes 1 0 ++ leBytes 4 line ++ leBytes 8 (unsigned 64 t.x)
  let unsent := fun (s : State) => s.addSat (rIglLRt n) 15 0 1
  if 2 ≤ out then
    if s.lPers n = 1 then
      if s.laneUp n then (s.putSyms n (ttsBit t.fire) (bcTrigger p), true) else (unsent s, false)
    else if s.lPers n = 2 then ((s.send (.cxpTrigger n t.fire (s.freeNat 8))).tick 1, true)
    else (s, false)
  else if out = 1 ∧ ball ∧ s.lPers n = 1 then
    if s.laneUp n then (s.backChannel n 0x02 p, false) else (unsent s, false)
  else (s, false)

/-- LINE_TO has passed for an entry (R105). -/
def State.lineDue (s : State) (n : Nat) (r : TrigRec) : Bool := decide (r.fire + s.lineTo16 n ≤ 16 * (s.ts : Int))

/-- SEQ of the wire as a whole count near the window (R97). -/
def Lane.absSeq (l : Lane) (w : Nat) : Int :=
  let o := (w + 65536 - l.base % 65536) % 65536
  if o < 32768 then (l.base : Int) + (o : Int) else (l.base : Int) + (o : Int) - 65536

/-- BITMAP of an ACK (R99). -/
def Lane.bitmap (l : Lane) : Nat := maskOf 64 fun i => l.got.contains (l.base + i)

/-- Send the present ACK of lane `n` (R99). -/
def State.sendAck (s : State) (n : Nat) : State :=
  let l := s.laneAt n
  let p := leBytes 2 l.base ++ leBytes 8 l.bitmap
  (s.backChannel n 0x10 p).updLane n fun l => { l with ack := p, ackCnt := 0, ackFirst := none, lastAck := s.ts }

/-- Repeat the latest ACK of lane `n` (R99). -/
def State.repeatAck (s : State) (n : Nat) : State :=
  (s.backChannel n 0x10 (s.laneAt n).ack).updLane n fun l => { l with lastAck := s.ts }

/-- Request missing SEQs, at most 8 in a message, each counted (R87, R100). -/
def State.requestN (n : Nat) : Nat → State → List Nat → State
  | 0, s, _ => s
  | f + 1, s, qs =>
    if qs.isEmpty then s
    else
      let now := qs.take 8
      let s := s.backChannel n 0x11 (leBytes 1 now.length ++ now.flatMap fun q => leBytes 2 q)
      let s := s.addWrap (rIglLResendReq n) now.length
      let mark := fun (m : Missing) => if now.contains m.seq then { m with reqs := m.reqs + 1, last := s.ts } else m
      let s := s.updLane n fun l => { l with missing := l.missing.map mark }
      State.requestN n f s (qs.drop 8)

def State.request (s : State) (n : Nat) (qs : List Nat) : State := State.requestN n (qs.length + 1) s qs

/-- SEQs below `nxt` are shown by a SEQ inside the window (R100): those not received good become missing and are requested. -/
def State.showSeq (s : State) (n : Nat) (shown nxt : Int) : State :=
  let l := s.laneAt n
  if shown < (l.base : Int) ∨ (l.base : Int) + 64 ≤ shown then s
  else
    let top := nxt.toNat
    if top ≤ l.top then s
    else
      let news := ((List.range (top - l.top)).map (l.top + ·)).filter fun q => decide (l.base ≤ q) && !l.got.contains q
      let s := s.updLane n fun l => { l with top := top, missing := l.missing ++ news.map fun q => { seq := q, reqs := 0, last := s.ts } }
      s.request n news

/-- ACK_BASE moves past settled SEQs (R99). -/
def Lane.advance (l : Lane) : Nat → Lane
  | 0 => l
  | f + 1 =>
    if l.got.contains l.base ∨ l.lost.contains l.base then
      ({ l with base := l.base + 1, got := l.got.erase l.base, top := max l.top (l.base + 1),
                lost := l.lost.filter fun q => decide (l.base < q + 32768) } : Lane).advance f
    else l

/-- A line that lacks a lost block is declared incomplete when the good blocks on both sides carry it (R105). -/
def State.lostLine (s : State) (n q : Nat) : State :=
  let l := s.laneAt n
  let below := l.goods.foldl (fun a e => if e.1 < q then (match a with
    | some (b, x) => (if b < e.1 then some e else some (b, x))
    | none => some e) else a) (none : Option (Nat × Nat))
  let above := l.goods.foldl (fun a e => if q < e.1 then (match a with
    | some (b, x) => (if e.1 < b then some e else some (b, x))
    | none => some e) else a) (none : Option (Nat × Nat))
  match below, above with
  | some (_, x), some (_, y) =>
    if x = y ∧ x < 2 ^ 32 then
      let g := s.headGen n
      match s.oldest g fun r => r.wire == some x && !r.done with
      | some i => s.deliver g i none
      | none => s
    else s
  | _, _ => s

/-- A missing SEQ is declared lost (R100). -/
def State.loseSeq (s : State) (n q : Nat) : State :=
  let s := s.updLane n fun l => { l with missing := l.missing.filter (fun m => m.seq != q), lost := q :: l.lost }
  let s := ((s.addWrap (rIglLBlkLost n) 1).orReg (rIglLEvt n) 2).raise evIglBlockLost n n 0
  let s := s.lostLine n q
  let b := (s.laneAt n).base
  let s := s.updLane n fun l => l.advance 64
  s.when (decide (b ≠ (s.laneAt n).base)) fun s => s.sendAck n

/-- Reset of the repeat at LINK_UP and when a lane goes down (R95, R97). -/
def Lane.resetSeq (l : Lane) : Lane :=
  { l with base := 0, got := [], lost := [], missing := [], top := 0, goods := [], ackCnt := 0, ackFirst := none }

/-- Begin an attempt at BC_LOCK, where the back channel carries IDLE (R93, R94). A transmitter that was idle starts with negative running
disparity (PRESUMED, log 85). -/
def State.laneAttempt (s : State) (n : Nat) (retrain : Bool) (failed : Nat) : State :=
  let quiet := match (s.laneAt n).phase with
    | .off | .failed => true
    | _ => false
  let s := s.when quiet fun s => s.updLane n fun l => { l with bcEnd := s.nowBit, rd := false, lastBit := false, bcq := [] }
  let s := s.updLane n fun l => { l.resetSeq with phase := .bcLock, retraining := retrain, failed := failed, attempts := l.attempts + 1,
                                                  since := s.ts, capA := none, capPair := none }
  s.when (s.lPers n = 1) fun s => s.putSyms n (s.bcStart n) symIdle

/-- Enter FAILED, the transmitter idle (R93, R94). -/
def State.laneFailed (s : State) (n : Nat) : State :=
  s.updLane n fun l => { l.resetSeq with phase := .failed, retraining := false, since := s.ts, bcq := [] }

/-- A training attempt fails at a limit (R94): LINK_DOWN reason 4, a new attempt, FAILED after the third. -/
def State.laneAttemptFails (s : State) (n : Nat) : State :=
  let s := s.backChannel n 0x22 (leBytes 1 4)
  let l := s.laneAt n
  if 3 ≤ l.failed + 1 then (s.laneFailed n).raise evIglLaneDown n n 0
  else s.laneAttempt n l.retraining (l.failed + 1)

/-- An UP lane goes down (R95): LINK_DOWN with its reason, every open line of its head incomplete, RETRAIN or FAILED. No TTS goes out on it
any more, so LINK_DOWN waits for none (R90, R106). RETRAIN counts the times a lane leaves UP to train again, and BLK_LOST counts no block
that is lost because the lane went down (DESIGN CHOICE, log 86). -/
def State.laneDown (s : State) (n reason : Nat) : State :=
  let s := s.updLane n fun l => { l.resetSeq with phase := .bcLock }
  let s := s.backChannel n 0x22 (leBytes 1 reason)
  let s := (s.orReg (rIglLEvt n) 16).raise evIglLaneDown n n 0
  let s := s.declareAll (s.headGen n) fun r => decide (r.fire ≤ 16 * (s.ts : Int))
  if s.lAuto n ∨ reason = 0 then (s.addSat (rIglLRt n) 31 16 1).laneAttempt n true 0 else s.laneFailed n

/-- The lane is UP: LINK_UP, then an ACK with ACK_BASE 0 (R93). -/
def State.laneGoUp (s : State) (n : Nat) : State :=
  let was := (s.laneAt n).retraining
  let s := s.updLane n fun l => { l.resetSeq with phase := .up, retraining := false, failed := 0, since := s.ts, words := 0, badAt := [],
                                                  syncLoss := false, lastIdle := s.ts }
  let s := (s.backChannel n 0x21 []).sendAck n
  s.when was fun s => (s.orReg (rIglLEvt n) 32).raise evIglRetrainOk n n 0

/-- The TRAIN message of a phase (R93). -/
def LanePhase.trainStep : LanePhase → Option Nat
  | .equalise => some 1
  | .blockLock => some 2
  | .capability => some 3
  | _ => none

/-- Send the current TRAIN message. -/
def State.sendTrain (s : State) (n : Nat) : State :=
  match (s.laneAt n).phase.trainStep with
  | some k => (s.backChannel n 0x20 (leBytes 1 k ++ leBytes 1 (s.rf (rIglLCtrl n) 9 8))).updLane n fun l => { l with lastTrain := s.ts }
  | none => s

/-- Enter a training phase, with its TRAIN message. -/
def State.lanePhase (s : State) (n : Nat) (p : LanePhase) : State :=
  (s.updLane n fun l => { l with phase := p, since := s.ts }).sendTrain n

/-- CAP_A and CAP_B agree with IGL_Lnn_HEAD (R75, R94); their bytes 0 to 7. -/
def State.capAgrees (s : State) (n : Nat) (a : List Byte) : Bool :=
  let h := rIglLHead n
  bitsN (fieldAt a 1 1) 3 0 == 1 && bitsN (fieldAt a 1 1) 6 4 == s.rf h 23 21 && bitsN (fieldAt a 2 1) 2 0 == s.rf h 20 18 &&
    bitsN (fieldAt a 2 1) 4 3 == s.rf h 17 16 && fieldAt a 3 1 == s.rf h 15 8

/-- The configuration of a lane differs from its head's declaration (R94): FAILED at once. -/
def State.capMismatch (s : State) (n : Nat) : State :=
  ((s.backChannel n 0x22 (leBytes 1 3)).laneFailed n).orReg (rIglLEvt n) 64 |>.raise evIglCfgMismatch n n 0
    |>.raise evIglLaneDown n n 0

/-- Header fields of a KSL block (R78) and the conditions of R80; words and checksum are judged by `kslBlockOf`. The reserved fields of R80
are those of the header: a line descriptor with a reserved field set leaves its block good (DESIGN CHOICE, log 103). -/
def State.kslHeaderOk (s : State) (n : Nat) (h : List Byte) : Bool :=
  let bt := fieldAt h 0 1
  let f := fieldAt h 1 1
  let ofs := fieldAt h 6 2
  let seg := s.headPixels n / s.lLanes n
  let lo := s.lIdx n * seg
  bitsN f 3 0 == 1 && !bitN f 7 && !bitN (fieldAt h 4 1) 7 && bitsN (fieldAt h 5 1) 2 0 == 0 && fieldAt h 13 3 == 0 &&
    bitsN (fieldAt h 5 1) 5 3 == s.lIdx n &&
    (if bt = 0x4B then
      decide (bitsN (fieldAt h 5 1) 7 6 < s.headPlanes n) && fieldAt h 12 1 == s.headDepth n && decide (lo ≤ ofs) &&
        decide (ofs < lo + seg) && (ofs - lo) % 128 == 0
    else
      bt == 0x4D && !bitN f 4 && !bitN f 5 && bitsN (fieldAt h 5 1) 7 6 == 0 && ofs == 0 && fieldAt h 8 4 == 0 &&
        fieldAt h 12 1 == 0 && decide (bitsN (fieldAt h 4 1) 6 0 ≤ 15))

/-- A management message arrives: held, or dropped while one is held (R113, MG_DROP). Of a CoaXPress control packet longer than RX_LEN can
say the first 256 bytes are held (DESIGN CHOICE, log 121). -/
def State.mgReceive (s : State) (n : Nat) (p : List Byte) : State :=
  if (s.laneAt n).rxReady then s.orReg (rIglLEvt n) 256
  else s.updLane n fun l => { l with mgRx := p.take 256, mgPos := 0, rxReady := true }

/-- A good block (R99 to R101). -/
def State.goodBlock (s : State) (n : Nat) (h payload : List Byte) (start : Nat) : State :=
  let s := s.addWrap (rIglLBlkGood n) 1
  let s := s.when (bitN (fieldAt h 1 1) 6) fun s => s.addWrap (rIglLBlkResent n) 1
  let s := s.updLane n fun l => { l with ackCnt := l.ackCnt + 1, ackFirst := some (l.ackFirst.getD s.ts) }
  let ackDue := fun (s : State) => s.when (s.rf (rIglLSr n) 31 24 ≤ (s.laneAt n).ackCnt) fun s => s.sendAck n
  let l := s.laneAt n
  let q := l.absSeq (fieldAt h 2 2)
  if q.toNat ∈ l.lost ∧ 0 ≤ q then ackDue (s.orphan n)
  else if q < (l.base : Int) ∨ l.got.contains q.toNat then (s.addWrap (rIglLDup n) 1).sendAck n
  else if (l.base : Int) + 64 ≤ q then ackDue (s.orphan n)
  else
    let k := q.toNat
    let line := bitN (fieldAt h 0 1) 1
    let f := fieldAt h 1 1
    let s := s.updLane n fun l =>
      { l with got := k :: l.got, missing := l.missing.filter (fun m => m.seq != k),
               goods := ((k, if line then fieldAt h 8 4 else 2 ^ 32) :: l.goods).take 256 }
    let s := if line then
        let first := bitN f 4
        s.lineBlock { lane := n, first := first, last := bitN f 5, plane := bitsN (fieldAt h 5 1) 7 6, ofs := fieldAt h 6 2,
                      line := fieldAt h 8 4, desc := if first then payload.take 16 else [],
                      pix := unpackPix (s.headDepth n) (if first then payload.drop 16 else payload), start := start }
      else s.mgReceive n payload
    ackDue ((s.showSeq n q (q + 1)).updLane n fun l => l.advance 64)

/-- A CAP_A or CAP_B word in CAPABILITY (R75, R94): two equal pairs bring the lane UP, a difference from IGL_Lnn_HEAD sends it to FAILED. -/
def State.capWord (s : State) (n v : Nat) : State :=
  let l := s.laneAt n
  let b := leBytes 8 v
  if l.phase ≠ .capability ∨ l.since + 5 * msTs < s.ts then s
  else if fieldAt b 0 1 = 0x2D then
    if s.capAgrees n b then s.updLane n fun l => { l with capA := some b } else s.capMismatch n
  else
    match l.capA with
    | none => s
    | some a =>
      if l.capPair = some (a, b) then
        let s := s.setReg (rIglLCap0 n) (w32 (fieldAt a 4 4))
        let s := s.setReg (rIglLCap1 n) (w32 (fieldAt b 3 2 * 65536 + fieldAt b 1 2))
        s.laneGoUp n
      else s.updLane n fun l => { l with capA := none, capPair := some (a, b) }

/-- An IDLE word (R77, R95, R100). -/
def State.idleWord (s : State) (n v : Nat) : State :=
  let s := s.updLane n fun l => { l with lastIdle := s.ts }
  if s.laneUp n then
    let q := (s.laneAt n).absSeq (bitsN v 23 8)
    s.showSeq n q q
  else s

/-- The receiver of lane `n` takes words: it is enabled, and not disabled by the grade (R4, R93). -/
def State.laneHears (s : State) (n : Nat) : Bool := decide ((s.laneAt n).phase ≠ .off) && !s.laneDisabled n

/-- One word between blocks (R75, R76): IDLE and CAP words act; a data word, a TERM without its block and a control word of unknown type
are ignored and counted in SYNC_ERR, as an invalid sync header is; a start word that no block follows is a bad block (DEDUCED, log 84). -/
def State.kslWord (s : State) (n : Nat) (w : KslWord) : State :=
  if !s.laneHears n then s
  else
  let (r, l) := (s.laneAt n).takeWord w
  let s := s.updLane n fun _ => l
  match r with
  | .ctl v =>
    if v % 256 = 0x1E then s.idleWord n v
    else if v % 256 = 0x2D ∨ v % 256 = 0x2E then s.capWord n v
    else if v % 256 = 0x4B ∨ v % 256 = 0x4D then s.when (s.laneUp n) fun s => s.addWrap (rIglLBlkBad n) 1
    else s.addWrap (rIglLSyncErr n) 1
  | _ => s.addWrap (rIglLSyncErr n) 1

end Sys2Proof.Machine
end

