-- ==== Sys2Proof/Machine/MarkOps.lean ====
section
/-! DEFINITION. The marker scheduler: requests, merging and joining, lateness, commitment, reverse, loss, disabling (R281 to R287). -/
namespace Sys2Proof.Machine

/-- RES_MKn fields: domain, mode, late policy, configured; offset, width and lead in 1/16 TS, least distance in nm (R281). -/
def State.mkDom (s : State) (n : Nat) : Nat := s.rf (rResMkCtrl n) 15 12
def State.mkPol (s : State) (n : Nat) : Bool := s.rbit (rResMkCtrl n) 9
def State.mkSpan (s : State) (n : Nat) : Bool := s.rbit (rResMkCtrl n) 8
def State.mkEn (s : State) (n : Nat) : Bool := s.rbit (rResMkCtrl n) 0 && s.rbit rResMkEn n
def State.mkOfs (s : State) (n : Nat) : Int := s.regS64 (rResMkOfsLo n)
def State.mkWidth16 (s : State) (n : Nat) : Int := ((16 * usTs * s.rf (rResMkTime n) 31 16 : Nat) : Int)
def State.mkLead16 (s : State) (n : Nat) : Int := ((16 * usTs * s.rf (rResMkTime n) 15 0 : Nat) : Int)
def State.mkMind (s : State) (n : Nat) : Int := (((s.reg (rResMkMind n)).toNat * 1000 : Nat) : Int)

/-- Now, and one microsecond, in 1/16 TS. -/
def State.now16 (s : State) : Int := 16 * (s.ts : Int)
def us16 : Int := 12800

/-- Markers on domain `d`. -/
def State.mksOf (s : State) (d : Nat) : List Nat := (List.range 8).filter fun n => s.rootDom (s.mkDom n) == d

/-- A marking's crossings are predicted: LOCKED in TRACK, or COAST, moving forward (R282). -/
def State.mkPred (s : State) (n : Nat) : Bool :=
  let m := s.dom (s.mkDom n)
  decide (0 < m.v) && (decide (m.lock = .coast) || (decide (m.lock = .locked) && decide (m.motion = .track)))

/-- Predicted fire time of target `x` of output `n`: the crossing less LEAD (R282). -/
def State.mkFire (s : State) (n : Nat) (x : Int) : Int := (s.dom (s.mkDom n)).crossTime x - s.mkLead16 n

/-- Count a marking late: LATE, RES_EVT.MRK_LATE, event MRK_LATE (R286, R290). -/
def State.mkCountLate (s : State) (n : Nat) : State :=
  ((s.updMkr n fun m => { m with late := m.late + 1 }).orReg rResEvt 8).raise evMrkLate 0 n 0

/-- Put a marking into the queue in ascending order of T (R284). -/
def insertMk (x : Marking) : List Marking → List Marking
  | [] => [x]
  | m :: r => if x.t < m.t then x :: m :: r else m :: insertMk x r

/-- Send an output event to the LD; its number is the old `nextEv` (R13). -/
def State.sendEvent (s : State) (k : OutKind) (time : Int) : State :=
  { s with pos.toLd := s.pos.toLd ++ [.event { id := s.pos.nextEv, kind := k, time := time }], pos.nextEv := s.pos.nextEv + 1 }

/-- Fire time of a side, once committed. -/
def MkSide.fire : MkSide → Option Int
  | .pending => none
  | .recalled _ => none
  | .committed _ f => some f
  | .done f => some f

def MkSide.isPending : MkSide → Bool
  | .pending => true
  | .recalled _ => true
  | _ => false

/-- The number of the event that this side has, or had before its recall. -/
def MkSide.isEv (id : Nat) : MkSide → Bool
  | .committed i _ => i == id
  | .recalled i => i == id
  | _ => false

def MkSide.isDone : MkSide → Bool
  | .done _ => true
  | _ => false

/-- Commit the start, or the end, of the marking at place `i` of output `n`'s queue. -/
def State.mkCommitStart (s : State) (n i : Nat) (f : Int) : State :=
  let id := s.pos.nextEv
  (s.sendEvent (.mrkOn n) f).updMkr n fun k => { k with queue := k.queue.modify i fun m => { m with start := .committed id f } }

def State.mkCommitEnd (s : State) (n i : Nat) (f : Int) : State :=
  let id := s.pos.nextEv
  (s.sendEvent (.mrkOff n) f).updMkr n fun k => { k with queue := k.queue.modify i fun m => { m with stop := .committed id f } }

/-- Remove the marking at place `i`. -/
def State.mkRemove (s : State) (n i : Nat) : State := s.updMkr n fun k => { k with queue := k.queue.eraseIdx i }

/-- The end of a span whose start fires or fired at `f`: its crossing less LEAD, at least WIDTH after the start, and at least 1 µs
ahead of now so that the LD can take it (R13, R283). -/
def State.mkEndFire (s : State) (n : Nat) (_m : Marking) (f cross : Int) : Int :=
  max (max (cross - s.mkLead16 n) (f + s.mkWidth16 n)) (s.now16 + us16)

/-- Commit what output `n` may commit now (R282): markings in ascending order, the fuel being the length of the queue. -/
def State.mkPlanN : Nat → State → Nat → Nat → State
  | 0, s, _, _ => s
  | k + 1, s, n, i =>
    match (s.mkr n).queue[i]? with
    | none => s
    | some m =>
      if !s.mkPred n then s
      else
        match m.start.fire with
        | none =>
          let f := s.mkFire n m.t
          if f - s.now16 < us16 then
            let s := s.mkCountLate n
            if s.mkPol n then State.mkPlanN k (s.mkCommitStart n i (s.now16 + s.commit16)) n i
            else State.mkPlanN k (s.mkRemove n i) n i
          else if f - s.now16 ≤ s.commit16 then State.mkPlanN k (s.mkCommitStart n i f) n i
          else s
        | some f =>
          if m.span && m.stop.isPending then
            let e := s.mkEndFire n m f ((s.dom (s.mkDom n)).crossTime m.tEnd)
            if e - s.now16 ≤ s.commit16 then State.mkPlanN k (s.mkCommitEnd n i e) n (i + 1) else State.mkPlanN k s n (i + 1)
          else State.mkPlanN k s n (i + 1)

def State.mkPlan (s : State) (n : Nat) : State := State.mkPlanN (2 * (s.mkr n).queue.length + 2) s n 0

/-- In CREEP a marking fires 1,250 ns after the first edge at or beyond its target, without LEAD (R282). -/
def State.mkCreep (s : State) (d : Nat) (edge : Int → Option Nat) : State :=
  if (s.dom d).lock ≠ .locked ∨ (s.dom d).motion ≠ .creep then s
  else (s.mksOf d).foldl (fun s n =>
    (List.range (s.mkr n).queue.length).foldl (fun s i =>
      match (s.mkr n).queue[i]? with
      | none => s
      | some m =>
        let s := match m.start.isPending, edge m.t with
          | true, some st => s.mkCommitStart n i (16 * ((st : Int) + 1000))
          | _, _ => s
        match (s.mkr n).queue[i]? with
        | none => s
        | some m =>
          match m.start.fire, m.stop.isPending, edge m.tEnd with
          | some f, true, some st =>
            if m.span then s.mkCommitEnd n i (max (16 * ((st : Int) + 1000)) (f + s.mkWidth16 n)) else s
          | _, _, _ => s) s) s

/-- A marking is late at its request (R286). -/
def State.mkLateAt (s : State) (n : Nat) (t : Int) : Bool :=
  decide (t ≤ s.coordNow (s.mkDom n)) || (s.mkPred n && decide (s.mkFire n t - s.now16 < s.commit16))

/-- Carry the end of the span `m` at place `i` to `te` (R283); `none` when its committed end stands. -/
def State.mkMoveEnd (s : State) (n i : Nat) (m : Marking) (te : Int) : Option State :=
  let upd := fun (s : State) (f : Marking → Marking) => s.updMkr n fun k => { k with queue := k.queue.modify i f }
  if te ≤ m.tEnd then some s
  else match m.stop with
    | .committed id f =>
      if us16 ≤ f - s.now16 then some (upd (s.sendCancel id) fun m => { m with tEnd := te, stop := .pending }) else none
    | .done _ => none
    | _ => some (upd s fun m => { m with tEnd := te })

/-- Draw the start of the span `m` at place `i` back to `t`, with its start as given. -/
def State.mkRedraw (s : State) (n i : Nat) (m : Marking) (t te : Int) (start : MkSide) : State :=
  (s.mkRemove n i).updMkr n fun k => { k with queue := insertMk { m with t := min t m.t, tEnd := max m.tEnd te, start := start } k.queue }

/-- The marking at place `i` takes up others (R283). -/
def State.mkPart (s : State) (n i : Nat) (p : List (Int × Int × Option Nat)) : State :=
  s.updMkr n fun k => { k with queue := k.queue.modify i fun m => { m with parts := m.parts ++ p } }

/-- Join a span [t, te] with the span at place `i` of the queue (R283): `none` when it must form a span of its own, else the
state and whether it was late (R286). A committed start stands, and the new marking is late and joins. One that is late at its request
for another cause follows LATE_POL. -/
def State.mkJoin (s : State) (n i : Nat) (m : Marking) (t te : Int) (src : Option Nat) : Option (State × Bool) :=
  match s.mkMoveEnd n i m te with
  | none => none
  | some u =>
    let u := u.mkPart n i [(t, te, src)]
    let m := { m with parts := m.parts ++ [(t, te, src)] }
    if t < m.t ∧ !m.start.isPending then some (u.mkCountLate n, true)
    else if s.mkLateAt n t then
      if !s.mkPol n then some (s.mkCountLate n, true)
      else if !m.start.isPending then some (u.mkCountLate n, true)
      else
        let f := u.now16 + u.commit16
        let id := u.pos.nextEv
        some (((u.mkCountLate n).sendEvent (.mrkOn n) f).mkRedraw n i m t te (.committed id f), true)
    else if m.t ≤ t then some (u, false)
    else some (u.mkRedraw n i m t te m.start, false)

/-- Two spans overlap, or lie within MIND of each other. -/
def State.mkNear (s : State) (n : Nat) (a b : Marking) : Bool :=
  a.span && b.span && decide (b.t ≤ a.tEnd + s.mkMind n) && decide (a.t ≤ b.tEnd + s.mkMind n)

/-- Forget a marking at place `i` that another takes up: its events are cancelled. -/
def State.mkAbsorb (s : State) (n i : Nat) (m : Marking) : State :=
  let s := m.ids.foldl (fun s id => s.sendCancel id) s
  (s.mkRemove n i).updMkr n fun k => { k with gone := k.gone ++ m.ids.map fun id => (id, s.now16) }

/-- Join the spans at places `i` and `j`, `i` before `j` (R283): the committed start stands, the later end counts. -/
def State.mkFuse (s : State) (n i j : Nat) (a b : Marking) : Option State :=
  if a.start.isPending && !b.start.isPending then (s.mkMoveEnd n j b a.tEnd).map fun s => (s.mkPart n j a.parts).mkAbsorb n i a
  else (s.mkMoveEnd n i a b.tEnd).map fun s => (s.mkPart n i b.parts).mkAbsorb n j b

/-- Join the spans of the queue that have come to overlap or to lie within MIND of each other (R283). -/
def State.mkFuseAll : Nat → State → Nat → State
  | 0, s, _ => s
  | k + 1, s, n =>
    let q := (s.mkr n).queue
    let pairs := (List.range q.length).flatMap fun i => (List.range q.length).filterMap fun j => if i < j then some (i, j) else none
    match pairs.findSome? fun p => match q[p.1]?, q[p.2]? with
      | some a, some b => if s.mkNear n a b then s.mkFuse n p.1 p.2 a b else none
      | _, _ => none with
    | some t => State.mkFuseAll k t n
    | none => s

/-- The first span of the queue that [t, te] overlaps or lies within MIND of, and with which it can be joined. -/
def State.mkJoinAny (s : State) (n : Nat) (t te : Int) (src : Option Nat) : Nat → Option (State × Bool)
  | 0 => none
  | k + 1 =>
    let i := (s.mkr n).queue.length - (k + 1)
    match (s.mkr n).queue[i]? with
    | none => none
    | some m =>
      let near := m.span && decide (t ≤ m.tEnd + s.mkMind n) && decide (m.t ≤ te + s.mkMind n)
      match if near then s.mkJoin n i m t te src else none with
      | some r => some r
      | none => s.mkJoinAny n t te src k

/-- A SPOT marking at target `t` lies within MIND of one queued or of the last fired (R283). -/
def State.mkMerges (s : State) (n : Nat) (t : Int) : Bool :=
  let near := fun (x : Int) => decide ((t - x).natAbs ≤ (s.mkMind n).natAbs)
  (s.mkr n).queue.any (fun m => near m.t) || (match (s.mkr n).lastT with
    | some x => near x
    | none => false)

/-- Queue a marking that was neither merged nor joined (R284, R286). -/
def State.mkEnqueue (s : State) (n : Nat) (t te : Int) (src : Option Nat) : State × Bool × Bool :=
  let late := s.mkLateAt n t
  let s := s.when late fun s => s.mkCountLate n
  if late && !s.mkPol n then (s, false, true)
  else if 256 ≤ (s.mkr n).queue.length then
    (((s.updMkr n fun k => { k with full := k.full + 1 }).orReg rResEvt 16).raise evMrkQueueFull 0 n 0, true, late)
  else
    let id := s.pos.nextEv
    let f := s.now16 + s.commit16
    let m : Marking := { t := t, tEnd := te, span := s.mkSpan n, start := if late then .committed id f else .pending,
                         stop := .pending, parts := [(t, te, src)] }
    let s := s.when late fun s => s.sendEvent (.mrkOn n) f
    (s.updMkr n fun k => { k with queue := insertMk m k.queue }, false, late)

/-- A TWIN secondary schedules no marker for the frame domain (R215, R218); what is asked of it is counted in DIS (log 97). -/
def State.twinMute (s : State) (d : Nat) : Bool :=
  s.fdom == some d && decide (s.frm.mode = 2) && decide (s.twinRole = 2)

/-- Request a marking of output `n` at coordinate `y` of domain `d`, `ext` nm long (R281 to R286). Answers whether the record that
asks carries MARK_DROP, and MARK_LATE. `src` is the record's SEQ, `none` for the PSQ. -/
def State.mkRequest (s : State) (n : Nat) (y : Int) (d : Nat) (ext : Int) (src : Option Nat) : State × Bool × Bool :=
  if !s.mkEn n || s.twinMute d then (s.updMkr n fun k => { k with dis := k.dis + 1 }, true, false)
  else if d ≠ s.mkDom n ∨ (s.dom d).lock = .lost then (s.updMkr n fun k => { k with lost := k.lost + 1 }, true, false)
  else
    let t := y + s.mkOfs n
    if s.mkSpan n then
      match s.mkJoinAny n t (t + ext) src (s.mkr n).queue.length with
      | some (s, late) => (State.mkFuseAll (s.mkr n).queue.length s n, false, late)
      | none => s.mkEnqueue n t (t + ext) src
    else if s.mkMerges n t then (s, false, false)
    else s.mkEnqueue n t t src

/-- On REVERSE a committed start that has not fired is cancelled with its end and waits again; should its event fire despite the cancel, the
marking has fired (R13, R49). A span whose start has gone out keeps its end (R282). -/
def State.mkReverse (s : State) (n : Nat) : State :=
  let ids := (s.mkr n).queue.flatMap fun m => match m.start with
    | .committed _ _ => m.ids
    | _ => []
  let s := ids.foldl (fun s id => s.sendCancel id) s
  s.updMkr n fun k => { k with queue := k.queue.map fun m => match m.start with
    | .committed id _ => { m with start := .recalled id, stop := .pending }
    | _ => m }

/-- Discard markings: their events are cancelled, and a span that begins nevertheless ends by `last` (R13). -/
def State.mkDrop (s : State) (n : Nat) (ms : List Marking) (last : Marking → Int) : State :=
  let s := (ms.flatMap Marking.ids).foldl (fun s id => s.sendCancel id) s
  s.updMkr n fun k =>
    { k with queue := k.queue.filter fun m => !ms.contains m,
             gone := k.gone ++ ms.filterMap fun m => match m.start with
               | .committed id _ => some (id, last m)
               | .recalled id => some (id, last m)
               | _ => none }

/-- MKOP 2 (R254; log 63): the pending markings that the PSQ asked for are cancelled; those of records, joined with one of them or not, stay, as the
spans that they make without it. -/
def State.mkCancelPsq (s : State) (n : Nat) : State :=
  let hit := (s.mkr n).queue.filter fun m => m.start.isPending && m.parts.any fun p => p.2.2.isNone
  let rest := fun (m : Marking) => m.parts.filter fun p => p.2.2.isSome
  let s := s.mkDrop n (hit.filter fun m => (rest m).isEmpty) fun _ => s.now16 + max s.commit16 (s.mkWidth16 n)
  let s := hit.foldl (fun s m => match rest m with
    | [] => s
    | p :: r =>
      let one := fun (p : Int × Int × Option Nat) (st : MkSide) =>
        { m with t := p.1, tEnd := p.2.1, start := st, parts := [p] }
      s.updMkr n fun k => { k with queue :=
        (one p m.start :: r.map fun p => one p .pending).foldl (fun q x => insertMk x q) (k.queue.filter fun x => x != m) }) s
  State.mkFuseAll (s.mkr n).queue.length s n

/-- On LOST pending markings are discarded and committed ones cancelled, each counted in LOST; an active span is given its last
moment, COMMIT from now or WIDTH after its start if later, unless its committed end comes first (R282). -/
def State.mkLost (s : State) (n : Nat) : State :=
  let q := (s.mkr n).queue
  let lost := q.filter fun m => !m.start.isDone
  let last := fun (m : Marking) => max (s.now16 + s.commit16) (m.start.fire.getD s.now16 + s.mkWidth16 n)
  let keeps := fun (m : Marking) => m.start.isDone && (match m.stop with
    | .committed _ f => decide (f ≤ last m)
    | _ => false)
  let cut := q.filter fun m => m.start.isDone && !keeps m
  ((s.mkDrop n lost last).mkDrop n cut last).updMkr n fun k =>
    { k with lost := k.lost + lost.length,
             pulseEnd := match cut with
               | m :: _ => some (last m)
               | [] => k.pulseEnd }

/-- An output is disabled (R287): pending markings are discarded, committed ones cancelled, each counted in DIS; an active span goes off now,
whatever still kept it, and an active SPOT pulse runs on. A committed marking that fires before its cancel arrives still does (R13); a span it
begins ends within 2 µs of the write (log 9). -/
def State.mkDisable (s : State) (n : Nat) : State :=
  let q := (s.mkr n).queue
  let waits := q.filter fun m => !m.start.isDone
  let active := s.mkSpan n && (s.mkr n).since.isSome
  let s := (s.mkDrop n q fun _ => s.now16 + 2 * us16).updMkr n fun k =>
    { k with dis := k.dis + waits.length, since := if active then none else k.since, pulseEnd := if active then none else k.pulseEnd }
  if active then { s with balls.mrk := setV s.balls.mrk n (s.mrkOff n) } else s

/-- Write the enable mask (R287). -/
def State.setMarkerEnable (s : State) (mask : Nat) : State :=
  let old := s.rf rResMkEn 7 0
  let s := s.setRf rResMkEn 7 0 mask
  s.each 8 fun n s => s.when (bitN old n && !bitN mask n) fun s => s.mkDisable n

/-- Output `n` goes active at `f` for the marking whose start is event `id`, recalled or not; a SPOT pulse gets its end (R283), and so does
a span whose marking has been discarded. An event of a span taken up by another changes nothing on an active output. -/
def State.mkFireOn (s : State) (n id : Nat) (f : Int) : State :=
  let k := s.mkr n
  let m? := k.queue.find? fun m => m.start.isEv id
  let span := (m?.map (·.span)).getD (s.mkSpan n)
  let last := ((k.gone.find? fun g => g.1 == id).map (·.2)).getD f
  let s := s.updMkr n fun k => { k with gone := k.gone.filter fun g => g.1 != id }
  if m?.isNone && span && k.since.isSome then s
  else
    let s := s.updMkr n fun k =>
      { k with fired := (k.fired + 1) % 2 ^ 32, since := some f,
               lastT := match m? with
                 | some m => some m.t
                 | none => k.lastT,
               pulseEnd := if !span then some (f + s.mkWidth16 n) else if m?.isNone then some (max f last) else k.pulseEnd,
               queue := if span then k.queue.map fun m => if m.start.isEv id then { m with start := .done f } else m
                        else k.queue.filter fun m => !m.start.isEv id }
    { s with balls.mrk := setV s.balls.mrk n (s.mrkOn n) }

/-- The cancel of a start event has taken effect (R13): a recalled marking waits, a discarded one is forgotten. -/
def State.mkCancelled (s : State) (n id : Nat) : State :=
  s.updMkr n fun k =>
    { k with gone := k.gone.filter fun g => g.1 != id,
             queue := k.queue.map fun m => if m.start = .recalled id then { m with start := .pending } else m }

/-- Output `n` goes inactive; a span whose end this was leaves the queue. -/
def State.mkFireOff (s : State) (n : Nat) (id : Option Nat) : State :=
  let isIt := fun (m : Marking) => match m.stop, id with
    | .committed i _, some j => i == j
    | _, _ => false
  let s := s.updMkr n fun k => { k with since := none, pulseEnd := none, queue := k.queue.filter fun m => !isIt m }
  { s with balls.mrk := setV s.balls.mrk n (s.mrkOff n) }

end Sys2Proof.Machine
end

