-- ==== Sys2Proof/Machine/PosOps.lean ====
section
/-! DEFINITION. Encoders, domains and trigger generation: decoding, estimator, lock states, commit and cancel (R32 to R69). -/
namespace Sys2Proof.Machine

/-- What a change of the accepted A and B levels means in a decoding mode (R33, R35). -/
inductive Decoded where
  | nothing
  | count (up : Bool)
  | illegal
  deriving DecidableEq, Repr

/-- Decode a change from (a0, b0) to (a, b) in mode 0 ×4, 1 ×2, 2 ×1, 3 pulse-direction. -/
def decodeEdge (mode : Nat) (a0 b0 a b : Bool) : Decoded :=
  if mode = 3 then (if a && !a0 then .count (!b) else .nothing)
  else if a != a0 && b != b0 then .illegal
  else if a != a0 then
    if mode = 2 ∧ !a then .nothing else .count (a != b)
  else if b != b0 then
    if mode = 0 then .count (a == b) else .nothing
  else .nothing

/-- Edges of the last 10 ms, and always the newest (R41). -/
def keepKnown (now : Nat) : List (Nat × Int) → List (Nat × Int)
  | [] => []
  | e :: r => e :: r.filter fun k => decide (now ≤ k.1 + 10 * msTs)

/-- Enter a new lock state, with its peat entry (R63, R534). -/
def State.setLock (s : State) (d : Nat) (l : Lock) : State :=
  let old := (s.dom d).lock
  if old = l then s else (s.updDom d fun m => { m with lock := l }).peatLock d old l

/-- Generators that serve domain `d`. -/
def State.gensOf (s : State) (d : Nat) : List Nat := (List.range 32).filter fun g => s.gEn g && s.rootDom (s.gDom g) == d

/-- Enter COAST (R63, R64): the prediction from the newest edge on the last velocity with a = 0. -/
def State.enterCoast (s : State) (d : Nat) : State :=
  let s := (s.setLock d .coast).updDom d fun m =>
    { m with acc := 0, pe := m.coord, te := m.tPrev.getD m.te, coastCnt := m.coastCnt + 1, coastSince := s.ts }
  s.raise evPosCoast 0 d 0

/-- Enter LOST (R63, R64): the coordinate, and the high-water mark with it, stays at the value predicted now; committed triggers and
markings are cancelled. -/
def State.enterLost (s : State) (d : Nat) : State :=
  let x := s.coordNow d
  let s := ((s.setLock d .lost).updDom d fun m =>
    if m.motion = .stopped then { m with coord := x, v := 0, acc := 0 } else { m with coord := x }).raiseHwm d x
  let s := s.raise evPosLost 0 d 0
  let s := (s.gensOf d).foldl (fun s g => s.cancelGen g) s
  (s.mksOf d).foldl (fun s n => s.mkLost n) s

/-- Lines between the last line committed and not cancelled and the next one fired are not acquired (R65). A generator that has committed no
line before the loss reports no such band: the rule names no first line for it (DESIGN CHOICE, log 78). -/
def State.noteLoss (s : State) (d : Nat) : State :=
  (s.gensOf d).foldl (fun s g =>
    s.updGen g fun x =>
      let top := (x.trigs.filter fun t => !t.cancelled).foldl (fun a t => match a with
        | some k => some (max k t.k)
        | none => some t.k) x.lastK
      match x.lossFrom, top with
      | none, some k => { x with lossFrom := some (k + (s.gDiv1 g : Int)) }
      | _, _ => x) s

/-- The source of a local domain has returned in COAST or LOST (R65): it passes through ACQUIRE, and the coordinate goes on from
the value it holds now. The edges of the last 10 ms stay known (R41). -/
def State.sourceBack (s : State) (d : Nat) : State :=
  let x := s.coordNow d
  let s := (s.noteLoss d).setLock d .acquire
  s.updDom d fun m => { m with base := x, c0 := s.encCount (s.dEncNow d), coord := x, hist := [], lastC := some (s.encCount (s.dEncNow d)),
                               known := keepKnown s.ts ((s.ts, x) :: m.known), motion := .creep }

/-- Move domain `d` to its check encoder (R62). -/
def State.switchToCheck (s : State) (d : Nat) : State :=
  let x := s.coordNow d
  let c := s.encCount (s.dCheckEnc d)
  let sc : Int := (s.reg64 (rPosDScaleLo d) : Int)
  let cs : Int := (s.reg64 (rPosDCscaleLo d) : Int)
  let m := s.dom d
  let top := match m.hist with
    | (h, _) :: _ => h
    | [] => 0
  let anchor := if cs = 0 then c else c - (x - m.coord) * 2 ^ 32 / cs
  let hist := m.hist.map fun e => (anchor - (if cs = 0 then 0 else tdiv ((top - e.1) * sc) cs), e.2)
  s.updDom d fun m => { m with onCheck := true, base := x, c0 := c, hist := hist, lastC := some c }

/-- The check encoder of a domain can take over: enabled, not in use, free of fault (R62). -/
def State.checkUsable (s : State) (d : Nat) : Bool :=
  s.dCheckEn d && !(s.dom d).onCheck && !s.encFaulty (s.dCheckEnc d)

/-- A domain that runs on its own encoder: local, and not a standby that accepts another root's beacons (R63, R333). -/
def State.onEncoder (s : State) (d : Nat) : Bool := s.dEn d && s.dSource d == 0 && !(s.cwAt d).standby

/-- A local domain that is enabled and has its source enters ACQUIRE (R63); its check encoder serves while the primary is in fault (R62). -/
def State.domEnable (s : State) (d : Nat) : State :=
  if !s.onEncoder d ∨ (s.dom d).lock ≠ .off then s
  else if !s.encFaulty (s.dEncNow d) then s.setLock d .acquire
  else if s.checkUsable d then (s.switchToCheck d).setLock d .acquire
  else s

/-- The local source of a domain has failed (R37, R62, R63). -/
def State.sourceLost (s : State) (d : Nat) : State :=
  if s.checkUsable d then s.switchToCheck d
  else match (s.dom d).lock with
    | .locked => s.enterCoast d
    | .acquire => s.updDom d fun m => { m with hist := [] }
    | _ => s

/-- The samples at and after the window's near end: newest with a span of `tmin` and `nmin` (R42). -/
def windowFrom (c : Int) (t nmin tmin : Nat) (h : List (Int × Nat)) : List (Int × Nat) :=
  h.dropWhile fun e => !(decide (e.2 + tmin ≤ t) && decide (e.1 + (nmin : Int) ≤ c))

/-- The estimator on a forward sample already pushed on the history (R42): `x` is the coordinate at count `c`. -/
def Domain.estimate (m : Domain) (scale nmin tmin creepT : Nat) (accel : Bool) (c : Int) (t : Nat) (x : Int) (tp : Option Nat) :
    Domain :=
  match windowFrom c t nmin tmin m.hist with
  | [] => { m with motion := .creep }
  | (cj, tj) :: r =>
    let v1 := tdiv ((c - cj) * (scale : Int)) ((t - tj : Nat) : Int)
    let a := match windowFrom cj tj nmin tmin r with
      | (ck, tk) :: _ =>
        if accel then tdiv (2 * (v1 - tdiv ((cj - ck) * (scale : Int)) ((tj - tk : Nat) : Int))) ((t - tk : Nat) : Int) else 0
      | [] => 0
    let mo := match tp with
      | some p => if creepT < t - p then Motion.creep else if 2 * (t - p) ≤ creepT then Motion.track else m.motion
      | none => m.motion
    { m with v := v1 + tdiv (a * ((t - tj : Nat) : Int)) 2, acc := a, pe := x, te := t, motion := mo }

/-- A sample joins a domain (R41, R42): its known edges, its history, estimate and motion state. `x` is the coordinate at count `c`. -/
def Domain.take (m : Domain) (now scale nmin tmin creepT : Nat) (accel fwd : Bool) (c : Int) (t : Nat) (x : Int) (known : List (Nat × Int)) :
    Domain :=
  let m' := { m with tPrev := some t, coord := x, known := keepKnown now (known ++ m.known),
                     motion := if m.motion = Motion.stopped ∨ m.motion = Motion.reverse then .creep else m.motion }
  if fwd then ({ m' with hist := ((c, t) :: m.hist).take 256 } : Domain).estimate scale nmin tmin creepT accel c t x m.tPrev
  else { m' with motion := .reverse, hist := [(c, t)] }

/-- The count of a report's first edge (R41) and of its newest, and whether it runs forward, after INVERT. -/
def Domain.readReport (m : Domain) (inv : Bool) (r : EdgeReport) : Int × Int × Bool :=
  let c := if inv then -r.count else r.count
  let fwd := r.up != inv
  (match m.lastC with
    | some l => if fwd then l + 1 else l - 1
    | none => c, c, fwd)

/-- The coordinate at a count: before the first lock the one held (R40). -/
def Domain.coordHeld (m : Domain) (scale : Nat) (c : Int) : Int := if m.everLocked then m.coordOf scale c else m.coord

/-- The edges a report makes known, newest first (R41): `c1` and `c` are the counts of its first and of its newest edge. -/
def Domain.knownOf (m : Domain) (scale : Nat) (c1 c : Int) (r : EdgeReport) : List (Nat × Int) :=
  if r.first = r.newest then [(r.newest, m.coordHeld scale c)]
  else [(r.newest, m.coordHeld scale c), (r.first, m.coordHeld scale c1)]

/-- The first lock of a local domain at count `c`, time `t` (R40): its coordinate is INIT, the count the origin. -/
def Domain.firstLock (m : Domain) (init c : Int) (t : Nat) : Domain :=
  { m with everLocked := true, base := init, c0 := c, coord := init, hwm := init, pe := init, known := [(t, init)] }

/-- The window is filled: the condition of LOCKED (R63). -/
def windowFull (h : List (Int × Nat)) (nmin tmin : Nat) : Bool :=
  match h with
  | (c, t) :: _ => windowFrom c t nmin tmin h != []
  | [] => false

/-- Time in whole TS at which the phase code of a trigger changes: the fire time less PH_LEAD, rounded down (R59). -/
def phaseTime (fire : Int) (lead : Nat) : Int := 16 * ((fire * 5 - 64 * (lead : Int)) / 80)

/-- Least spacing of two triggers, 1/16 TS: MIN_PERIOD, and at least 200 ns on the KSL path (R48, R90). -/
def State.minPeriod16 (s : State) (g : Nat) : Int :=
  16 * ((if 2 ≤ s.gOut g then max (s.gMinPeriod g) 160 else s.gMinPeriod g : Nat) : Int)

/-- Commit line `k` of generator `g` at `fire`, or skip it when it comes too soon after the last (R47, R48, R58). The flags of R58 are those
of the moment of commitment (DESIGN CHOICE, log 79). -/
def State.commitLine (s : State) (g : Nat) (k fire : Int) (creep : Bool) : State :=
  let d := s.gDom g
  let gn := s.gen g
  let soon := match gn.prevFire with
    | some p => decide (fire - p < s.minPeriod16 g)
    | none => false
  if soon then
    (s.updGen g fun x => { x with kMin := some (k + (s.gDiv1 g : Int)), skipCnt := x.skipCnt + 1 }).orReg rPosEvt 4
  else
    let id := s.pos.nextEv
    let ph := s.phaseOf g k
    let t : Trig :=
      { id := id, fire := fire, k := k, target := s.target g k, x := s.lineX d k, phase := ph,
        coast := decide ((s.dom d).lock = Lock.coast), creep := creep, cancelled := false }
    let evs := [LdMsg.event { id := id, kind := .trg g, time := fire }] ++
      (if s.rbit (rPosTgPhase g) 21 then
        [LdMsg.event { id := id + 1, kind := .phase g (s.rf (rPosTgPhase g) 20 16) ph,
                       time := phaseTime fire (s.rf (rPosTgPhase g) 15 0) }]
      else [])
    let s := match gn.lossFrom with
      | some k0 => s.bandLost (s.genLead g) (s.lineX d k0) (s.lineX d k)
      | none => s
    let s := s.updGen g fun x => { x with trigs := x.trigs ++ [t], prevFire := some fire, lossFrom := none, kMin := none }
    { s with pos := { s.pos with toLd := s.pos.toLd ++ evs, nextEv := id + 2 } }

/-- The generator may trigger now: enabled, not gated off, its domain LOCKED or in COAST, the device ARMED or RUNNING. -/
def State.genReady (s : State) (g : Nat) : Bool :=
  s.live && s.gEn g && !atV s.psq.gateOff g false && decide (s.dPitch (s.gDom g) ≠ 0) &&
    match (s.dom (s.gDom g)).lock with
    | .locked => (s.dom (s.gDom g)).motion = .track
    | .coast => true
    | _ => false

/-- Fire time of the next line of a generator as predicted now (R47). -/
def State.predictFire (s : State) (g : Nat) : Int :=
  (s.dom (s.gDom g)).crossTime (s.target g (s.nextLine g)) + s.gComp g

/-- Predict the next target of a generator, and commit it when its fire time is within the horizon (R47). -/
def State.predictCommitN : Nat → State → Nat → State
  | 0, s, _ => s
  | n + 1, s, g =>
    if s.genReady g ∧ 0 < (s.dom (s.gDom g)).v ∧ s.predictFire g - 16 * (s.ts : Int) ≤ s.commit16 then
      State.predictCommitN n (s.commitLine g (s.nextLine g) (s.predictFire g) false) g
    else s

/-- Trigger from the edges of a report in CREEP (R50): `edge T` gives the stamp of the first edge at or beyond `T`, if any. -/
def State.creepFireN (edge : Int → Option Nat) : Nat → State → Nat → State
  | 0, s, _ => s
  | n + 1, s, g =>
    let k := s.nextLine g
    match edge (s.target g k) with
    | some st => State.creepFireN edge n (s.commitLine g k (16 * ((st : Int) + 1000) + s.gComp g) true) g
    | none => s

/-- Offer a forward edge to every generator of the domain, before HWM is raised to it (R46, R47, R50). -/
def State.offerEdge (s : State) (d : Nat) (edge : Int → Option Nat) : State :=
  (s.gensOf d).foldl (fun s g =>
    if !s.live || atV s.psq.gateOff g false || decide (s.dPitch d = 0) then s
    else match (s.dom d).lock, (s.dom d).motion with
      | .locked, .creep => State.creepFireN edge 4096 s g
      | .locked, .track => State.predictCommitN 4096 s g
      | _, _ => s) s

/-- REVERSE (R43, R49, R282): committed triggers and marker starts are cancelled. -/
def State.enterReverse (s : State) (d : Nat) : State :=
  let s := s.updDom d fun m => { m with motion := .reverse }
  let s := (s.gensOf d).foldl (fun s g => s.cancelGen g) s
  (s.mksOf d).foldl (fun s n => s.mkReverse n) s

/-- The window of a domain has filled: LOCKED. At the first lock the coordinate is INIT, and the count its origin (R40, R63). -/
def State.lockNow (s : State) (d : Nat) (c : Int) (t : Nat) : State :=
  let init := if s.onEncoder d then s.regS64 (rPosDInitLo d) else (s.dom d).coord
  let s := if (s.dom d).everLocked then s
    else s.updDom d fun m => { m.firstLock init c t with cmpP := c, cmpC := s.encCount (s.dCheckEnc d) }
  (s.setLock d .locked).framesRestart d

/-- Product start of a domain at time `t` (R61). -/
def State.productStart (s : State) (d : Nat) (t : Nat) : State :=
  if (s.dom d).everLocked then
    let x := s.coordAt d t
    -- a tracked domain keeps its own origin and product count
    s.updDom d fun m => { m with origin := x, product := (m.product + 1) % 2 ^ 32 }
  else s

/-- Domains that take their product start from a source: 1 Z of an encoder, 2 a GPI ball, 3 the PSQ. -/
def State.psDoms (s : State) (src : Nat) (p : Nat → Bool) : List Nat :=
  (List.range 16).filter fun d => s.dEn d && s.dPsSrc d == src && p d

/-- Send a tracking sample to every device of the fabric (R69, R332). -/
def trackPayload (trk ent ext : Nat) (e x : Int) (nonmono : Bool) : List Byte :=
  leBytes 1 trk ++ leBytes 1 (ent + 16 * ext) ++ leBytes 2 0 ++ leBytes 8 (unsigned 64 e) ++ leBytes 8 (unsigned 64 x) ++
    leBytes 1 (b2n nonmono) ++ leBytes 3 0

/-- Append sample (e, x) to a table: 16,384 samples are kept (R67). After a non-monotone sample the x held goes on as its x_i, and a delta is
kept whole whatever its width (DESIGN CHOICE, log 121). -/
def TrkTable.push (t : TrkTable) (e x : Int) : TrkTable :=
  if t.count = 0 then { t with base := e, count := 1, deltas := [], lastX := x }
  else
    let dl := (x - t.lastX).toNat
    let x' := t.lastX + (dl : Int)
    let full := decide (16384 ≤ t.count)
    { t with deltas := (dl :: t.deltas).take 16383, lastX := x', count := if full then 16384 else t.count + 1,
             base := if full then t.base + 1000000 else t.base }

/-- A sample joins a table (R67), or a copy of one (R69, R332): one that is not 1 mm above the last begins it afresh. For the root's own
table, after samples not recorded, this is as its copies do (DEDUCED, log 80). -/
def TrkTable.extend (t : TrkTable) (e x : Int) : TrkTable :=
  if t.count ≠ 0 ∧ e = t.base + (t.count : Int) * 1000000 then t.push e x
  else ({ t with count := 0 } : TrkTable).push e x

/-- Record one sample of table `t` at entry coordinate `e`, crossed at time `tm` (R67). -/
def State.trackOne (s : State) (t : Nat) (e : Int) (tm : Nat) : State :=
  let c := rPosTtCtrl t
  let x := s.coordAt (s.rf c 11 8) tm + s.regS64 (rPosTtDxLo t)
  let tb := s.ttAt t
  let bad := decide (tb.count ≠ 0 ∧ e = tb.base + (tb.count : Int) * 1000000 ∧ x < tb.lastX)
  let s := { s with pos := { s.pos with tt := setV s.pos.tt t { tb.extend e x with nonmono := tb.nonmono + b2n bad } } }
  let s := if bad then (s.orReg rPosEvt 8).raise evTtNonmono 0 t 0 else s
  s.fabOut 0 0x10 0 true (trackPayload (s.rf c 15 12) (s.rf c 7 4) (s.rf c 11 8) e (max x (if bad then tb.lastX else x)) bad)

/-- Samples of table `t` at the multiples of 1 mm from `e` up to `x`, with their stamps (R67). -/
def State.trackN : Nat → State → Nat → Int → Int → (Int → Nat) → State
  | 0, s, _, _, _, _ => s
  | n + 1, s, t, e, x, stamp =>
    if e ≤ x then State.trackN n (s.trackOne t e (stamp (e + s.regS64 (rPosTtDeLo t)))) t (e + 1000000) x stamp else s

/-- A domain whose coordinate a tracking table may sample: it has been locked since start, and is not in COAST or LOST (R69). -/
def State.tracks (s : State) (d : Nat) : Bool :=
  (s.dom d).everLocked && (decide ((s.dom d).lock = .acquire) || decide ((s.dom d).lock = .locked))

/-- Every table whose entry domain is `d`: its own high-water mark follows the coordinate less D_E, and each value e_i it rises through is
sampled, BASE being the first multiple of 1 mm crossed (R67; DESIGN CHOICE, log 121). While the entry or exit domain is in COAST or LOST nothing is recorded (R69). -/
def State.trackEdge (s : State) (d : Nat) (stamp : Int → Nat) : State :=
  s.each 4 fun t s =>
    let c := rPosTtCtrl t
    if s.rbit c 0 ∧ s.rootDom (s.rf c 7 4) = d ∧ (s.dom d).everLocked then
      let x := (s.dom d).coord - s.regS64 (rPosTtDeLo t)
      let tb := s.ttAt t
      match tb.hw with
      | none => { s with pos := { s.pos with tt := setV s.pos.tt t { tb with hw := some x } } }
      | some h =>
        if h < x then
          let s := { s with pos := { s.pos with tt := setV s.pos.tt t { tb with hw := some x } } }
          if s.tracks d && s.tracks (s.rf c 11 8) then
            State.trackN ((x - h) / 1000000 + 2).toNat s t (roundUpTo (h + 1) 1000000) x stamp
          else s
        else s
    else s

/-- One forward or backward sample of a domain (R42): local report or remote beacon. `c` counts with `scale`; `edge` gives the
stamp of the first edge at or beyond a coordinate. In COAST, on the samples of COAST beacons, the acceleration is held at 0 (R331). -/
def State.sample (s : State) (d : Nat) (c : Int) (t scale : Nat) (fwd : Bool) (x : Int) (edge : Int → Option Nat)
    (known : List (Nat × Int)) : State :=
  let accel := s.rbit rPosCtrl 16 && decide ((s.dom d).lock ≠ .coast)
  let s := s.updDom d fun m => m.take s.ts scale (s.dNMin d) (s.dTMin d) (s.dCreepT d) accel fwd c t x known
  if !fwd then s.enterReverse d
  else
    -- at the first lock the edge holds INIT, which is the high-water mark: no target lies at or below it (R40, R46)
    let edge := if (s.dom d).everLocked then edge else fun _ => none
    let s := if (s.dom d).lock = .acquire ∧ windowFull (s.dom d).hist (s.dNMin d) (s.dTMin d) then s.lockNow d c t else s
    if (s.dom d).everLocked then
      let s := if (s.dom d).lock = .locked then (s.offerEdge d edge).mkCreep d edge else s
      let s := (s.raiseHwm d (s.dom d).coord).flushAllGated
      s.trackEdge d fun y => (edge y).getD t
    else s

/-- The stamp of the first edge of a report at or beyond coordinate `y`: edges lie evenly between its first and its newest (R41). -/
def State.edgeOf (s : State) (d : Nat) (c1 c2 : Int) (t1 t2 : Nat) (y : Int) : Option Nat :=
  let m := s.dom d
  let sc : Int := (s.dScale d : Int)
  if sc = 0 then none
  else
    let need := m.c0 + -((-((y - m.base) * 2 ^ 32)) / sc)
    if c2 < need then none
    else if need ≤ c1 ∨ c2 = c1 then some t1
    else some (t1 + (((t2 - t1 : Nat) : Int) * (need - c1) / (c2 - c1)).toNat)

/-- An edge report reaches domain `d`, which runs on that encoder (R38 to R42). -/
def State.reportTo (s : State) (d : Nat) (r : EdgeReport) : State :=
  let m := s.dom d
  let (c1, c, fwd) := m.readReport (s.encInvert r.enc) r
  let s := s.updDom d fun m => { m with lastC := some c }
  s.sample d c r.newest (s.dScale d) fwd (m.coordHeld (s.dScale d) c) (s.edgeOf d c1 c r.first r.newest) (m.knownOf (s.dScale d) c1 c r)

/-- A report to the shadow of a standby root (R333): the domain's own encoder goes on by R40 to R43 and R63, with no effect outside. -/
def State.reportShadow (s : State) (d : Nat) (r : EdgeReport) : State :=
  let sc := s.reg64 (rPosDScaleLo d)
  let m := s.shadowOf d
  let (c1, c, fwd) := m.readReport (s.encInvert r.enc) r
  let m := ({ m with lastC := some c } : Domain).take s.ts sc (s.dNMin d) (s.dTMin d) (s.dCreepT d) (s.rbit rPosCtrl 16) fwd c r.newest
    (m.coordHeld sc c) (m.knownOf sc c1 c r)
  let m := if fwd ∧ m.lock = .acquire ∧ windowFull m.hist (s.dNMin d) (s.dTMin d) then
      { (if m.everLocked then m else m.firstLock (s.regS64 (rPosDInitLo d)) c r.newest) with lock := .locked }
    else m
  s.updShadow d fun _ => m

/-- Give an edge report to every domain that uses its encoder; a source in receiver fault gives none (R63). -/
def State.report (s : State) (r : EdgeReport) : State :=
  s.each 16 fun d s =>
    if s.encFaulty r.enc then s
    else if s.onEncoder d ∧ s.dEncNow d = r.enc then
      match (s.dom d).lock with
      | .acquire | .locked => s.reportTo d r
      | _ => s
    else if s.dEn d ∧ s.dSource d = 0 ∧ (s.cwAt d).standby ∧ s.dEncSel d = r.enc then s.reportShadow d r
    else s

/-- Set the edge latches of C0 and C1 (R248). -/
def State.latchEdge (s : State) (f : Cx → Cx) : State :=
  { s with psq := { s.psq with cx := updV (updV s.psq.cx 6 f) 7 f } }

end Sys2Proof.Machine
end

