-- ==== Sys2Proof/Machine/OutOps.lean ====
section
/-! DEFINITION. Output timing of the Lagg die: events held for their time, late events, cancels, pulses (R13, R14, R25, R56, R59). -/
namespace Sys2Proof.Machine

/-- Level of an idle TRG ball: low, or high while its driver is enabled and inverted (R25, R56); high impedance while the Lagg die is
lost (R31). -/
def State.trgIdle (s : State) (b : Nat) : Level :=
  if s.sys.laggLost then .hiZ else lvl (s.sys.outEn && s.rbit rIoxTrgEn b && s.rbit rIoxTrgPol b)

/-- Level of a TRG ball in its pulse. -/
def State.trgActive (s : State) (b : Nat) : Level := lvl (s.sys.outEn && s.rbit rIoxTrgEn b && !s.rbit rIoxTrgPol b)

/-- TRG levels after a change of the enables: a running pulse goes on. -/
def State.trgRefresh (s : State) : State :=
  { s with balls.trg := Vector.ofFn fun (b : Fin 16) =>
      if (atV s.pos.trgEnd b.val none).isSome then s.trgActive b.val else s.trgIdle b.val }

/-- The generator and trigger of an LD event number. -/
def State.trigOf (s : State) (g id : Nat) : Option Trig := (s.gen g).trigs.find? fun t => t.id == id

/-- A trigger's time has passed: it counts as fired for the next target and for the high-water mark (R46), cancelled or not. Messages that
waited for its TTS to pass may start (R90). -/
def State.trigDone (s : State) (g : Nat) (t : Trig) : State :=
  let s := s.updGen g fun x => { x with trigs := x.trigs.filter (fun u => u.id != t.id),
                                        lastK := some (max (x.lastK.getD t.k) t.k) }
  (s.raiseHwm (s.rootDom (s.gDom g)) t.target).flushBack (s.genLead g)

/-- A trigger fires (R14, R46, R52, R56): the ball in RUNNING, the record and the lane in ARMED as well. -/
def State.fireTrigger (s : State) (g id : Nat) (time : Int) : State :=
  match s.trigOf g id with
  | none => s
  | some t =>
    if !s.live then s.trigDone g t
    else
      let b := s.gBall g
      let toBall := s.gOut g % 2 = 1
      let ball := toBall && s.sys.outEn && s.rbit rIoxTrgEn b
      let s := s.when t.cancelled fun s => s.orReg rPosEvt 2
      let s := if ball then
          { s with balls.trg := setV s.balls.trg b (s.trgActive b),
                   pos.trgEnd := setV s.pos.trgEnd b (some (time + 16 * (s.gWidth g : Int))) }
        else s
      let (s, lane) := s.laneTrigger g t ball
      let s := s.when (ball || lane) fun s => s.updGen g fun x => { x with fired := (x.fired + 1) % 2 ^ 32 }
      s.trigDone g t

/-- An output event takes place at its stated time (R13, R14). -/
def State.fireEvent (s : State) (e : OutEvent) : State :=
  let s := { s with pos.held := s.pos.held.filter fun x => x.id != e.id }
  match e.kind with
  | .trg g => s.fireTrigger g e.id e.time
  | .mrkOn n => s.when s.sys.outEn fun s => s.mkFireOn n e.id e.time
  | .mrkOff n => s.when s.sys.outEn fun s => s.mkFireOff n (some e.id)
  | .phase _ b code =>
    s.when s.sys.outEn fun s =>
      { s with balls.gpo := setV (setV s.balls.gpo b (lvl (bitN code 0))) (b + 1) (lvl (bitN code 1)) }

/-- An event that reaches the LD after its stated time is not fired, and is counted and reported (R13): a trigger and its phase code in
LATE_CNT of their generator, the phase code with DETAIL 2^16 plus its ball (DESIGN CHOICE, log 121), a marker event in LATE of its output. The end of a span so missed waits
again and is committed anew, at the earliest time the Lagg die can take (DESIGN CHOICE, log 77). -/
def State.lateEvent (s : State) (e : OutEvent) : State :=
  match e.kind with
  | .trg g =>
    let s := s.updGen g fun x => { x with lateCnt := x.lateCnt + 1 }
    let s := (s.orReg rPosEvt 1).raise evPosTrgLate 0 g 0
    match s.trigOf g e.id with
    | some t => s.trigDone g t
    | none => s
  | .mrkOn n =>
    let s := s.mkCountLate n
    (s.mkCancelled n e.id).updMkr n fun k => { k with queue := k.queue.filter fun m => match m.start with
      | .committed i _ => i != e.id
      | _ => true }
  | .mrkOff n =>
    (s.mkCountLate n).updMkr n fun k => { k with queue := k.queue.map fun m => match m.stop with
      | .committed i _ => if i = e.id then { m with stop := .pending } else m
      | _ => m }
  | .phase g b _ =>
    ((s.updGen g fun x => { x with lateCnt := x.lateCnt + 1 }).orReg rPosEvt 1).raise evPosTrgLate 0 (2 ^ 16 + b) 0

/-- The earliest event held whose time has come. -/
def State.dueEvent (s : State) : Option OutEvent :=
  (s.pos.held.filter fun e => decide (e.time ≤ s.now16)).foldl (fun a e => match a with
    | some x => (if e.time < x.time then some e else some x)
    | none => some e) none

end Sys2Proof.Machine
end

