-- ==== Sys2Proof/Machine/TileUnits.lean ====
section
/-! DEFINITION. The tile's sockets and function units: lanes, ALU, MAC, compare-select, lookup, faults (R140 to R161, R178). -/
namespace Sys2Proof.Machine

/-- Lane `i` of width `w` (R140). -/
def vlane (w : Nat) (v : V128) (i : Nat) : Nat := bitsN v.toNat (w * i + w - 1) (w * i)

/-- A value from its lanes of width `w`, each modulo the vlane width. -/
def lanes (w : Nat) (f : Nat → Nat) : V128 :=
  BitVec.ofNat 128 (sumN ((List.range (128 / w)).map fun i => f i % 2 ^ w * 2 ^ (w * i)))

/-- Lane 0 of the default width: an address, a count, a base, a tag (R140). -/
def lane0 (v : V128) : Nat := vlane 16 v 0

/-- The ALU operation of offset `op` on operand `a` and trigger value `b` (R149). -/
def aluOp (op : Nat) (a b : V128) : V128 :=
  let x := vlane 16 a
  let y := vlane 16 b
  let bin := fun (f : Nat → Nat → Nat) => lanes 16 fun i => f (x i) (y i)
  let sbin := fun (f : Int → Int → Int) => lanes 16 fun i => unsigned 16 (f (signed 16 (x i)) (signed 16 (y i)))
  let bin32 := fun (f : Nat → Nat → Nat) => lanes 32 fun i => f (vlane 32 a i) (vlane 32 b i)
  let funnel := fun (n : Nat) => lanes 16 fun i => if i + n < 8 then x (i + n) else y (i + n - 8)
  match op with
  | 0x00 => bin fun p q => p + q
  | 0x01 => bin fun p q => p + 65536 - q
  | 0x02 => bin fun p q => min (p + q) 65535
  | 0x03 => bin fun p q => p - q
  | 0x04 => sbin fun p q => satS 16 (p + q)
  | 0x05 => sbin fun p q => satS 16 (p - q)
  | 0x06 => bin fun p q => max p q - min p q
  | 0x07 => bin fun p q => (p + q + 1) / 2
  | 0x08 => bin min
  | 0x09 => bin max
  | 0x0A => sbin min
  | 0x0B => sbin max
  | 0x0C => a &&& b
  | 0x0D => a ||| b
  | 0x0E => a ^^^ b
  | 0x0F => a &&& ~~~b
  | 0x10 => bin fun p q => p * 2 ^ (q % 16)
  | 0x11 => bin fun p q => p / 2 ^ (q % 16)
  | 0x12 => lanes 16 fun i => unsigned 16 (signed 16 (x i) / 2 ^ (y i % 16))
  | 0x13 => funnel 1
  | 0x14 => funnel 2
  | 0x15 => funnel 4
  | 0x16 => lanes 16 fun _ => x (y 0 % 8)
  | 0x17 => lanes 8 fun j => min 255 (if j < 8 then x j else y (j - 8))
  | 0x18 => lanes 16 fun i => vlane 8 b i
  | 0x19 => lanes 16 fun i => vlane 8 b (i + 8)
  | 0x1A => bin32 fun p q => p + q
  | 0x1B => bin32 fun p q => p + 2 ^ 32 - q
  | 0x1C => bin32 fun p q => p / 2 ^ (q % 32)
  | _ => b

/-- The eight products of a MAC trigger: signed by signed, or unsigned by signed in the su forms (R150). -/
def macProds (su : Bool) (a b : V128) : List Int :=
  (List.range 8).map fun i => (if su then (vlane 16 a i : Int) else signed 16 (vlane 16 a i)) * signed 16 (vlane 16 b i)

/-- Lane `i` of an accumulator. -/
def accLane (v : BitVec 320) (i : Nat) : Int := signed 40 (v.toNat / 2 ^ (40 * i))

/-- An accumulator from its lanes, each modulo 2^40. -/
def accOf (f : Nat → Int) : BitVec 320 :=
  BitVec.ofNat 320 (sumN ((List.range 8).map fun i => unsigned 40 (f i) * 2 ^ (40 * i)))

/-- A MAC result socket (R151): kind 0 signed saturated, 1 unsigned saturated, 2 and 3 the low 32 bits of lanes 0 to 3, 4 to 7. -/
def macRead (acc : BitVec 320) (sh kind : Nat) : V128 :=
  let t := fun i => (accLane acc i + (if 0 < sh then 2 ^ (sh - 1) else 0)) / 2 ^ sh
  match kind with
  | 0 => lanes 16 fun i => unsigned 16 (satS 16 (t i))
  | 1 => lanes 16 fun i => (max 0 (min 65535 (t i))).toNat
  | 2 => lanes 32 fun i => unsigned 32 (t i)
  | _ => lanes 32 fun i => unsigned 32 (t (i + 4))

/-- Lane width and comparison of a compare-select trigger (R152). -/
def csuWidth (op : Nat) : Nat := if op = 6 then 32 else if op = 7 then 8 else 16
def csuTrue (op p q : Nat) : Bool :=
  match op with
  | 0 => decide (q < p)
  | 1 => decide (q ≤ p)
  | 2 => decide (signed 16 q < signed 16 p)
  | 3 => decide (signed 16 q ≤ signed 16 p)
  | 5 => decide (p ≠ q)
  | 6 => decide (q < p)
  | _ => decide (p = q)

/-- A lookup (R153): `k` 0 lk8, 1 lk16, 2 lk32. -/
def lutOp (lut : Memory) (k : Nat) (base : Nat) (b : V128) : V128 :=
  let ix := fun i n => (vlane 16 b i + base) % 65536 % n
  match k with
  | 0 => lanes 16 fun i => (memGet ramDefault lut (ix i 4096)).toNat
  | 1 => lanes 16 fun i => leNat (memGetBytes ramDefault lut (2 * ix i 2048) 2)
  | _ => lanes 32 fun i => leNat (memGetBytes ramDefault lut (4 * ix i 1024) 4)

/-- Read a word of tile memory, a move word, a slot table entry. -/
def Tile.word (t : Tile) (a : Nat) : V128 := smGet (fun _ => 0) t.mem (a % 16384)
def Tile.move (t : Tile) (a : Nat) : BitVec 160 := smGet (fun _ => 0) t.moves (a % 2048)
def Tile.entry (t : Tile) (i : Nat) : Nat := (smGet (fun _ => (0 : Word)) t.slots (i % 512)).toNat

/-- What the check bits of word `a` show (R168): 0 good, 1 one wrong bit, 2 two. -/
def Tile.badAt (t : Tile) (a : Nat) : Nat := smGet (fun _ => 0) t.bad (a % 16384)
def Tile.setBad (t : Tile) (a n : Nat) : Tile := { t with bad := smPut (fun _ => 0) t.bad (a % 16384) n }

/-- A row says what the check bits of word `a` show from now on. -/
def Tile.upset (t : Tile) (u : TileUpset) (a : Nat) : Tile :=
  match u with
  | .memSingle => t.setBad a (max 1 (t.badAt a))
  | .memDouble => t.setBad a 2
  | _ => t

/-- A word is written with good check bits; a correction that waits for it falls away (R167). -/
def Tile.store (t : Tile) (a : Nat) (v : V128) : Tile :=
  { t.setBad a 0 with mem := smPut (fun _ => (0 : V128)) t.mem (a % 16384) v,
                      scrubFix := if t.scrubFix = some (a % 16384) then none else t.scrubFix }

/-- Raise a queue's high-water mark to `n` (TILE_QHWM). -/
def Tile.mark (t : Tile) (i n : Nat) : Tile := { t with hwm := updV t.hwm i fun x => max x n }

/-- A fault in the present cycle (R178): the first is recorded, further ones are counted. A HALTED tile keeps its record. -/
def Tile.fault (t : Tile) (code : Nat) (src : Bool) (slot sock : Nat) : Tile :=
  if t.st = .halted ∨ t.st = .off then t
  else if t.fCode ≠ 0 then { t with fMore := t.fMore + 1 }
  else
    { t with fCode := code, fSrc := src, fSlot := slot, fSock := sock, fPc := t.pc, fCyc := t.cyc % 2 ^ 24, fFrame := t.frame,
             fProg := t.prog, fMore := 0, fNow := true, st := .faulted }

/-- A result whose latency has passed becomes readable (R148, R151, R156). -/
def Tile.land (t : Tile) : Land → Tile
  | .alu u v => { t with aluR := setV t.aluR u v }
  | .mac u a clear ps =>
    { t with acc := updV t.acc (2 * u + a) fun x => accOf fun i => (if clear then 0 else accLane x i) + ps.getD i 0 }
  | .csu sel mask cnt => { t with csuSel := sel, csuMask := mask, csuCnt := cnt }
  | .lut v => { t with lutR := v }
  | .rf p v => { t with rfR := setV t.rfR p v }
  | .lsu v =>
    if t.lsuQ.length < 4 then ({ t with lsuQ := t.lsuQ ++ [v] } : Tile).mark 4 (t.lsuQ.length + 1)
    else t.fault 6 true 0 0xDD

/-- Land every result due by cycle `c`. -/
def Tile.landUpTo (t : Tile) (c : Nat) : Tile :=
  let due := t.pipe.filter fun p => decide (p.1 ≤ c)
  (due.map (·.2)).foldl Tile.land { t with pipe := t.pipe.filter fun p => !decide (p.1 ≤ c) }

/-- Destination sockets that are operands, and those that are triggers (R147). -/
def isOperand (d : Nat) : Bool :=
  d == 0x01 || d == 0x21 || d == 0x40 || d == 0x41 || d == 0x50 || d == 0x51 || d == 0x60 || d == 0x61 || d == 0x62 || d == 0x70 ||
  d == 0x78 || d == 0x79 || (decide (0x80 ≤ d) && decide (d ≤ 0x83)) || d == 0x98 || d == 0x9B
def inRng (lo hi d : Nat) : Bool := decide (lo ≤ d) && decide (d ≤ hi)
def isTrigger (d : Nat) : Bool :=
  inRng 0x02 0x1F d || inRng 0x22 0x3F d || inRng 0x42 0x49 d || inRng 0x52 0x59 d || inRng 0x63 0x6A d || inRng 0x71 0x73 d ||
  inRng 0x7A 0x7D d || inRng 0x84 0x8B d || inRng 0x90 0x93 d || inRng 0x99 0x9A d || d == 0x9C
def dstOk (d : Nat) : Bool := d == 0 || isOperand d || isTrigger d
def srcOk (d : Nat) : Bool :=
  d == 0 || inRng 0xC0 0xC1 d || inRng 0xC4 0xD3 d || inRng 0xD8 0xDA d || inRng 0xDC 0xDD d || inRng 0xE0 0xE1 d || inRng 0xE4 0xE8 d ||
  inRng 0xEC 0xEE d || d == 0xF0

/-- Entries of the OUTQ but the end entries. -/
def Tile.outqLen (t : Tile) : Nat := (t.outq.filter fun e => !e.isEnd).length

/-- The value a source socket shows at the start of the cycle (R147); an empty queue shows 0. -/
def Tile.source (t : Tile) (d : Nat) : V128 :=
  if inRng 0xC0 0xC1 d then atV t.aluR (d - 0xC0) 0
  else if inRng 0xC4 0xD3 d then
    let k := d - 0xC4
    macRead (atV t.acc (k / 4) 0) (lane0 (atV t.macSh (k / 8) 0) % 32) (k % 4)
  else if d = 0xD8 then t.csuSel
  else if d = 0xD9 then t.csuMask
  else if d = 0xDA then t.csuCnt
  else if d = 0xDC then t.lutR
  else if d = 0xDD then t.lsuQ.headD 0
  else if inRng 0xE0 0xE1 d then atV t.rfR (d - 0xE0) 0
  else if inRng 0xE4 0xE7 d then (((atV t.net (d - 0xE4) []).head?).map (·.1)).getD 0
  else if d = 0xE8 then t.strm.headD 0
  else if inRng 0xEC 0xED d then atV t.k (d - 0xEC) 0
  else if d = 0xEE then lanes 16 fun i => i
  else if d = 0xF0 then
    match t.loops with
    | l :: _ => BitVec.ofNat 128 (l.it % 65536)
    | [] => 0
  else 0

/-- Pop the queue behind a source socket, read in slot `i` (R156, R159, R173, R180). -/
def Tile.pop (t : Tile) (i d : Nat) : Tile :=
  if d = 0xDD then
    match t.lsuQ with
    | _ :: r => { t with lsuQ := r }
    | [] => t.fault 7 true i d
  else if d = 0xE8 then
    match t.strm with
    | _ :: r => { t with strm := r }
    | [] => t.fault 5 true i d
  else if inRng 0xE4 0xE7 d then
    match atV t.net (d - 0xE4) [] with
    | (_, p) :: r => { t with net := setV t.net (d - 0xE4) r, popPoison := t.popPoison || p }
    | [] => t.fault 3 true i d
  else t

/-- Sockets whose reading pops a queue. -/
def isQueue (d : Nat) : Bool := d == 0xDD || inRng 0xE4 0xE8 d

/-- Write an operand socket. -/
def Tile.operand (t : Tile) (d : Nat) (v : V128) : Tile :=
  if d = 0x01 then { t with aluA := setV t.aluA 0 v }
  else if d = 0x21 then { t with aluA := setV t.aluA 1 v }
  else if d = 0x40 then { t with macA := setV t.macA 0 v }
  else if d = 0x41 then { t with macSh := setV t.macSh 0 v }
  else if d = 0x50 then { t with macA := setV t.macA 1 v }
  else if d = 0x51 then { t with macSh := setV t.macSh 1 v }
  else if d = 0x60 then { t with csuA := v }
  else if d = 0x61 then { t with csuX := v }
  else if d = 0x62 then { t with csuY := v }
  else if d = 0x70 then { t with lutBase := v }
  else if d = 0x78 then { t with lsuAddr := v }
  else if d = 0x79 then { t with lsuStride := v }
  else if inRng 0x80 0x83 d then { t with rfAd := setV t.rfAd (d - 0x80) v }
  else if d = 0x98 then { t with tag := v }
  else if d = 0x9B then { t with seqCount := v }
  else t

/-- A tile in the course of one cycle: queues popped, values for destinations by slot, sends, stores and register writes for the end
of the cycle, the loop started, and an error found by a load. -/
structure TileCyc where
  t : Tile
  popped : List Nat
  wr : List (Nat × Nat × V128)
  sends : List (Nat × V128)
  stores : List (Nat × V128)
  rfw : List (Nat × Nat × V128)
  loop : Option (Nat × Nat)
  ecc : Option (Bool × Nat)

/-- A result that becomes readable `lat` cycles on. -/
def Tile.later (t : Tile) (lat : Nat) (l : Land) : Tile := { t with pipe := t.pipe ++ [(t.cyc + lat, l)] }

/-- The move of slot `i` reads its source; a constant-lane slot writes its lane (R142, R143). `t0`: the tile at the start. -/
def TileCyc.slot (x : TileCyc) (t0 : Tile) (w : BitVec 160) (i : Nat) : TileCyc :=
  let n := w.toNat
  let kind := bitsN n (16 + 18 * i + 17) (16 + 18 * i + 16)
  let hi := bitsN n (16 + 18 * i + 15) (16 + 18 * i + 8)
  let lo := bitsN n (16 + 18 * i + 7) (16 + 18 * i)
  match kind with
  | 1 =>
    if !srcOk lo then { x with t := x.t.fault 9 true i lo }
    else if !dstOk hi then { x with t := x.t.fault 9 false i hi }
    else
      let x := if isQueue lo && !x.popped.contains lo then { x with t := x.t.pop i lo, popped := lo :: x.popped } else x
      { x with wr := x.wr ++ [(i, hi, t0.source lo)] }
  | 2 =>
    if !dstOk hi then { x with t := x.t.fault 9 false i hi }
    else { x with wr := x.wr ++ [(i, hi, lanes 16 fun _ => unsigned 16 (signed 8 lo))] }
  | 3 =>
    let k := if bitN n 5 then 1 else 0
    { x with t := { x.t with k := updV x.t.k k fun v => lanes 16 fun j => if j = i then hi * 256 + lo else vlane 16 v j } }
  | _ => x

/-- Advance an LSU address by the stride (R155). -/
def Tile.stride (t : Tile) : Tile :=
  { t with lsuAddr := BitVec.ofNat 128 (((lane0 t.lsuAddr : Int) + signed 16 (lane0 t.lsuStride)) % 16384).toNat }

/-- An LSU load from word `a` (R155, R168): the word as stored, or free data when a double-bit error is found. -/
def TileCyc.load (x : TileCyc) (u : TileUpset) (i d a : Nat) (free : V128) : TileCyc :=
  let t := x.t.upset u a
  match t.badAt a with
  | 0 => { x with t := t.later 3 (.lsu (t.word a)) }
  | 1 => { x with t := t.later 3 (.lsu (t.word a)), ecc := some (false, a) }
  | _ => { x with t := (t.fault 13 false i d).later 3 (.lsu free), ecc := some (true, a) }

/-- A push (R160, R179): discarded after a fault; a push that finds 32 entries is a fault. -/
def Tile.push (t : Tile) (i d : Nat) (v : V128) (vc vr : Nat) : Tile :=
  if t.fNow then { t with dropNow := t.dropNow + 1, discarded := t.discarded + 1 }
  else if 32 ≤ t.outqLen then t.fault 8 false i d
  else
    let e : OutqEnt := { isEnd := false, data := v, tag := lane0 t.tag, cycle := t.cyc % 2 ^ 24, prog := t.prog, vcol := vc, vrow := vr,
                         frame := unsigned 16 t.frame, fault := false, poison := false, discarded := 0 }
    ({ t with outq := t.outq ++ [e], pushedNow := t.pushedNow + 1 } : Tile).mark 6 (t.outqLen + 1)

/-- A trigger of slot `i` into socket `d` with value `v` (R149 to R160, R172). `e`: the slot table entry of the cycle. -/
def TileCyc.trigger (x : TileCyc) (u : TileUpset) (e vc vr : Nat) (free : V128) (i d : Nat) (v : V128) : TileCyc :=
  let t := x.t
  if inRng 0x02 0x1F d then { x with t := t.later 1 (.alu 0 (aluOp (d - 0x02) (atV t.aluA 0 0) v)) }
  else if inRng 0x22 0x3F d then { x with t := t.later 1 (.alu 1 (aluOp (d - 0x22) (atV t.aluA 1 0) v)) }
  else if inRng 0x42 0x49 d ∨ inRng 0x52 0x59 d then
    let m := (d - 0x40) / 0x10
    let o := (d - 0x42) % 0x10
    { x with t := t.later 4 (.mac m (o / 4) (o % 2 = 0) (macProds (o / 2 % 2 = 1) (atV t.macA m 0) v)) }
  else if inRng 0x63 0x6A d then
    let op := d - 0x63
    let w := csuWidth op
    let c := fun j => csuTrue op (vlane w t.csuA j) (vlane w v j)
    { x with t := t.later 1 (.csu (lanes w fun j => if c j then vlane w t.csuX j else vlane w t.csuY j)
        (lanes w fun j => if c j then 2 ^ w - 1 else 0) (BitVec.ofNat 128 ((List.range (128 / w)).filter c).length)) }
  else if inRng 0x71 0x73 d then
    if u = .lutEntry then { x with t := (t.fault 12 false i d).later 2 (.lut free) }
    else { x with t := t.later 2 (.lut (lutOp t.lut (d - 0x71) (lane0 t.lutBase) v)) }
  else if d = 0x7A then x.load u i d (lane0 v % 16384) free
  else if d = 0x7B then
    let x := x.load u i d (lane0 t.lsuAddr % 16384) free
    { x with t := x.t.stride }
  else if d = 0x7C then { x with stores := x.stores ++ [(lane0 t.lsuAddr % 16384, v)] }
  else if d = 0x7D then { x with stores := x.stores ++ [(lane0 t.lsuAddr % 16384, v)], t := t.stride }
  else if inRng 0x84 0x87 d then
    let p := (d - 0x84) / 2
    let a := lane0 (atV t.rfAd p 0) % 32
    let x := { x with rfw := x.rfw ++ [(p, a, v)] }
    if d % 2 = 1 then { x with t := { t with rfAd := setV t.rfAd p (BitVec.ofNat 128 ((a + 1) % 32)) } } else x
  else if inRng 0x88 0x8B d then
    let p := (d - 0x88) / 2
    if d % 2 = 0 then { x with t := t.later 1 (.rf p (atV t.rf (lane0 v % 32) 0)) }
    else
      let a := lane0 (atV t.rfAd (2 + p) 0) % 32
      { x with t := ({ t with rfAd := setV t.rfAd (2 + p) (BitVec.ofNat 128 ((a + 1) % 32)) } : Tile).later 1 (.rf p (atV t.rf a 0)) }
  else if inRng 0x90 0x93 d then
    let q := d - 0x90
    if bitsN e (3 * q + 2) (3 * q) = 5 then { x with sends := (q, v) :: x.sends } else { x with t := t.fault 1 false i d }
  else if d = 0x99 then { x with t := t.push i d v vc vr }
  else if d = 0x9A then if v = 0 then x else { x with t := t.push i d v vc vr }
  else if d = 0x9C then { x with loop := some (lane0 v % 2048, lane0 t.seqCount) }
  else x

/-- The end entry of the frame (R160, R161), and the end of the program. -/
def Tile.finish (t : Tile) (vc vr : Nat) : Tile :=
  let e : OutqEnt := { isEnd := true, data := 0, tag := 0, cycle := t.cyc % 2 ^ 24, prog := t.prog, vcol := vc, vrow := vr,
                       frame := unsigned 16 t.frame, fault := t.fNow, poison := t.popPoison, discarded := sat 8 t.dropNow }
  { t with outq := t.outq ++ [e], done := true, pushed := t.pushedNow, st := if t.st = .run then .idle else t.st }

/-- The word after `w` when the loops that end at `w` have been served (R157). -/
def Tile.afterWord : List Loop → Nat → Nat × List Loop
  | [], w => ((w + 1) % 2048, [])
  | l :: r, w =>
    if l.last ≠ w then ((w + 1) % 2048, l :: r)
    else if 0 < l.left then (l.first, { l with left := l.left - 1, it := l.it + 1 } :: r)
    else Tile.afterWord r w

/-- Step to the next word: a loop begins, is skipped, or the loops that end here are served. -/
def Tile.advance (t : Tile) (loop : Option (Nat × Nat)) : Tile :=
  let go := fun (p : Nat × List Loop) => { t with pc := p.1, loops := p.2, rep := 0 }
  match loop with
  | some (body, cnt) =>
    if cnt = 0 ∨ body = 0 then go (Tile.afterWord t.loops (t.pc + body))
    else go ((t.pc + 1) % 2048, { first := t.pc + 1, last := t.pc + body, left := cnt - 1, it := 0 } :: t.loops)
  | none => go (Tile.afterWord t.loops t.pc)

/-- Two moves to one destination of a word: the loader refuses such words (R145); the value that stands is free. -/
def oneEach (free : Nat → V128) : List (Nat × Nat × V128) → List (Nat × Nat × V128)
  | [] => []
  | (i, d, v) :: r =>
    let rest := oneEach free r
    if d ≠ 0 ∧ rest.any (fun e => e.2.1 == d) then (i, d, free (i + 1)) :: rest.filter (fun e => e.2.1 != d) else (i, d, v) :: rest

/-- One execution of the word at `pc` (R142 to R144, R157 to R160). -/
def Tile.execWord (t : Tile) (u : TileUpset) (e vc vr : Nat) (free : Nat → V128) : TileCyc :=
  let x0 : TileCyc := { t := t, popped := [], wr := [], sends := [], stores := [], rfw := [], loop := none, ecc := none }
  if u = .moveWord then { x0 with t := { (t.fault 11 false 0 0).finish vc vr with stopped := true } }
  else
    let w := t.move t.pc
    let x := (List.range 8).foldl (fun x i => x.slot t w i) x0
    let wr : List (Nat × Nat × V128) := oneEach free x.wr
    let x := { x with t := wr.foldl (fun (t : Tile) f => t.operand f.2.1 f.2.2) x.t }
    let x : TileCyc := wr.foldl (fun x f => x.trigger u e vc vr (free 0) f.1 f.2.1 f.2.2) x
    let t := x.stores.foldl (fun (t : Tile) a => t.store a.1 a.2) x.t
    let put := fun p (t : Tile) => (x.rfw.filter fun a => a.1 == p).foldl (fun (t : Tile) a => { t with rf := setV t.rf a.2.1 a.2.2 }) t
    let t := put 1 (put 0 t)
    let hdr := w.toNat
    let t := if t.rep < bitsN hdr 15 8 then { t with rep := t.rep + 1 }
      else if bitN hdr 6 then { t.finish vc vr with lastCyc := t.cyc, rep := 0 }
      else t.advance x.loop
    { x with t := t }

/-- The word arriving at input `d` in the present cycle. -/
def Tile.inputAt (t : Tile) (d : Nat) : Option (V128 × Bool) :=
  (t.links.find? fun l => l.dir == d && l.cyc == t.cyc).map fun l => (l.val, l.poison)

/-- Delivery of arriving words to the NET input queues (R171, R173). -/
def Tile.deliver (t : Tile) (e : Nat) : Tile :=
  (List.range 4).foldl (fun t d => match t.inputAt d with
    | some w =>
      if bitN e (12 + d) then
        let q := atV t.net d []
        if q.length < 8 then ({ t with net := setV t.net d (q ++ [w]) } : Tile).mark d (q.length + 1)
        else t.fault 2 true 0 (0xE4 + d)
      else t
    | none => t) t

/-- What leaves on output `d` (R171, R172, R180). -/
def Tile.output (t : Tile) (e : Nat) (sends : List (Nat × V128)) (d : Nat) : Option (V128 × Bool) :=
  match bitsN e (3 * d + 2) (3 * d) with
  | 0 => none
  | 5 =>
    match sends.find? fun x => x.1 == d with
    | some (_, v) => some (v, decide (t.fCode ≠ 0) || t.popPoison)
    | none => if t.fCode ≠ 0 then some (0, true) else none
  | k => if k ≤ 4 then t.inputAt (k - 1) else none

/-- The tile is executing its program. -/
def Tile.executing (t : Tile) : Bool := !t.done && (decide (t.st = .run) || decide (t.st = .faulted))

/-- The present cycle is free (R164): no program runs, or its word is a hollow. -/
def Tile.freeCycle (t : Tile) : Bool := !t.executing || bitN (t.move t.pc).toNat 7

/-- The state of R148 cleared, all queues emptied, the fault record cleared (R179). -/
def Tile.restart (t : Tile) : Tile :=
  { Tile.init with
    st := if t.st = .off then .off else .idle, port := t.port, engine := t.engine, mem := t.mem, bad := t.bad, moves := t.moves, slots := t.slots,
    lut := t.lut, frames := t.frames, lastCyc := t.lastCyc, free := t.free, freeNow := t.freeNow, ran := t.ran, fLast := t.fLast, hwm := t.hwm, pushed := t.pushed,
    ceCnt := t.ceCnt, ueCnt := t.ueCnt, ceAddr := t.ceAddr, ueAddr := t.ueAddr, passes := t.passes, scrubNext := t.scrubNext,
    scrubFix := t.scrubFix, portBusy := t.portBusy, portLater := t.portLater, idleFree := t.idleFree, idleFrom := t.idleFrom, idleUsed := t.idleUsed, pcLast := t.pcLast,
    strPos := t.strPos, strWait := t.strWait, cyc := t.cyc, frame := t.frame, prog := t.prog, pc := t.pc }

/-- A tile takes part in a frame on the array: it is mapped (R164). -/
def Tile.inFrame (t : Tile) (frame : Bool) : Bool := frame && decide (t.st ≠ .off)

/-- The port is open to the stream port (R164): the cycle is free, and within a frame no user has it. -/
def Tile.portOpen (t : Tile) (frame : Bool) : Bool := t.freeCycle && (!t.inFrame frame || t.portBusy == t.portLater)

/-- A user of the port takes `n` free cycles (R164, R166), the present one first. Outside a frame they pass with time. -/
def Tile.usePort (t : Tile) (frame : Bool) (n : Nat) : Tile :=
  if t.inFrame frame then { t with portBusy := t.portBusy + n, portLater := t.portLater + (n - 1) } else { t with idleUsed := t.idleUsed + n }

/-- No stream word waits. -/
def Tile.noStream (t : Tile) : Bool := t.port.isEmpty && t.engine.isEmpty

/-- A free cycle of a frame passes (R164): it was its user's, or else that of a tile-space access that waits, when no stream word does. -/
def Tile.portPass (t : Tile) : Tile :=
  if t.portBusy ≠ t.portLater then { t with portBusy := t.portBusy - 1 }
  else if t.noStream then { t with portBusy := t.portBusy - 1, portLater := t.portLater - 1 }
  else t

/-- The stream engine fills the stream port up to 8 words (R165). -/
def Tile.fillPort (t : Tile) : Tile :=
  let k := 8 - t.port.length
  { t with port := t.port ++ t.engine.take k, engine := t.engine.drop k }

/-- The oldest waiting stream word is written (R164, R165). -/
def Tile.portWrite (t : Tile) (frame : Bool) : Tile :=
  let t := t.fillPort
  match t.port with
  | (a, v) :: r => (({ t.store a v with port := r } : Tile).usePort frame 1).fillPort
  | [] => t

/-- A frame begins on the tile (R146, R159): context words, cycle 0, counters. -/
def Tile.begin (t : Tile) (p : Nat) (f : Int) (ctx : List V128) : Tile :=
  let d := (t.move p).toNat
  let t := { t with pc := bitsN d 10 0, rep := 0, loops := [], cyc := 0, prog := p, frame := f, done := false, stopped := false,
                    st := .run, fNow := false, portBusy := 0, portLater := 0, ran := true, popPoison := false, dropNow := 0, pushedNow := 0, links := [], pipe := [],
                    frames := (t.frames + 1) % 2 ^ 32 }
  (ctx.take (bitsN d 44 40)).foldl (fun t w =>
    if t.strm.length < 16 then ({ t with strm := t.strm ++ [w] } : Tile).mark 5 (t.strm.length + 1) else t.fault 4 false 0 0xE8) t

end Sys2Proof.Machine
end

