-- ==== Sys2Proof/Machine/TileOps.lean ====
section
/-! DEFINITION. Tiles in the array: one cycle of a tile, its links, faults and reports, the end of a frame (R162 to R181, R238). -/
namespace Sys2Proof.Machine

def State.updTile (s : State) (t : Nat) (f : Tile → Tile) : State := { s with tile := updV s.tile t f }

/-- Tiles mapped into the running schedule. -/
def State.mappedTiles (s : State) : List Nat := (List.range 272).filter fun t => decide ((s.tileAt t).st ≠ .off)

def State.tileVcol (s : State) (t : Nat) : Nat := (s.vcolOf (t / 16)).getD 0

/-- Change the frame on the array. -/
def State.updRun (s : State) (f : RunFrame → RunFrame) : State := { s with frm.running := s.frm.running.map f }

/-- The array runs an ASSURED placement (R212). -/
def State.assured (s : State) : Bool :=
  match s.frm.running with
  | some r => r.mode == 1
  | none => s.frm.mode == 1

/-- Report the first fault of a tile (R178, R181, R238): event bit, peat entry, array summary, and the ERU event, which in ASSURED waits
for the comparison of the pair (R213, R214). -/
def State.tileFaulted (s : State) (t : Nat) : State :=
  let x := s.tileAt t
  let s := s.orReg (rTileEvt t) 1
  let s := s.peatPush 0x06 x.fCode (leBytes 2 t ++ leBytes 1 x.fSlot ++ leBytes 1 x.fSock ++ leBytes 1 x.fProg ++ leBytes 1 0 ++
    leBytes 4 x.fCyc ++ leBytes 4 (unsigned 32 x.fFrame))
  let s := s.when (!s.assured) fun s => s.raise (tileEv x.fCode) t x.fCode 0
  let s := s.when (!s.rbit rPsqArrFirst 0) fun s =>
    (s.setReg rPsqArrFirst (w32 (fldsOr [(31, 28, x.fCode), (27, 19, t), (18, 15, s.tileVcol t), (14, 11, t % 16), (0, 0, 1)]))).setReg
      rPsqArrFirstFrm (w32i x.fFrame)
  s.updRun fun r => { r with faults := r.faults ++ [(t, x.fCode)] }

/-- Replace a tile; its first fault is reported, and marks an end entry that has already been appended (R179). -/
def State.putTile (s : State) (t : Nat) (x : Tile) : State :=
  let old := s.tileAt t
  if old.fCode = 0 ∧ x.fCode ≠ 0 then
    let mark := fun (e : OutqEnt) => if x.done ∧ e.isEnd ∧ e.frame = unsigned 16 x.frame then { e with fault := true } else e
    let own := fun (e : OutqEnt) => if e.vcol = s.tileVcol t ∧ e.vrow = t % 16 then mark e else e
    ({ s with tile := setV s.tile t { x with outq := x.outq.map mark }, res.outq := s.res.outq.map own } : State).tileFaulted t
  else { s with tile := setV s.tile t x }

/-- An error in a word of tile memory (R168): corrected and counted, or found double and counted. -/
def State.tileEcc (s : State) (t : Nat) (double : Bool) (a : Nat) : State :=
  if double then
    ((s.updTile t fun x => { x with ueCnt := x.ueCnt + 1, ueAddr := a }).orReg (rTileEvt t) 8).raise evTileMemUe t a 0
  else ((s.updTile t fun x => { x with ceCnt := x.ceCnt + 1, ceAddr := a }).orReg (rTileEvt t) 4).raise evTileMemCe t a 0

/-- The tile and its input that output `d` of tile `t` leads to, and the latency of the link (R169, R170, R175). -/
def State.neighbour (s : State) (t d : Nat) : Option (Nat × Nat × Nat) :=
  match s.vcolOf (t / 16) with
  | none => none
  | some v =>
    let row := t % 16
    let goes := fun (v row inp lat : Nat) => match s.ptile v row with
      | some u => if (s.tileAt u).st = .off then none else some (u, inp, lat)
      | none => none
    match d with
    | 0 => if row = 0 then none else goes v (row - 1) 2 1
    | 1 => goes (v + 1) row 3 2
    | 2 => if row = 15 then none else goes v (row + 1) 0 1
    | _ => if v = 0 then none else goes (v - 1) row 1 2

/-- A word leaves tile `t` by output `d` in cycle `c`. -/
def State.linkSend (s : State) (t d c : Nat) (w : V128 × Bool) : State :=
  match s.neighbour t d with
  | some (u, inp, lat) =>
    s.updTile u fun x => { x with links := x.links ++ [{ dir := inp, cyc := c + lat, val := w.1, poison := w.2 }] }
  | none => s

/-- The end of a frame (R179, R186): every mapped tile has passed cycle L - 1. Results in flight land, faulted tiles halt, tiles whose
restart was asked for restart, and the dispatch gap begins. -/
def State.frameEnd (s : State) (r : RunFrame) : State :=
  let s := s.mappedTiles.foldl (fun s t =>
    let x := s.tileAt t
    let x := { x.landUpTo (2 ^ 32) with links := [] }
    let s := s.putTile t x
    s.updTile t fun x =>
      let x := { x with fLast := x.fNow, st := if x.st = TileSt.faulted then TileSt.halted else if x.st = TileSt.run then TileSt.idle else x.st }
      if x.restartReq then x.restart else x) s
  let r := s.frm.running.getD r
  { s with frm.running := none, frm.ended := s.frm.ended ++ [r], frm.endTs := s.ts, frm.gapCyc := 0, frm.gapFrom := s.ts,
           psq.cx := s.psq.cx.map fun c => { c with sawGap := true } }

/-- End the frame when every mapped tile has passed its last cycle. -/
def State.frameEndCheck (s : State) : State :=
  match s.frm.running with
  | some r => if s.mappedTiles.all (fun t => decide (r.len ≤ (s.tileAt t).cyc) && !(s.tileAt t).executing) then s.frameEnd r else s
  | none => s

/-- The array's tiles advance in lockstep: a tile runs its next cycle when no mapped tile is behind it (R139, R187). -/
def State.inStep (s : State) (t : Nat) : Bool := s.mappedTiles.all fun u => decide ((s.tileAt t).cyc ≤ (s.tileAt u).cyc)

/-- Free data for what a cycle leaves open (log 1). -/
def State.freeV (s : State) (i : Nat) : V128 := (Config.freeBits (s.fresh + i)).setWidth 128

/-- One cycle of a tile in a frame: results land, its word executes, its router carries words (R143, R171). -/
def State.tileCycle (s : State) (t : Nat) (u : TileUpset) : State :=
  let x0 := s.tileAt t
  let c := x0.cyc
  let p := s.rf (rTileNet t) 9 0
  let x1 := x0.landUpTo c
  let (x1, e) := if p = 0 then (x1, 0)
    else if u = .slotEntry then (x1.fault 12 false 0 0, 0) else (x1, x1.entry (c % p))
  let free := x1.freeCycle
  let y : TileCyc := if x1.executing then x1.execWord u e (s.tileVcol t) (t % 16) s.freeV
    else { t := x1, popped := [], wr := [], sends := [], stores := [], rfw := [], loop := none, ecc := none }
  let poisoned := y.popped.any fun d => inRng 0xE4 0xE7 d && (((atV x1.net (d - 0xE4) []).head?).map (·.2)).getD false
  -- a delivery that overflows records the word of this cycle (R178)
  let x2 := if p = 0 then y.t else { ({ y.t with pc := x1.pc } : Tile).deliver e with pc := y.t.pc }
  let outs := if p = 0 then [] else (List.range 4).filterMap fun d => (x2.output e y.sends d).map fun w => (d, w)
  let x3 := if free then x2.portPass else x2
  let x3 := { x3 with cyc := c + 1, links := x2.links.filter fun l => decide (c < l.cyc), freeNow := x2.freeNow + b2n free, pcLast := x1.pc,
                      idleFree := x2.idleFree + b2n (free && x2.portBusy == 0 && x2.noStream) }
  let s := (s.tick 9).putTile t x3
  let s := s.when poisoned fun s => s.orReg (rTileEvt t) 2
  let s := match y.ecc with
    | some (dbl, a) => s.tileEcc t dbl a
    | none => s
  (outs.foldl (fun s o => s.linkSend t o.1 c o.2) s).frameEndCheck

/-- An OUTQ entry reaches the results engine; an entry of a frame that no record awaits is dropped (R264). -/
def State.collect (s : State) (e : OutqEnt) : State :=
  let await := (s.frm.ended ++ s.frm.running.toList).any fun r => decide (unsigned 16 r.f = e.frame)
  if await then { s with res.outq := s.res.outq ++ [e] } else s

/-- TILE_CTRL.RESTART (R179): a HALTED tile restarts at the next frame boundary, at once when no frame runs. -/
def State.tileRestart (s : State) (t : Nat) : State :=
  if (s.tileAt t).st = .halted then
    if s.frm.running.isSome then s.updTile t fun x => { x with restartReq := true } else s.updTile t Tile.restart
  else s

/-- TILE_CTRL.HWM_CLR (R182). -/
def State.tileHwmClear (s : State) (t : Nat) : State := s.updTile t fun x => { x with hwm := Vector.replicate 7 0 }

/-- The parts of a tile's region of tile space (R166): 0 memory, 1 move store, 2 slot table, 3 lookup table, with the byte offset in it. -/
def tilePart (a : Nat) : Option (Nat × Nat) :=
  if a < 0x40000 then some (0, a)
  else if a < 0x50000 then some (1, a - 0x40000)
  else if a < 0x50800 then some (2, a - 0x50000)
  else if 0x51000 ≤ a ∧ a < 0x52000 then some (3, a - 0x51000)
  else none

/-- A byte of tile space. -/
def Tile.spaceByte (t : Tile) (part a : Nat) : Byte :=
  match part with
  | 0 => BitVec.ofNat 8 ((t.word (a / 16)).toNat / 2 ^ (8 * (a % 16)))
  | 1 => if a % 32 < 20 then BitVec.ofNat 8 ((t.move (a / 32)).toNat / 2 ^ (8 * (a % 32))) else 0
  | 2 => BitVec.ofNat 8 (t.entry (a / 4) / 2 ^ (8 * (a % 4)))
  | _ => memGet ramDefault t.lut a

/-- Replace byte `i` of a number. -/
def putByte (n i : Nat) (b : Byte) : Nat := putBitsN n (8 * i + 7) (8 * i) b.toNat

def Tile.putSpaceByte (t : Tile) (part a : Nat) (b : Byte) : Tile :=
  match part with
  | 0 => t.store (a / 16) (BitVec.ofNat 128 (putByte (t.word (a / 16)).toNat (a % 16) b))
  | 1 =>
    if a % 32 < 20 then
      { t with moves := smPut (fun _ => (0 : BitVec 160)) t.moves (a / 32) (BitVec.ofNat 160 (putByte (t.move (a / 32)).toNat (a % 32) b)) }
    else t
  | 2 => { t with slots := smPut (fun _ => (0 : Word)) t.slots (a / 4) (w32 (putByte (t.entry (a / 4)) (a % 4) b)) }
  | _ => { t with lut := smPut ramDefault t.lut a b }

/-- Access to the stores of a tile is allowed: tile memory always, the others while OFF or HALTED (R166). -/
def Tile.spaceOpen (t : Tile) (part : Nat) : Bool := part == 0 || decide (t.st = .off) || decide (t.st = .halted)

/-- A refused access (R166). -/
def State.tileRefused (s : State) (t : Nat) : State := (s.orReg (rTileEvt t) 16).raise evTileAccessRefused t 0 0

/-- The word's check bits are looked at: true unless two bits are wrong (R168). -/
def State.tileCheck (s : State) (t a : Nat) : Bool × State :=
  match (s.tileAt t).badAt a with
  | 0 => (true, s)
  | 1 => (true, s.tileEcc t false (a % 16384))
  | _ => (false, s.tileEcc t true (a % 16384))

/-- The check bits of words `ws` of tile memory in turn. -/
def State.tileChecks (s : State) (t : Nat) (ws : List Nat) : Bool × State :=
  ws.foldl (fun x a => let (ok, s) := x.2.tileCheck t a; (x.1 && ok, s)) (true, s)

/-- Words of tile memory that hold bytes `a` to `a + k - 1`, and those of them that a write of these bytes reads first, being written in
part (R166). -/
def memWords (a k : Nat) : List Nat := if k = 0 then [] else (List.range ((a + k - 1) / 16 - a / 16 + 1)).map fun i => a / 16 + i
def partWords (a k : Nat) : List Nat := (memWords a k).filter fun w => decide (16 * w < a) || decide (a + k < 16 * w + 16)

/-- Free cycles that an access to `k` bytes of tile memory at byte `a` takes (R166): one for each word read or wholly written, two for a
word written in part. -/
def portCycles (write : Bool) (a k : Nat) : Nat := (memWords a k).length + if write then (partWords a k).length else 0

/-- Tile memory is open to a tile-space access (R164): the port is, and no stream word and no earlier access waits. -/
def State.spaceFree (s : State) (t : Nat) : Bool :=
  (s.tileAt t).portOpen s.frm.running.isSome && (s.tileAt t).noStream &&
    (!(s.tileAt t).inFrame s.frm.running.isSome || (s.tileAt t).portBusy == 0)

/-- The access takes its free cycles (R166). -/
def State.spaceTake (s : State) (t : Nat) (write : Bool) (a k : Nat) : State :=
  if a < 0x40000 then s.updTile t fun x => x.usePort s.frm.running.isSome (portCycles write a k) else s

/-- Write bytes at offset `a` of a tile's region; nothing happens to a closed part but the report. False, and no write, where a word of tile
memory that is written in part shows a double-bit error (R168; DESIGN CHOICE, log 91). -/
def State.tileSpaceWrite (s : State) (t a : Nat) (data : List Byte) : Bool × State :=
  match tilePart a with
  | none => (true, s)
  | some (part, o) =>
    if (s.tileAt t).spaceOpen part then
      let (ok, s) := if part = 0 then s.tileChecks t (partWords o data.length) else (true, s)
      if ok then
        (true, s.updTile t fun x => ((List.range data.length).foldl (fun x i => x.putSpaceByte part (o + i) (data.getD i 0)) x))
      else (false, s)
    else (true, s.tileRefused t)

/-- Read `k` bytes at offset `a` of a tile's region: 0 from a closed part, none where a word shows a double-bit error (R168). -/
def State.tileSpaceRead (s : State) (t a k : Nat) : Option (List Byte) × State :=
  match tilePart a with
  | none => (some (List.replicate k 0), s)
  | some (part, o) =>
    if (s.tileAt t).spaceOpen part then
      let (ok, s) := if part = 0 then s.tileChecks t (memWords o k) else (true, s)
      (if ok then some ((List.range k).map fun i => (s.tileAt t).spaceByte part (o + i)) else none, s)
    else (some (List.replicate k 0), s.tileRefused t)

end Sys2Proof.Machine
end

