-- ==== Sys2Proof/Machine/TileCmd.lean ====
section
/-! DEFINITION. Meanings of the tile commands: cycles, the end of the budget, queue drain, stream writes, scrubbing (R143 to R181). -/
namespace Sys2Proof.Machine

/-- MOVE_WORD_EXECUTE (R143, R171): the next cycle of tile `t` in the frame on the array. -/
def execMoveWordExecute (t : Fin 272) (u : TileUpset) (s : State) : Host.Outcome State Fault Refusal := s.clocked fun s =>
  match s.frm.running with
  | none => .next s
  | some r =>
    if (s.tileAt t).st = .off ∨ r.len ≤ (s.tileAt t).cyc ∨ !s.inStep t then .next s else .next (s.tileCycle t u)

/-- TILE_BUDGET_END (R178, R179): cycle L - 1 has ended with the program short of its EOF word. -/
def execTileBudgetEnd (t : Fin 272) (s : State) : Host.Outcome State Fault Refusal := s.clocked fun s =>
  match s.frm.running with
  | none => .next s
  | some r =>
    let x := s.tileAt t
    if x.cyc < r.len ∨ !x.executing then .next s
    else
      let y := ({ x with cyc := r.len - 1, pc := x.pcLast } : Tile).fault 10 false 0 0
      let y := { y.finish (s.tileVcol t) (t % 16) with stopped := true, cyc := r.len }
      .next (s.putTile t y).frameEndCheck

/-- OUTQ_DRAIN (R162): the oldest entry of the tile's OUTQ leaves for the results engine. -/
def execOutqDrain (t : Fin 272) (s : State) : Host.Outcome State Fault Refusal := s.clocked fun s =>
  match (s.tileAt t).outq with
  | [] => .next s
  | e :: r => .next ((s.updTile t fun x => { x with outq := r }).collect e)

/-- STREAM_PORT_WRITE (R164, R165, R168): the oldest waiting stream word is written in a free cycle that no user holds. -/
def execStreamPortWrite (t : TilePort) (s : State) : Host.Outcome State Fault Refusal := s.clocked fun s =>
  let x := s.tileAt t.tile
  if x.st = .off ∨ !x.portOpen s.frm.running.isSome then .next s
  else match x.fillPort.port with
    | [] => .next s
    | (a, _) :: _ =>
      let s := ((s.updTile t.tile fun x => x.upset t.upset a).tileCheck t.tile a).2
      .next (s.updTile t.tile fun x => x.portWrite s.frm.running.isSome)

/-- The scrubber of tile `t` may use the port: it is on, the cycle is free and no other user has it or waits (R164, R167). -/
def State.scrubFree (s : State) (t : Nat) : Bool :=
  decide ((s.tileAt t).st ≠ .off) && s.rbit (rTileCtrl t) 1 && s.spaceFree t

/-- Free cycles of tile `t` that no other user took since the last scrub read; outside a frame every cycle is one but those taken. -/
def State.scrubIdle (s : State) (t : Nat) : Nat :=
  let x := s.tileAt t
  x.idleFree + (if s.frm.running.isSome then 0
    else (s.ts - max x.idleFrom s.frm.endTs) * aclkMHz s.frm.step / 800 - x.idleUsed)

/-- The scrubber's read is due: one in 2^SCRUB_SHIFT of those cycles, the present one among them (R167). -/
def State.scrubDue (s : State) (t : Nat) : Bool := decide (2 ^ s.rf (rTileCtrl t) 7 4 ≤ s.scrubIdle t + 1)

/-- SCRUB_READ (R167, R168): the scrubber reads the next word; `u` says what its check bits show. -/
def execScrubRead (t : Fin 272) (u : TileUpset) (s : State) : Host.Outcome State Fault Refusal := s.clocked fun s =>
  let x := s.tileAt t
  if !s.scrubFree t ∨ !s.scrubDue t ∨ x.scrubFix.isSome then .next s
  else
    let a := x.scrubNext
    let x := x.upset u a
    let s := s.updTile t fun _ =>
      ({ x with scrubNext := (a + 1) % 16384, passes := if a = 16383 then (x.passes + 1) % 65536 else x.passes,
                scrubFix := if x.badAt a = 1 then some a else none, idleFree := 0, idleFrom := s.ts, idleUsed := 0 } : Tile).usePort
        s.frm.running.isSome 1
    .next (s.tileCheck t a).2

/-- SCRUB_WRITEBACK (R167): the corrected word is written in the next free cycle, unless it was written in between. The store holds the
correct word either way. -/
def execScrubWriteback (t : Fin 272) (s : State) : Host.Outcome State Fault Refusal := s.clocked fun s =>
  match (s.tileAt t).scrubFix with
  | some a =>
    .next (s.when (s.scrubFree t) fun s => s.updTile t fun x => (({ x with scrubFix := none } : Tile).setBad a 0).usePort s.frm.running.isSome 1)
  | none => .next s

end Sys2Proof.Machine
end

