-- ==== Sys2Proof/Machine/FrameOps.lean ====
section
/-! DEFINITION. Frames on the array: loading a schedule set, staging, dispatch, slips, switches and reloads (R183 to R235). -/
namespace Sys2Proof.Machine

/-- A waiting command ends (R526, R529). -/
def State.endWait (s : State) (seq ostat ocode odata : Nat) : State :=
  if seq = 0 then s
  else ({ s with jnl.wait := s.jnl.wait.filter fun q => q.seq != seq } : State).complete seq ostat ocode odata

/-- The outputs are enabled and the device is RUNNING (R25, R455, R456). With the die link lost they stay safe (R14, R31). -/
def State.enableOutputs (s : State) : State :=
  if !s.sys.dieLink || s.fatalStands then s
  else ({ s.goState .running with sys.outEn := true } : State).trgRefresh.gpoRefresh

/-- The record of tile (`v`, `row`) in a schedule set, as its offset (R226, R227). -/
def ssRecOf (b : List Byte) (v row : Nat) : Option Nat :=
  (List.range (ssNrec b)).findSome? fun i =>
    let o := ssRec b i
    if fieldAt b o 1 = v ∧ fieldAt b (o + 1) 1 = row then some o else none

/-- Offset of parts 1 to 4 of the record at `o`: its own, or those of the record it shares (R227). -/
def ssData (b : List Byte) (o : Nat) : Nat := if bitN (fieldAt b (o + 2) 1) 1 then ssRec b (fieldAt b (o + 4) 2) else o

/-- The virtual column and row of the record that describes physical tile `t`, and its copy: in ASSURED, columns from W on hold copy B
(R212, R233). -/
def State.recCoord (s : State) (mode t : Nat) : Option (Nat × Nat) :=
  (s.vcolOf (t / 16)).map fun v => (if mode = 1 then v % s.halfCols else v, t % 16)

/-- The record of physical tile `t` in set bytes `b`, `none` outside the grid. -/
def State.tileRec (s : State) (b : List Byte) (mode t : Nat) : Option Nat :=
  match s.recCoord mode t, s.vcolOf (t / 16) with
  | some (v, row), some x => if mode = 1 ∧ 2 * s.halfCols ≤ x then none else ssRecOf b v row
  | _, _ => none

/-- One relocation (R232): bits [15:0] of a constant-lane slot become ADDEND plus the quantity named. -/
def relocate (w : BitVec 160) (slot v : Nat) : BitVec 160 :=
  BitVec.ofNat 160 (putBitsN w.toNat (16 + 18 * slot + 15) (16 + 18 * slot) v)

/-- The move store of a record with its relocations applied for its tile (R232, R233). -/
def ssMoves (b : List Byte) (o v row width : Nat) : SMap (BitVec 160) :=
  let d := ssData b o
  let nrel := fieldAt b (d + 6) 2
  let rels := (List.range nrel).map fun i => fieldAt b (d + 64 + 40960 + 2048 + 4096 + 8 * i) 8
  (List.range 2048).filterMap fun i =>
    let w := BitVec.ofNat 160 (fieldAt b (d + 64 + 20 * i) 20)
    let w := (rels.filter fun r => bitsN r 10 0 == i).foldl (fun w r =>
      let q := match bitsN r 19 16 with
        | 0 => v
        | 1 => row
        | _ => width
      relocate w (bitsN r 13 11) ((bitsN r 47 32 + q) % 65536)) w
    if w = 0 then none else some (i, w)

def ssSlots (b : List Byte) (o : Nat) : SMap Word :=
  (List.range 512).filterMap fun i =>
    let w := w32 (fieldAt b (ssData b o + 64 + 40960 + 4 * i) 4)
    if w = 0 then none else some (i, w)

def ssLut (b : List Byte) (o : Nat) : Memory :=
  (List.range 4096).filterMap fun i =>
    let x := b.getD (ssData b o + 64 + 40960 + 2048 + i) 0
    if x = 0 then none else some (i, x)

/-- Stream-list entries of program `p` in the record at `o` (R227, R229). -/
def ssStream (b : List Byte) (o p : Nat) : List Nat :=
  let own := bitN (fieldAt b (o + 2) 1) 1
  let base := o + 64 + (if own then 0 else 40960 + 2048 + 4096 + 8 * fieldAt b (o + 6) 2)
  let n := fun k => fieldAt b (o + 16 + 2 * k) 2
  let skip := sumN ((List.range p).map n)
  (List.range (n p)).map fun i => fieldAt b (base + 8 * (skip + i)) 8

/-- Write schedule set `set`, whose bytes are `b`, into the array (R233): mapped tiles get their stores, EN and P; every other tile is OFF. -/
def State.loadArray (s : State) (set mode : Nat) (b : List Byte) : State :=
  let s := s.each 272 fun t s =>
    match s.tileRec b mode t, s.recCoord mode t with
    | some o, some (v, row) =>
      let s := s.updTile t fun x =>
        { ({ x with st := .idle } : Tile).restart with
          moves := ssMoves b o v row (if mode = 1 then s.halfCols else ssCols b), slots := ssSlots b o, lut := ssLut b o,
          port := [], engine := [], strPos := 0, strWait := [] }
      (s.setRf (rTileNet t) 9 0 (if bitN (fieldAt b (o + 2) 1) 0 then ssP b else 0)).setRf (rTileCtrl t) 0 0 1
    | _, _ =>
      let s := s.updTile t fun x => { x.restart with st := .off, port := [], engine := [], strPos := 0, strWait := [] }
      (s.setRf (rTileNet t) 9 0 0).setRf (rTileCtrl t) 0 0 0
  { s with img.arr := some set }

/-- TS units of the dispatch gap, 256 cycles of the present ACLK (R187). -/
def State.gapTs (s : State) : Nat := (256 * 800 + aclkMHz s.frm.step - 1) / aclkMHz s.frm.step

/-- Program of a frame of recipe `r`: PROG, or the one the PSQ named for the next frame (R189). -/
def State.nextProg (s : State) (r : Nat) : Nat := s.frm.progSel.getD (s.rcpProg r)

/-- Lines that the stream lists of program `p` read: head, plane, line of the frame (R230). -/
def State.needLines (s : State) (p : Nat) : List (Nat × Nat × Nat) :=
  let b := s.arrBytes
  ((List.range (ssNrec b)).flatMap fun i => (ssStream b (ssRec b i) p).map fun e => (bitsN e 54 50, bitsN e 49 48, bitsN e 46 40)).eraseDups

/-- Every word of the frame at line `m` has been staged, by the stream lists of its own recipe and program (R186, R192). -/
def State.stagedAll (s : State) (r : Nat) (m : Int) : Bool :=
  (s.needLines (s.nextProg r)).all (fun (h, q, j) =>
    s.frm.stagedBy == (r, s.nextProg r) && s.frm.staged.any fun e => e.1.head == h && e.1.q == q && decide (e.1.m = m + (j : Int))) &&
  s.mappedTiles.all fun t => (s.tileAt t).port.isEmpty && (s.tileAt t).engine.isEmpty

/-- The input of the frame at line `m` is complete (R134). -/
def State.inputComplete (s : State) (r : Nat) (m : Int) : Bool :=
  (s.rcpHeads r).all fun h => (List.range (s.headNopl h)).all fun q =>
    match (s.planeAt h q).wFirst, (s.planeAt h q).wLast with
    | some a, some z => decide (a ≤ m) && decide (s.nextFrameLine r m ≤ z + 1)
    | _, _ => false

/-- The frame domain lets frames run (R188). -/
def State.fdomRuns (s : State) (r : Nat) : Bool :=
  decide ((s.dom (s.rcpFdom r)).lock = .locked) || decide ((s.dom (s.rcpFdom r)).lock = .coast)

/-- A TWIN secondary that has lost its primary dispatches no frame (R218). -/
def State.twinHeld (s : State) : Bool := s.frm.twinLost && decide (s.frm.mode = 2) && decide (s.twinRole = 2)

/-- A due frame is ready and may be dispatched (R186 to R189). -/
def State.canDispatch (s : State) (e : DueFrame) : Bool :=
  s.live && !s.sys.noDispatch && s.fdomRuns e.recipe && !s.twinHeld && s.frm.running.isNone && s.frm.reload.isNone &&
  decide (s.frm.endTs + s.gapTs ≤ s.ts) && decide (s.frm.recipe = some e.recipe) && decide (s.frm.mode = e.mode) &&
  decide (s.img.arr = some (s.rcpSS e.recipe)) && decide (ssBudget s.arrBytes (s.nextProg e.recipe) ≠ 0) &&
  s.inputComplete e.recipe e.line && s.stagedAll e.recipe e.line

/-- Slots of the frame at line `m` of recipe `r` (R190). -/
def State.frameSlots (s : State) (r : Nat) (m : Int) : List SlotInfo :=
  s.frm.slots.filter fun e => s.rcpHead r e.head && decide (m ≤ e.m) && decide (e.m < s.nextFrameLine r m)

/-- Bit `h` set for the heads at which some slot passes `f`. -/
def headMask (l : List SlotInfo) (f : SlotInfo → Bool) : Nat := maskOf 32 fun h => l.any fun e => e.head == h && f e

/-- The context words of a dispatch (R190). -/
def State.contextWords (s : State) (e : DueFrame) (p slip : Nat) : List V128 :=
  let sl := s.frameSlots e.recipe e.line
  let or16 := sl.foldl (fun a x => a ||| x.flags) 0
  let inc := headMask sl fun x => bitN x.flags 0
  let st := headMask sl fun x => bitN x.flags 5
  let w := fun (n : Nat) => BitVec.ofNat 128 n
  [ w (unsigned 64 e.f + fldsOr [(65, 64, p), (68, 66, e.mode), (71, 69, s.frm.step), (85, 80, e.recipe), (111, 96, s.rcpB e.recipe),
      (116, 112, slip)]),
    w (unsigned 64 (s.rcpLineY e.recipe e.line) + fldsOr [(95, 64, unsigned 32 e.vel), (111, 96, or16), (115, 112, s.rcpFdom e.recipe)]),
    w (inc + st * 2 ^ 32) ] ++ (List.range 13).map fun i => w (s.rcpConst e.recipe i)

/-- ACLK cycles since the previous frame ended. -/
def State.gapCycles (s : State) : Nat := s.frm.gapCyc + (s.ts - s.frm.gapFrom) * aclkMHz s.frm.step / 800

/-- The cycles of the gap so far are counted, before ACLK changes or other tiles are mapped (R167, R182, R197). -/
def State.gapSplit (s : State) : State :=
  if s.frm.running.isSome then s
  else
    { s with frm.gapCyc := s.gapCycles, frm.gapFrom := s.ts,
             tile := s.tile.mapIdx fun t (x : Tile) => { x with idleFree := s.scrubIdle t, idleFrom := s.ts, idleUsed := 0 } }

/-- The domain of an F-class register (R487): its head's domain for the conditioning slices, the frame domain otherwise. -/
def State.shadowDom (s : State) (o : Nat) : Option Nat :=
  if rLcuSCtrl 0 ≤ o ∧ o < rLcuSCtrl 32 then some (s.gDom (s.headGen ((o - rLcuSCtrl 0) / 0x1000))) else s.fdom

/-- The shadows of the frame domain are applied, but for those written after the gap began (R487). -/
def State.applyShadows (s : State) : State :=
  let now := fun (x : Nat × Word × Bool) => !x.2.2 && s.shadowDom x.1 == s.fdom
  let t := (s.shadow.filter now).foldl (fun s x => s.setReg x.1 x.2.1) s
  { t with shadow := (s.shadow.filter fun x => !now x).map fun x => (x.1, x.2.1, false) }

/-- Dispatch frame `e` (R186, R187, R189 to R191, R199): outputs that wait are enabled in the gap, every mapped tile that is not HALTED
begins cycle 0. -/
def State.dispatch (s : State) (e : DueFrame) : State :=
  let p := s.nextProg e.recipe
  let slip := if e.late then min 16 s.lag else 0
  let s := s.applyShadows
  let starts := s.jnl.wait.filter fun q => q.code == 0x01 && !s.sys.cenStop
  let s := s.when (starts ≠ [] ∧ s.sys.st ≠ .running) State.enableOutputs
  let s := starts.foldl (fun s q => s.endWait q.seq 1 0 (unsigned 64 e.f)) s
  -- the first frame dispatched with a new customer page (R260)
  let s := s.psq.swapped.foldl (fun s n => s.endWait n 1 0 (unsigned 64 e.f)) s
  let ctx := s.contextWords e p slip
  let sl := s.frameSlots e.recipe e.line
  let gap := s.gapCycles
  let tiles := s.mappedTiles
  let halted := tiles.filter fun t => decide ((s.tileAt t).st = .halted)
  let runs := tiles.filter fun t => decide ((s.tileAt t).st ≠ .halted)
  let idle := (List.range 272).map s.scrubIdle
  let r : RunFrame :=
    { f := e.f, prog := p, len := ssBudget s.arrBytes p, recipe := e.recipe, mode := e.mode, step := s.frm.step, slip := slip,
      due := e.due, disp := s.ts, vel := e.vel, late := e.late, line := e.line,
      flagsOr := sl.foldl (fun a x => a ||| x.flags) 0, tiles := runs, halted := halted,
      faults := [], out := s.sys.outEn }
  let s := { s with frm.running := some r, frm.due := s.frm.due.filter fun x => x.line != e.line, frm.progSel := none,
                    frm.staged := [], psq.swapped := [],
                    psq.cx := s.psq.cx.map fun (c : Cx) => { c with sawDisp := true } }
  let s := s.refreshNext.bandsStop (Band.dropsBelow e.line)
  let s := tiles.foldl (fun s t => s.updTile t fun x => { x with strPos := 0, strWait := [], idleFree := idle.getD t 0, idleUsed := 0 }) s
  let s := halted.foldl (fun s t => s.updTile t fun x =>
    { x with cyc := 0, links := [], pipe := [], fNow := false, portBusy := 0, portLater := 0, freeNow := x.freeNow + gap }) s
  let s := runs.foldl (fun s t =>
    let x := s.tileAt t
    s.putTile t (({ x with free := if x.ran then x.freeNow + gap else x.free, freeNow := 0 } : Tile).begin p e.f ctx)) s
  let s := (s.addWrap rPsqFrmDisp 1).setReg rPsqFrmDly (w32 (sat 32 ((s.ts - e.due) * 5 / 4)))
  if e.late then s.addWrap rPsqFrmLate 1
  else if s.frm.lateRun then ({ s with frm.lateRun := false } : State).peatFrame 0x81 (s.rcpFdom e.recipe) 0xFF e.f s.frm.lateN
  else s

/-- A frame slips SA after it became due (R198 to R200). One of a recipe that a reload has yet to bring is dropped with cause SWITCH (R208). -/
def State.slip (s : State) (e : DueFrame) : State :=
  if s.reloadAhead e.line then s.frameDrop e 9
  else if s.rcpSlipDrop e.recipe then s.frameDrop e 1
  else if e.late then s
  else
    let s := { s with frm.due := s.frm.due.map fun (x : DueFrame) => if x.line = e.line then { x with late := true } else x }
    let s := (s.orReg rPsqFrmEvt 1).raise evFrmLate 0 0 (unsigned 64 e.f)
    let n := if s.frm.lateRun then s.frm.lateN + 1 else 1
    let t : State := { s with frm.lateRun := true, frm.lateN := n, frm.lateLast := e.f, frm.lateDom := s.rcpFdom e.recipe }
    if s.frm.lateRun then t else t.peatFrame 0x80 (s.rcpFdom e.recipe) 0xFF e.f 1

/-- Frames that have passed their start allowance slip; during a reload those that slipped before it are dropped too (R208). -/
def State.slips (s : State) : State :=
  (s.frm.due.filter fun e => decide (e.due + s.rcpSA e.recipe * usTs < s.ts) && (!e.late || s.reloadAhead e.line)).foldl State.slip s

/-- The words of one stream-list entry for the frame of number `f`, from the bytes of its slot, or zeros (R192, R194, R230). -/
def streamWords (b : List Byte) (o p e : Nat) (f : Int) (slot : Option (Nat → Nat)) : List (Nat × V128) :=
  let buf := o + 24 + 4 * p
  let nbuf := max 1 (fieldAt b buf 1)
  let stride := fieldAt b (buf + 2) 2
  let a := bitsN e 13 0 + (f % (nbuf : Int)).toNat * stride
  (List.range (bitsN e 39 28 + 1)).map fun i =>
    ((a + i) % 16384, match slot with
      | some g => BitVec.ofNat 128 (g (64 + 16 * (bitsN e 27 16 + i)))
      | none => 0)

/-- The words of the stream-list entries that come next in the list go to the engine (R230). -/
def Tile.releaseStream : Nat → Tile → Tile
  | 0, t => t
  | k + 1, t =>
    match t.strWait.find? fun w => w.1 == t.strPos with
    | some w => Tile.releaseStream k { t with engine := t.engine ++ w.2, strPos := t.strPos + 1,
                                              strWait := t.strWait.filter fun x => x.1 != w.1 }
    | none => t

/-- Stage line `m` = first line + `j` of head `h`, plane `q`, of the next frame (R192 to R194). `dead`: its read exhausted its retries,
so the line is taken as overwritten (R447). The words of a tile are written in the order of its stream list (R230). -/
def State.stageLine (s : State) (r h q j : Nat) (first : Int) (dead : Bool) : State :=
  let m := first + (j : Int)
  let b := s.arrBytes
  let p := s.nextProg r
  let f := first / (s.rcpB r : Int)
  let port := s.slotPort h
  let base := gddrKey port (s.slotAddr h q m)
  let ok := !dead && decide ((s.gdcAt port).st = 2) &&
    decide (leNat (memGetBytes ramDefault s.gddr (base + 8) 8) = unsigned 64 m)
  let slot := if ok then some fun o => leNat (memGetBytes ramDefault s.gddr (base + o) 16) else none
  let s := s.mappedTiles.foldl (fun s t => match s.tileRec b s.frm.mode t with
    | some o =>
      let l := ssStream b o p
      let ws := (List.range l.length).filterMap fun i =>
        let e := l.getD i 0
        if bitsN e 54 50 = h ∧ bitsN e 49 48 = q ∧ bitsN e 46 40 = j then some (i, streamWords b o p e f slot) else none
      s.updTile t fun x => (Tile.releaseStream l.length { x with strWait := x.strWait ++ ws }).fillPort
    | none => s) s
  let flags := ((s.frm.slots.find? fun e => e.head == h && e.q == q && decide (e.m = m)).map (·.flags)).getD 0
  let s := { s with frm.staged := s.frm.staged ++ [({ head := h, q := q, m := m, flags := flags }, !ok)], frm.stagedBy := (r, p) }
  if ok then s
  else ((s.addSat rPsqFrmStatus 27 24 1).raise evStrmOverwritten 0 h 0).bandHead 5 0 h m (m + 1)

/-- The target voltage of ACLK step `n` is written to the regulator in its VOUT_MODE, when AVS is in use (R570 to R572). -/
def State.avsTarget (s : State) (n : Nat) : State :=
  if s.rbit rClkAvsCtrl 7 then
    let v := atV s.otp.avs n 0
    ({ s with clk.target := v } : State).send (.pmbus (s.rf rClkAvsCtrl 6 0) "VOUT_COMMAND" (Config.voutCommand v).toNat)
  else s

/-- An ACLK step takes effect in the dispatch gap (R197, R571), no faster than is permitted by then: after a slower step, or one other than was
asked for, the new target is written. -/
def State.applyStep (s : State) (n : Nat) : State :=
  let old := s.frm.step
  let m := max n s.fastest
  let s := { s.gapSplit with frm.step := m, frm.stepReq := none }
  let s := if m = old then s else ((s.orReg rPsqFrmEvt 16).orReg rClkEvt 1).raise evAclkStep 0 m 0
  s.when (old < m ∨ m ≠ n) fun s => s.avsTarget m

/-- Requests for steps faster than `lim` end (R197, R575); where the voltage of one was asked for, the target of the step in force is written
again (DEDUCED, log 23). -/
def State.limitSteps (s : State) (lim : Nat) : State :=
  let asked := s.clk.avsStep.any (fun n => decide (n < lim)) || s.frm.stepReq.any fun n => decide (n < lim) && decide (n < s.frm.step)
  let s := { s with frm.stepReq := s.frm.stepReq.filter fun n => decide (lim ≤ n),
                    clk.avsStep := s.clk.avsStep.filter fun n => decide (lim ≤ n),
                    clk.avsRetry := s.clk.avsRetry.filter fun p => decide (lim ≤ p.1) }
  s.when asked fun s => s.avsTarget s.frm.step

/-- A mode comes into force (R197, R210): requests for faster steps than it has end, and a step it lacks gives way to its fastest. -/
def State.enterMode (s : State) : State :=
  let lim := s.modeStep
  let s := s.limitSteps lim
  if s.frm.step < lim then s.applyStep lim else s

/-- Line `j` of the next frame, head `h`, plane `q`, is staged once its slot has been written. A frame not yet due which the overspeed
band in force would not keep is not staged (R205; log 87); what another recipe or program staged is staged again (R186, R189). -/
def State.stage (s : State) (h q j : Nat) (dead : Bool) : State :=
  match s.frm.next with
  | none => s
  | some first =>
    let (r, mode) := s.recAt first
    let m := first + (j : Int)
    let written := match (s.planeAt h q).wFirst, (s.planeAt h q).wLast with
      | some a, some z => decide (a ≤ m) && decide (m ≤ z)
      | _, _ => false
    let keeps := !s.frm.due.isEmpty || s.frameKept r s.frm.band (s.frameOf first)
    let s := s.when (s.frm.stagedBy ≠ (r, s.nextProg r) ∧ s.frm.staged ≠ []) State.unstage
    let again := s.frm.staged.any fun e => e.1.head == h && e.1.q == q && decide (e.1.m = m)
    let can := keeps && s.live && written && !again && s.frm.reload.isNone && decide (s.img.arr = some (s.rcpSS r)) &&
      decide (s.frm.mode = mode ∨ s.seamless (s.frm.recipe.getD 0, s.frm.mode) (r, mode)) && decide (j < s.rcpB r)
    if can then s.stageLine r h q j first dead else s

/-- SES of a Kabrimor word (R243, R257): the stream engines start on the next frame; the lines already written are staged at once, the
others as they are written (DESIGN CHOICE, log 96). -/
def State.startStreams (s : State) : State :=
  match s.frm.next with
  | some m => (s.needLines (s.nextProg (s.recAt m).1)).foldl (fun s l => s.stage l.1 l.2.1 l.2.2 false) s
  | none => s

/-- Peat entry of a recipe or mode change (R209, R533). -/
def State.peatRecipe (s : State) (old new : Nat × Nat) (f : Int) (drops : Nat) : State :=
  s.peatPush 0x03 0 (leBytes 1 old.1 ++ leBytes 1 new.1 ++ leBytes 1 old.2 ++ leBytes 1 new.2 ++ leBytes 6 (unsigned 48 f) ++
    leBytes 4 drops)

/-- ODATA of a switch (R521). -/
def switchOdata (f : Int) (drops : Nat) : Nat := unsigned 48 f + sat 16 drops * 2 ^ 48

/-- The recipe in force just before line `m`, were switch `w` not there. -/
def State.recBefore (s : State) (w : Switch) (m : Int) : Nat :=
  s.frm.switches.foldl (fun c x => match x.ms with
    | some k => if k < m ∧ !x.isMode ∧ x != w then x.recipe else c
    | none => c) (s.frm.recipe.getD 0)

/-- The first multiple at or above line `m` of the frame height before the switch and of that after it (R206); both are powers of two. The
recipe before may change as the line moves up past another switch. -/
def State.roundSwitch (s : State) (w : Switch) : Nat → Int → Int
  | 0, m => m
  | k + 1, m =>
    let old := s.recBefore w m
    let n := roundUpTo m (max (s.rcpB old) (s.rcpB (if w.isMode then old else w.recipe)))
    if n = m then m else s.roundSwitch w k n

/-- First line of the frame at which a switch takes effect (R30, R206): not before the next frame to become due, and in the frame domain at
or above its coordinate. A switch of another domain is placed once that domain has reached its coordinate (State.fixSwitches). -/
def State.switchLine (s : State) (w : Switch) : Option Int :=
  match s.frm.dueLine, s.frm.recipe with
  | some d, some old =>
    let op : Int := (s.rcpOpitch old : Int)
    if op = 0 then none
    else
      let byCoord := -((s.dGrid (s.rcpFdom old) - w.coord) / op)
      some (s.roundSwitch w (s.frm.switches.length + 1) (if w.dom = s.rcpFdom old then max d byCoord else d))
  | _, _ => none

/-- Put a switch in its place: ascending first line, then journal sequence number (R30); one without a number, a FALLBACK selection, and
those still to be fixed keep the order of acceptance. -/
def insSwitch (w : Switch) : List Switch → List Switch
  | [] => [w]
  | x :: r =>
    let before := match w.ms, x.ms with
      | some a, some b => decide (a < b) || (decide (a = b) && w.seq != 0 && x.seq != 0 && decide (w.seq < x.seq))
      | some _, none => true
      | none, none => w.seq != 0 && x.seq != 0 && decide (w.seq < x.seq)
      | none, some _ => false
    if before then w :: x :: r else x :: insSwitch w r

/-- Put a switch among those that wait; one that now stands behind it moves up to a boundary that its new predecessor has too (R206). -/
def State.placeSwitch (s : State) (w : Switch) : State :=
  let s := { s with frm.switches := insSwitch w s.frm.switches }
  let move := fun (x : Switch) => { x with ms := x.ms.map fun m => s.roundSwitch x (s.frm.switches.length + 1) m }
  { s with frm.switches := (s.frm.switches.map move).foldl (fun l x => insSwitch x l) [] }

/-- A SELECT_RECIPE, SET_MODE or fallback selection is accepted (R30, R129, R130, R206): its frame is fixed when the domain named is the
frame domain, else once that domain has reached the coordinate; the slices begin to load a new table set. -/
def State.acceptSwitch (s : State) (seq recipe mode : Nat) (isMode : Bool) (dom : Nat) (coord : Int) : State :=
  let w : Switch := { seq := seq, recipe := recipe, mode := mode, isMode := isMode, dom := dom, coord := coord, ms := none }
  (s.placeSwitch { w with ms := if s.fdom = some dom then s.switchLine w else none }).wantTables

/-- Fix the frame of switches whose domain has reached its coordinate. -/
def State.fixSwitches (s : State) : State :=
  s.frm.switches.foldl (fun s w =>
    if w.ms.isNone && (decide (w.coord ≤ (s.dom w.dom).hwm) || decide (s.fdom = some w.dom)) then
      let s := { s with frm.switches := s.frm.switches.filter fun x => x != w }
      (s.placeSwitch { w with ms := s.switchLine w }).wantTables
    else s) s

/-- The switches that take effect at the boundary reached: no frame runs, and none of the old recipe waits before them. -/
def State.switchesDue (s : State) : List Switch :=
  if s.frm.running.isSome ∨ s.frm.reload.isSome then []
  else match s.frm.next with
    | some n =>
      match (s.frm.switches.head?).bind (·.ms) with
      | some first => if first ≤ n then s.frm.switches.filter fun w => w.ms == some first else []
      | none => []
    | none => []

/-- The slices change over to the table set of recipe `r`, and look to the next (R129, R130). -/
def State.changeTables (s : State) (r : Nat) : State :=
  ({ s with slice := s.slice.map fun c => c.changeTable (s.rcpTS r) } : State).wantTables

/-- A recipe and mode come into force at a frame boundary; a change of frame domain begins its frames afresh. -/
def State.takeRecipe (s : State) (r mode : Nat) : State :=
  let moved := s.fdom ≠ some (s.rcpFdom r)
  let s := { s with frm.recipe := some r, frm.mode := mode, cen.stale := true }
  if moved then s.framesClear else s

/-- A recipe that takes effect sets the marker offsets it names (R476). Markings already queued keep their targets. -/
def State.takeOffsets (s : State) (r : Nat) : State :=
  s.each 8 fun n s => s.when (s.rcpMkofsEn r n) fun s => s.setReg64 (rResMkOfsLo n) (s.rcpMkofs r n)

/-- The switches of a boundary that end refused, from recipe and mode `c` on. -/
def State.switchesRefused (s : State) : Nat × Nat → List Switch → List Switch
  | _, [] => []
  | c, w :: r => (if s.switchRefused c w then [w] else []) ++ s.switchesRefused (s.switchTo c w) r

/-- A switch takes effect (R206 to R210): seamlessly, or as the start of a reload. -/
def State.switchEffect (s : State) (ws : List Switch) : State :=
  let a : Nat × Nat := (s.frm.recipe.getD 0, s.frm.mode)
  let bad := s.switchesRefused a ws
  let good := ws.filter fun w => !bad.contains w
  let s : State := { s with frm.switches := s.frm.switches.filter fun w => !ws.contains w }
  let s : State := bad.foldl (fun s w => s.endWait w.seq 2 2 0) s
  match good.getLast? with
  | none => s
  | some l =>
    let b := good.foldl s.switchTo a
    let m := l.ms.getD 0
    let f := m / (s.rcpB b.1 : Int)
    let easy := s.seamless a b
    let dropped := s.frm.switchDrops
    let s : State := (s.takeRecipe b.1 b.2).changeTables b.1
    let s : State := good.foldl (fun s w => if w.isMode then s else s.takeOffsets w.recipe) s
    let s : State := s.enterMode
    if easy then
      let s := s.peatRecipe a b f 0
      good.foldl (fun s w => s.endWait w.seq 1 0 (switchOdata f 0)) s
    else
      -- switches overridden at the same boundary end here; the last one ends with the reload
      let s := (good.filter fun w => w.seq != l.seq).foldl (fun s w => s.endWait w.seq 1 0 (switchOdata f 0)) s
      let early := dropped.filter fun k => !s.reloadAhead k
      { s with frm.reload := some { seq := l.seq, ms := m, oldRecipe := a.1, oldMode := a.2, recipe := b.1, mode := b.2, drops := early.length, since := s.ts },
               frm.switchDrops := dropped.filter fun k => !early.contains k,
               tile := s.tile.map fun (t : Tile) => if t.st = .off then t else t.restart }

/-- The copy of schedule set `i` in the system area: on GD_P0, or on GD_P1 when that is not UP (R450). -/
def State.sysCopySet (s : State) (i : Nat) : List Byte :=
  let p := if (s.gdcAt 0).st = 2 ∧ (s.gdcAt 0).syscopy then 0 else 1
  memGetBytes ramDefault s.gddr (gddrKey p (s.gdcCap p * 2 ^ 20 - 0x10000000) + i * 0x1000000) (s.setBytes i).length

/-- The reload ends (R208, R209, R219, R450). -/
def State.reloadDone (s : State) (r : Reload) : State :=
  let f := r.ms / (s.rcpB r.recipe : Int)
  let gap := s.gapCycles
  let idle := (List.range 272).map s.scrubIdle
  let s := s.loadArray (s.rcpSS r.recipe) r.mode (s.sysCopySet (s.rcpSS r.recipe))
  -- the cycles of the gap so far count on (R167, R182)
  let s := s.mappedTiles.foldl (fun s t => s.updTile t fun x =>
    { x with freeNow := x.freeNow + gap, idleFree := idle.getD t 0, idleUsed := 0 }) s
  let s := { s with frm.reload := none, frm.endTs := s.ts, frm.gapCyc := 0, frm.gapFrom := s.ts }
  let s := (((s.addSat rPsqFrmSwitch 31 16 1).orReg rPsqFrmEvt 8).raise evFrmSwitch 0 r.recipe 0).endWait r.seq 1 0 (switchOdata f r.drops)
  s.peatRecipe (r.oldRecipe, r.oldMode) (r.recipe, r.mode) f r.drops

/-- Recipe `r` has no ring of an assigned head on a LOST port (R475). -/
def State.clearOfLost (s : State) (r : Nat) : Bool := (s.rcpHeads r).all fun h => decide ((s.gdcAt (s.slotPort h)).st ≠ 3)

/-- The first recipe along the FALLBACK chain without a ring on a LOST port, at most 63 steps (R475). -/
def State.fallbackOf (s : State) : Nat → Nat → Option Nat
  | 0, _ => none
  | k + 1, r =>
    match s.rcpFallback r with
    | none => none
    | some x => if s.clearOfLost x then some x else s.fallbackOf k x

/-- Both mirror ports down for at least 100 µs, or the peer absent from the map (R218). -/
def State.peerGone (s : State) : Bool :=
  (s.mirrorPorts.all fun p => !s.portUp p && decide ((s.fportAt p).downAt + 100 * usTs ≤ s.ts)) ||
    !(s.fab.map.any fun r => r.serial == s.twinPeer)

/-- The secondary takes the mirrored slot with header `b` (R216, R218): in TWIN, at a place the array has, and no slot that has been filled
meanwhile. -/
def State.mirrorAccepts (s : State) (b : List Byte) : Bool :=
  let m := signed 64 (fieldAt b 8 8)
  let q := fieldAt b 30 1
  let h := fieldAt b 31 1
  let late := match (s.planeAt h q).wLast with
    | some z => decide (m ≤ z)
    | none => false
  s.twinRole == 2 && (s.recAt m).2 == 2 && decide (h < 32) && decide (q < 4) && (s.frm.twinLost || !late)

end Sys2Proof.Machine
end

