-- ==== Sys2Proof/Machine/PsqOps.lean ====
section
/-! DEFINITION. The position sequencer: microword fields, checks, waits, actions, next address, contexts, page swaps (R240 to R263). -/
namespace Sys2Proof.Machine

/-- A bit field of a microword (R243). -/
def mw (w : BitVec 128) (hi lo : Nat) : Nat := bitsN w.toNat hi lo

/-- The 8 parity bits of a microword: bit i gives even parity over bits 15i + 14 to 15i (R243). -/
def mwParity (n : Nat) : Nat := maskOf 8 fun i => popcount 15 (bitsN n (15 * i + 14) (15 * i)) % 2 == 1

/-- A microword as the control store holds it, with its parity. -/
def mwStore (n : Nat) : BitVec 128 := BitVec.ofNat 128 (n % 2 ^ 120 + mwParity (n % 2 ^ 120) * 2 ^ 120)

/-- A word of the control store at address `a` that nothing has written (R240): the Kabrimor region holds the base microcode, copied from
ROM at every start (R261; log 96). -/
def csDefault (a : Nat) : BitVec 128 := if a < 0x1800 then mwStore (Config.romWord a).toNat else 0
def State.csWord (s : State) (a : Nat) : BitVec 128 := smGet csDefault s.psq.cs a

/-- The stored parity of a word agrees (R259, R262). -/
def mwParityOk (w : BitVec 128) : Bool := mw w 127 120 == mwParity (mw w 119 0)

/-- Address of word `i` of customer page `p` (R240). -/
def pageAddr (p i : Nat) : Nat := 0x1800 + 0x400 * p + i

/-- The words of the table of R247 whose WSEL may be non-zero: how many bits it has. -/
def wselBits (wcond : Nat) : Nat :=
  match wcond with
  | 1 | 4 | 7 => 2
  | 5 | 6 => 4
  | _ => 0

/-- The same of BSEL (R250). -/
def bselBits (bcond : Nat) : Nat :=
  match bcond with
  | 0 | 1 | 2 => 2
  | 3 | 4 | 7 => 4
  | _ => 0

/-- Reason 3 or 4 for which a customer word is refused, or 0 (R258). -/
def mwReason (w : BitVec 128) : Nat :=
  let seqop := mw w 119 117
  let target := mw w 116 104
  let bcond := mw w 103 100
  let wcond := mw w 95 92
  let tosel := mw w 87 86
  let usesTarget := seqop = 1 || seqop = 2 || seqop = 4 || seqop = 5 || seqop = 6 || (seqop = 0 && decide (tosel ≠ 0))
  if mw w 35 32 ≠ 0 ∨ mw w 37 36 ≠ 0 ∨ mw w 39 38 ≠ 0 then 3
  else if 10 ≤ wcond ∨ 2 ^ wselBits wcond ≤ mw w 91 88 ∨ (1 ≤ mw w 84 82 ∧ mw w 84 82 ≤ 3) ∨ mw w 81 80 = 3 ∨ mw w 74 73 = 3 ∨
      5 ≤ mw w 69 67 ∨ 6 ≤ mw w 64 62 ∨ mw w 44 40 ≠ 0 ∨ 1024 ≤ target ∨ (!usesTarget ∧ target ≠ 0) ∨
      (seqop = 4 ∧ (8 ≤ bcond ∨ 2 ^ bselBits bcond ≤ mw w 99 96)) ∨ (seqop ≠ 4 ∧ (bcond ≠ 0 ∨ mw w 99 96 ≠ 0)) ∨
      (tosel ≠ 0 ∧ seqop ≠ 0) ∨ (seqop = 5 ∧ mw w 64 62 ≠ 0) then 4
  else 0

def State.updCx (s : State) (c : Nat) (f : Cx → Cx) : State := { s with psq.cx := updV s.psq.cx c f }

/-- Contexts 0 to 5 are Kabrimor's K0 to K5, 6 and 7 the customer contexts C0 and C1 (R241). -/
def kCx (c : Nat) : Bool := decide (c < 6)

/-- Home domain of context `c` (R248): that of a Kabrimor context is not laid down, and free (log 96). -/
def State.cxDom (s : State) (c : Nat) : Nat := if kCx c then (s.tick 1).freeNat 4 else s.rf (rPsqCxCtrl (c - 6)) 4 1

/-- A µPC that nothing lays down, within the region of a Kabrimor context (log 96). -/
def State.freeUpc (s : State) (c : Nat) : Nat := (s.tick c).freeNat 13 % 0x1800

/-- Domain and value of comparator `n`, and whether it is reached (R252). -/
def State.cmpDom (s : State) (n : Nat) : Nat := s.rf (rPsqCmpCtrl n) 4 1
def State.cmpVal (s : State) (n : Nat) : Int := atV s.psq.cmp n 0
def State.cmpReached (s : State) (n : Nat) : Bool := s.rbit (rPsqCmpCtrl n) 0 && decide (s.cmpVal n ≤ (s.dom (s.cmpDom n)).hwm)
def State.cntVal (s : State) (n : Nat) : Word := atV s.psq.cnt n 0

/-- A context starts at its entry word, 0x000 or 0x001 of the active page, when it is enabled (R242, R246). -/
def State.startCx (s : State) (c : Nat) : State :=
  s.updCx c fun x => { x with st := b2n (s.live && s.rbit (rPsqCxCtrl (c - 6)) 0), upc := c - 6, stack := [], fcode := 0 }

/-- The customer contexts start (R242, R246). -/
def State.startCustomer (s : State) : State := (s.startCx 6).startCx 7

/-- On entry to ARMED the contexts start (R242); where K0 to K5 start is Kabrimor's, and free (log 96). -/
def State.startContexts (s : State) : State :=
  ((s.each 6 fun c s => s.updCx c fun x => { x with st := 1, upc := s.freeUpc c, stack := [] }).startCustomer).tick 6

/-- A context fault (R246). -/
def State.cxFault (s : State) (c code : Nat) : State :=
  ((s.updCx c fun x => { x with st := 3, fcode := code }).orReg rPsqEvt 2).raise evPsqCxFault 0 (c - 6) 0

/-- The condition of a waiting word holds now (R247). -/
def State.waitHolds (s : State) (c : Nat) (w : BitVec 128) : Bool :=
  let x := s.cxAt c
  let sel := mw w 91 88
  match mw w 95 92 with
  | 0 => true
  | 1 => s.cmpReached (sel % 4)
  | 2 => match s.frm.next with
    | some m => s.inputComplete (s.recAt m).1 m
    | none => false
  | 3 => x.sawGap
  | 4 => (atV x.zLatch (sel % 4) none).isSome
  | 5 => (atV x.rLatch sel none).isSome
  | 6 => (atV x.fLatch sel none).isSome
  | 7 => s.cntVal (sel % 4) == 0
  | 8 => !s.frm.due.isEmpty
  | 9 => x.sawDisp
  | _ => false

/-- Stamp of the edge that the wait of word `w` takes, if it waits on one. -/
def Cx.edgeOf (x : Cx) (w : BitVec 128) : Option Nat :=
  let sel := mw w 91 88
  match mw w 95 92 with
  | 4 => atV x.zLatch (sel % 4) none
  | 5 => atV x.rLatch sel none
  | 6 => atV x.fLatch sel none
  | _ => none

/-- A wait ends by its condition: CAP is taken, and the latch waited on cleared (R248). -/
def State.endCxWait (s : State) (c : Nat) (w : BitVec 128) : State :=
  let d := s.cxDom c
  let sel := mw w 91 88
  let cap := if mw w 95 92 = 1 then s.cmpVal (sel % 4)
    else match (s.cxAt c).edgeOf w with
      | some t => s.coordAt d t
      | none => s.coordNow d
  s.updCx c fun x =>
    let x := { x with st := 1, cap := cap }
    match mw w 95 92 with
    | 4 => { x with zLatch := setV x.zLatch (sel % 4) none }
    | 5 => { x with rLatch := setV x.rLatch sel none }
    | 6 => { x with fLatch := setV x.fLatch sel none }
    | _ => x

/-- CMPOP (R252): the comparators belong to the customer contexts, and a Kabrimor word leaves them (log 96). -/
def State.cmpOp (s : State) (c : Nat) (w : BitVec 128) : State :=
  if kCx c then s else
  let n := mw w 66 65
  let d := signed 32 (mw w 31 0) * 1000
  let set := fun (b : Int) => { s with psq.cmp := setV s.psq.cmp n (wrapS 64 (b + d)) }
  match mw w 69 67 with
  | 1 => set (s.cmpVal n)
  | 2 => set (s.coordNow (s.cmpDom n))
  | 3 => set (s.cxAt c).cap
  | 4 => set (s.dom (s.cmpDom n)).hwm
  | _ => s

/-- CNTOP (R253): the counters belong to the customer contexts, and a Kabrimor word leaves them (log 96). -/
def State.cntOp (s : State) (c : Nat) (w : BitVec 128) : State :=
  if kCx c then s else
  let n := mw w 61 60
  let imm := w32 (mw w 31 0)
  let set := fun (v : Word) => { s with psq.cnt := setV s.psq.cnt n v }
  match mw w 64 62 with
  | 1 => set imm
  | 2 => set 0
  | 3 => set (s.cntVal n + 1)
  | 4 => set (s.cntVal n - 1)
  | 5 => set (s.cntVal n + imm)
  | _ => s

/-- MKOP (R254). -/
def State.mkOp (s : State) (w : BitVec 128) : State :=
  let m := mw w 72 70
  let n := mw w 66 65
  match mw w 74 73 with
  | 1 => (s.mkRequest m (s.cmpVal n) (s.cmpDom n) 0 none).1
  | 2 => s.mkCancelPsq m
  | _ => s

/-- TGOP, PROGSEL, SES and PSEV (R255, R257). -/
def State.tgOp (s : State) (c : Nat) (w : BitVec 128) : State :=
  let g := mw w 79 75
  let s : State := match mw w 81 80 with
    | 1 => { s with psq.gateOff := setV s.psq.gateOff g true }
    | 2 => { s with psq.gateOff := setV s.psq.gateOff g false }
    | _ => s
  let p := mw w 84 82
  let s : State := if 4 ≤ p then { s with frm.progSel := some (p - 4) } else s
  let s : State := s.when (kCx c && mw w 85 85 == 1) State.startStreams
  if mw w 49 49 = 1 then
    let d := mw w 48 45
    if s.dPsSrc d == 3 then s.when (s.dEn d) fun s => s.productStart d s.ts else s.orReg rPsqEvt 0x20
  else s

/-- Address and contents of the word a context stands at (R241). -/
def State.cxAddr (s : State) (c : Nat) : Nat := if kCx c then (s.cxAt c).upc else pageAddr s.psq.page (s.cxAt c).upc
def State.cxWord (s : State) (c : Nat) : BitVec 128 := s.csWord (s.cxAddr c)

/-- EVP and PEAT (R256); the µPC logged is the microword address (R240, R241). The number a Kabrimor context shows is free (log 96). -/
def State.evOp (s : State) (c : Nat) (w : BitVec 128) : State :=
  let code := mw w 58 51
  let n := if kCx c then (s.tick 3).freeNat 1 else c - 6
  let s : State := if mw w 59 59 = 1 then
      let s : State := s.orReg rPsqEvt 4
      if s.psq.uevt.length < 16 then
        { s with psq.uevt := s.psq.uevt ++ [{ cx := n, code := code, crd := s.coordNow (s.cxDom c) }] }
      else s.addSat rPsqDrops 31 16 1
    else s
  if mw w 50 50 = 1 then
    let x := s.cxAt c
    let soon := match x.lastLog with
      | some t => decide (s.ts < t + 100 * usTs)
      | none => false
    if soon then s.addSat rPsqDrops 15 0 1
    else
      (s.updCx c fun x => { x with lastLog := some s.ts }).peatPush 0x09 n
        (leBytes 1 code ++ leBytes 1 0 ++ leBytes 2 (s.cxAddr c) ++ leBytes 4 (s.cntVal (mw w 61 60)).toNat ++ leBytes 6 (unsigned 48 x.cap))
  else s

/-- Branch condition (R250). -/
def State.branchHolds (s : State) (c : Nat) (w : BitVec 128) : Bool :=
  let sel := mw w 99 96
  let d := s.cxDom c
  match mw w 103 100 with
  | 0 => s.cntVal (sel % 4) == 0
  | 1 => s.cntVal (sel % 4) != 0
  | 2 => s.cmpReached (sel % 4)
  | 3 => atV s.res.gpi sel false
  | 4 => !atV s.res.gpi sel false
  | 5 => (s.dom d).lock = .locked
  | 6 => (s.dom d).motion = .reverse
  | 7 => if kCx c then decide ((s.tick 2).freeNat 1 = 1) else s.rbit (rPsqCxFlags (c - 6)) sel
  | _ => false

/-- The frame domain is LOCKED or in COAST (R188). -/
def State.fdomGoes (s : State) : Bool := match s.frm.recipe with
  | some r => s.fdomRuns r
  | none => false

/-- What a customer context meets as a fault (R246); a Kabrimor context goes on at a word that nothing lays down (log 96). -/
def State.cxStray (s : State) (c code : Nat) : State :=
  if kCx c then s.updCx c fun x => { x with upc := s.freeUpc c } else s.cxFault c code

/-- Go on at word `a` of the page or of the Kabrimor region, or meet its end (R246). -/
def State.goCx (s : State) (c a : Nat) : State :=
  if a < (if kCx c then 0x1800 else 1024) then s.updCx c fun x => { x with upc := a } else s.cxStray c 3

/-- TARGET, page-relative in customer words (R243, R245). -/
def cxTarget (c : Nat) (w : BitVec 128) : Nat := if kCx c then mw w 116 104 else mw w 113 104

/-- A committed epoch is due: at the boundary of its frame, or in the gap after its domain has reached the coordinate (R343). -/
def State.epochDue (s : State) (p : EpochProp) : Bool :=
  s.frm.running.isNone &&
  (p.late ||
    if s.fdom = some p.dom ∧ s.fdomGoes then
      match s.frm.recipe, s.frm.next with
      | some r, some m => decide (p.coord ≤ s.rcpLineY r m)
      | _, _ => decide (p.coord ≤ (s.dom p.dom).hwm)
    else decide (p.coord ≤ (s.dom p.dom).hwm))

/-- A switch, a committed epoch or an ACLK step takes effect in this gap, before the next dispatch (R30, R197). -/
def State.boundaryWaits (s : State) : Bool := !s.switchesDue.isEmpty || s.cen.committed.any s.epochDue || s.frm.stepReq.isSome

/-- EPOCH of a waiting EPOCH_SWITCH descriptor (R521): argument bytes 16 to 23. -/
def QCmd.epochArg (q : QCmd) : Nat := fieldAt q.desc 32 8

/-- The epoch is applied (R343): bit 0 of the event's DETAIL is EPOCH_LATE (DESIGN CHOICE, log 15). -/
def State.epochApply (s : State) (p : EpochProp) : State :=
  let f := unsigned 64 ((s.frm.next.map s.frameOf).getD 0)
  let s := { s with cen := { s.cen with epoch := p.epoch, committed := s.cen.committed.erase p, stale := true } }
  let s := (s.jnl.wait.filter fun q => q.code == 0x0D && q.epochArg == p.epoch).foldl (fun s q => s.endWait q.seq 1 0 f) s
  (s.orReg rFabCenEvt 4).raise evEpochDone 0 (b2n p.late) 0

/-- Every committed epoch that is due is applied, in the order of their commits: the last of one boundary stands (R30, R343). -/
def State.epochsApply (s : State) : State := (s.cen.committed.filter s.epochDue).foldl State.epochApply s

/-- The swap takes effect: page, switches and epoch of the boundary, contexts (R260); its outcome waits for the first frame
dispatched with the new page. TYPE, SUB and BODY of its peat entry are free. -/
def State.swapEffect (s : State) (q : SwapPend) : State :=
  let s := { s with psq := { s.psq with page := 1 - s.psq.page, swap := none }, cen.stale := true }
  let s := s.fixSwitches
  let s := match s.switchesDue with
    | [] => s
    | ws => s.switchEffect ws
  let s := s.epochsApply
  let fresh := fun (x : Cx) => { x with zLatch := Vector.replicate 4 none, rLatch := Vector.replicate 16 none,
                                         fLatch := Vector.replicate 16 none }
  let s := ((s.updCx 6 fresh).updCx 7 fresh).startCustomer
  let s := ({ s with psq.swapped := s.psq.swapped ++ [q.seq] } : State).orReg rPsqEvt 8
  (s.peatPush (s.freeNat 8) ((s.tick 1).freeNat 8) ((s.tick 2).freeBytes 14)).tick 16

/-- The oldest due frame is dispatched when it is ready (R186); a checked page swap takes effect in the gap before it (R260). -/
def State.dispatchNext (s : State) : State :=
  match s.frm.due with
  | e :: _ =>
    if s.boundaryWaits || !s.canDispatch e then s
    else
      let t := match s.psq.swap with
        | some q => if q.checked then s.swapEffect q else s
        | none => s
      if t.canDispatch e then t.dispatch e else t
  | [] => s

/-- The next address (R245, R246, R257). DSPC in a Kabrimor context dispatches the next frame when it is ready; what its LOOP counts is not
laid down, and free (log 96). -/
def State.nextCx (s : State) (c : Nat) (w : BitVec 128) : State :=
  let x := s.cxAt c
  let target := cxTarget c w
  match mw w 119 117 with
  | 0 => s.goCx c (x.upc + 1)
  | 2 => if 8 ≤ x.stack.length then s.cxStray c 1
    else (s.updCx c fun x => { x with stack := (x.upc + 1) :: x.stack }).goCx c target
  | 3 => match x.stack with
    | [] => s.cxStray c 2
    | a :: r => (s.updCx c fun x => { x with stack := r }).goCx c a
  | 4 => s.goCx c (if s.branchHolds c w then target else x.upc + 1)
  | 5 =>
    if kCx c then s.goCx c (if (s.tick 4).freeNat 1 = 1 then x.upc + 1 else target) else
    let n := mw w 61 60
    let v := s.cntVal n - 1
    ({ s with psq.cnt := setV s.psq.cnt n v } : State).goCx c (if v = 0 then x.upc + 1 else target)
  | 6 => (if kCx c then s.slips.fixSwitches.dispatchNext else s).goCx c target
  | 7 => s.updCx c fun x => { x with st := 0 }
  | _ => s.goCx c target

/-- The actions of a word in their order, then its next address (R251). -/
def State.actWord (s : State) (c : Nat) (w : BitVec 128) : State :=
  ((((((s.cmpOp c w).cntOp c w).mkOp w).tgOp c w).evOp c w).nextCx c w)

/-- The free values of a Kabrimor context's step are used up. -/
def State.cxTick (s : State) (c : Nat) : State := if kCx c then s.tick 6 else s

/-- The value of the timeout a word names has passed since its wait began (R249). -/
def State.timedOut (s : State) (c : Nat) (w : BitVec 128) : Bool :=
  decide (mw w 87 86 ≠ 0) && decide ((s.cxAt c).waitFrom + 80 * (s.reg (rPsqTo (mw w 87 86 - 1))).toNat ≤ s.ts)

/-- A refused word of the window (R258). -/
def State.csRefuse (s : State) (reason a : Nat) : State :=
  let s := (s.setReg rPsqCsErr (w32 (fldsOr [(31, 28, reason), (12, 0, a)]))).orReg rPsqEvt 1
  if reason = 3 then s.raise evPsqCsRefused 0 a 0 else if reason = 4 then s.raise evCfgReservedEnc 0 a 0 else s

/-- A write to offset 0xC commits the word at address `a` after the checks (R244, R258). -/
def State.csCommit (s : State) (a : Nat) (data : Word) : State :=
  let h := fun (i : Nat) => (atV s.psq.hold i 0).toNat
  let n := h 0 + 2 ^ 32 * h 1 + 2 ^ 64 * h 2 + 2 ^ 96 * (data.toNat % 2 ^ 24)
  let w := mwStore n
  let active := decide (pageAddr s.psq.page 0 ≤ a) && decide (a < pageAddr s.psq.page 1024)
  if active || s.psq.swap.isSome || !s.live then s.csRefuse 1 a
  else if a < 0x1800 then s.csRefuse 2 a
  else if mwReason w ≠ 0 then s.csRefuse (mwReason w) a
  else { s with psq.cs := smPut csDefault s.psq.cs a w }

/-- A write to offsets 0x0 to 0x8 goes to the holding register (R244). -/
def State.csHold (s : State) (i : Nat) (data : Word) : State := { s with psq.hold := setV s.psq.hold i data }

/-- A write at byte `o` of the control-store window (R244). -/
def State.csWindowWrite (s : State) (o : Nat) (data : Word) : State :=
  if o / 4 % 4 = 3 then s.csCommit (o / 16) data else s.csHold (o / 4 % 4) data

/-- The debug gate is open for bit `b` of the scope: the core, the sequencer's contexts and pages, the Kabrimor region (R510, R511). -/
def State.debugGate (s : State) (b : Nat) : Bool := s.sec.debugOpened && !s.sec.zeroising && bitN s.sec.scope b

/-- A read of the window: the Kabrimor region reads 0 (R244), but through an open debug gate (R510). -/
def State.csWindowRead (s : State) (o : Nat) : Word :=
  if o / 16 < 0x1800 ∧ !s.debugGate 2 then 0 else w32 (bitsN (s.csWord (o / 16)).toNat (32 * (o / 4 % 4) + 31) (32 * (o / 4 % 4)))

/-- PSQ_CXc_CTRL.RESTART written (R246). -/
def State.cxRestart (s : State) (c : Nat) : State := s.startCx (6 + c)

/-- A read of PSQ_UEVT pops the queue and latches the coordinate (R263). -/
def State.uevtPop (s : State) : Word × State :=
  match s.psq.uevt with
  | [] => (0, s)
  | e :: r => (w32 (2 ^ 31 + fldsOr [(24, 24, e.cx), (7, 0, e.code)]),
      ({ s with psq.uevt := r } : State).setReg64 rPsqUevtCrdLo (unsigned 64 e.crd))

/-- The page check ends (R259): the first word that fails, by `bad` or by its stored parity. -/
def State.swapChecked (s : State) (q : SwapPend) (bad : Option Nat) : State :=
  let p := 1 - s.psq.page
  let fails := (List.range 1024).find? fun i => bad == some i || !mwParityOk (s.csWord (pageAddr p i))
  match fails with
  | some i => (({ s with psq.swap := none } : State).endWait q.seq 2 0x05 (pageAddr p i)).orReg rPsqEvt 0x10
  | none =>
    let q := { q with checked := true }
    let s := { s with psq.swap := some q }
    if s.fdomGoes then s else s.swapEffect q

end Sys2Proof.Machine
end

