-- ==== Sys2Proof/Machine/FabMap.lean ====
section
/-! DEFINITION. The fabric's map: TOPO and MAP messages, addresses, levels and routing tables (R312 to R317). The byte places of TOPO and
of the MAP header are the model's (DESIGN CHOICE, log 13). -/
namespace Sys2Proof.Machine

/-- The fabric is on (R315). -/
def State.fabEn (s : State) : Bool := s.rbit rFabCtrl 0

/-- USE of a port (R295). -/
def State.fabUse (s : State) (p : Nat) : Nat := s.rf (rFabPCtrl p) 1 0

/-- This device's own TOPO (R312). -/
def State.ownTopo (s : State) : Topo :=
  { serial := s.otp.serial, addr := s.fab.addr, at_ := s.ts,
    ports := (List.range 4).map fun p =>
      let q := s.fportAt p
      { use := s.fabUse p, st := q.st, peerSerial := q.peerSerial.getD 0, peerPort := q.peerPort } }

def Topo.bytes (t : Topo) : List Byte :=
  leBytes 8 t.serial ++ leBytes 2 (t.addr.getD 0xFFFF) ++ leBytes 6 0 ++
    t.ports.flatMap fun q => leBytes 1 q.use ++ leBytes 1 q.st ++ leBytes 1 q.peerPort ++ leBytes 5 0 ++ leBytes 8 q.peerSerial

def topoOf (b : List Byte) (now : Nat) : Topo :=
  let a := fieldAt b 8 2
  { serial := fieldAt b 0 8, addr := if a < 512 then some a else none, at_ := now,
    ports := (List.range 4).map fun p =>
      { use := fieldAt b (16 + 16 * p) 1, st := fieldAt b (17 + 16 * p) 1, peerPort := fieldAt b (18 + 16 * p) 1,
        peerSerial := fieldAt b (24 + 16 * p) 8 } }

/-- A MAP record in the layout of R313. -/
def MapRec.bytes (r : MapRec) : List Byte :=
  leBytes 8 r.serial ++ leBytes 2 r.addr ++ (List.range 4).flatMap (fun p => leBytes 2 (r.ports.getD p 0xFFFF)) ++ leBytes 14 0

def mapRecOf (b : List Byte) (o : Nat) : MapRec :=
  { serial := fieldAt b o 8, addr := fieldAt b (o + 8) 2, ports := (List.range 4).map fun p => fieldAt b (o + 10 + 2 * p) 2 }

def mapBytes (epoch root : Nat) (recs : List MapRec) : List Byte :=
  leBytes 4 epoch ++ leBytes 4 0 ++ leBytes 8 root ++ recs.flatMap MapRec.bytes

def mapRecsOf (b : List Byte) : List MapRec := (List.range ((b.length - 16) / 32)).map fun i => mapRecOf b (16 + 32 * i)

/-- Devices the root reaches over FABRIC links that its TOPOs report up. -/
def reachable (topos : List Topo) : Nat → List Nat → List Nat
  | 0, acc => acc
  | n + 1, acc =>
    let near := (topos.filter fun t => acc.contains t.serial).flatMap fun t =>
      (t.ports.filter fun q => q.use == 1 && q.st == 2).map (·.peerSerial)
    let new := ((topos.map (·.serial)).filter fun x => near.contains x && !acc.contains x)
    if new = [] then acc else reachable topos n (acc ++ new)

/-- Insert into an ascending list without repeats. -/
def insNat (x : Nat) : List Nat → List Nat
  | [] => [x]
  | y :: r => if x = y then y :: r else if x < y then x :: y :: r else y :: insNat x r
def ascending (l : List Nat) : List Nat := l.foldl (fun a x => insNat x a) []

/-- Pins of the root's fabric plan: serial, address (R480). -/
def State.pins (s : State) : List (Nat × Nat) :=
  (List.range (fieldAt s.img.plan 4 2)).map fun i => (fieldAt s.img.plan (16 + 16 * i) 8, fieldAt s.img.plan (24 + 16 * i) 2)

/-- The pinned address a device present receives: the lowest serial of those pinned to it (R314). -/
def grantedPin (pins : List (Nat × Nat)) (live : List Nat) (ser : Nat) : Option Nat :=
  match pins.find? fun p => p.1 == ser with
  | some (_, a) => if live.any fun x => decide (x < ser) && (pins.find? fun p => p.1 == x).map (·.2) == some a then none else some a
  | none => none

/-- The least address below 512 that `used` leaves free. -/
def freeAddr (used : Nat → Bool) : Option Nat := (List.range 512).find? fun a => !used a

/-- Addresses of the devices present, in the order of R314: serial, address. -/
def assignAddrs (live : List Nat) (held : Nat → Option Nat) (pins : List (Nat × Nat)) (reserved : List (Nat × Nat × Nat)) :
    List (Nat × Nat) :=
  let granted := live.filterMap fun x => (grantedPin pins live x).map fun a => (x, a)
  let rest := live.filter fun x => (grantedPin pins live x).isNone
  let kept := rest.filterMap fun x => match held x with
    | some a => if (live.any fun y => y != x && held y == some a) || (pins.any fun p => p.1 != x && p.2 == a) ||
        granted.any (fun g => g.2 == a) then none else some (x, a)
    | none => none
  let done := granted ++ kept
  (rest.filter fun x => !kept.any fun k => k.1 == x).foldl (fun acc x =>
    let mine := (reserved.find? fun r => r.1 == x).map (·.2.1)
    let taken := fun a => acc.any fun k => k.2 == a
    let pick := match mine with
      | some a => if taken a then none else some a
      | none => none
    match pick.orElse fun _ => freeAddr fun a => taken a || reserved.any fun r => r.1 != x && r.2.1 == a with
    | some a => acc ++ [(x, a)]
    | none => acc) done

/-- The records of a MAP, in ascending order of address (R313). -/
def mapRecords (topos : List Topo) (assigned : List (Nat × Nat)) : List MapRec :=
  let addrOf := fun (ser : Nat) => (assigned.find? fun k => k.1 == ser).map (·.2)
  (ascending (assigned.map (·.2))).filterMap fun a =>
    match assigned.find? fun k => k.2 == a with
    | none => none
    | some (ser, _) =>
      let ports := match topos.find? fun t => t.serial == ser with
        | some t => t.ports.map fun q =>
            if q.st = 2 ∧ (q.use = 1 ∨ q.use = 2) then
              match addrOf q.peerSerial with
              | some b => b + (if q.use = 2 then 2 ^ 14 else 0)
              | none => 0xFFFF
            else 0xFFFF
        | none => [0xFFFF, 0xFFFF, 0xFFFF, 0xFFFF]
      some { serial := ser, addr := a, ports := ports }

/-- Peers of the device at an address over FABRIC links: port, address. -/
def mapPeers (m : List MapRec) (a : Nat) : List (Nat × Nat) :=
  match m.find? fun r => r.addr == a with
  | some r => (List.range 4).filterMap fun p => let x := r.ports.getD p 0xFFFF; if x < 512 then some (p, x) else none
  | none => []

/-- Breadth-first distances from a frontier, at most `fuel` hops. -/
def bfs (next : Nat → List Nat) : Nat → Nat → List Nat → List (Nat × Nat) → List (Nat × Nat)
  | 0, _, _, acc => acc
  | f + 1, d, front, acc =>
    let new := ascending ((front.flatMap next).filter fun x => !acc.any fun k => k.1 == x)
    if new = [] then acc else bfs next f (d + 1) new (acc ++ new.map fun x => (x, d + 1))

def distOf (l : List (Nat × Nat)) (x : Nat) : Option Nat := (l.find? fun k => k.1 == x).map (·.2)

/-- Hop distances of every device from the root. -/
def mapLevels (m : List MapRec) (root : Nat) : List (Nat × Nat) :=
  match m.find? fun r => r.serial == root with
  | some r => bfs (fun a => (mapPeers m a).map (·.2)) 512 0 [r.addr] [(r.addr, 0)]
  | none => []

/-- A hop is up: towards a lower level, or at the same level towards the lower address (R316). -/
def hopUp (lv : List (Nat × Nat)) (a b : Nat) : Bool :=
  match distOf lv a, distOf lv b with
  | some x, some y => decide (y < x) || (decide (x = y) && decide (b < a))
  | _, _ => false

/-- Places on a legal path: 2 × address while up hops may follow, 2 × address + 1 after a down hop. -/
def legalNext (m : List MapRec) (lv : List (Nat × Nat)) (c : Nat) : List Nat :=
  let a := c / 2
  (mapPeers m a).filterMap fun k =>
    if hopUp lv a k.2 then (if c % 2 = 0 then some (2 * k.2) else none) else some (2 * k.2 + 1)

/-- Length of the shortest legal path to `dst` whose first hop is by a port with distances `l` beyond it. -/
def legalLen (l : List (Nat × Nat)) (dst : Nat) : Option Nat :=
  match distOf l (2 * dst), distOf l (2 * dst + 1) with
  | some x, some y => some (min x y + 1)
  | some x, none => some (x + 1)
  | none, some y => some (y + 1)
  | none, none => none

/-- The port of least length, the lowest of those that tie. -/
def bestPort (l : List (Nat × Nat)) : Option (Nat × Nat) :=
  l.foldl (fun b x => match b with
    | some y => if x.2 < y.2 then some x else some y
    | none => some x) none

/-- The routing table of the device at address `me` (R316, R317). -/
def routeTable (m : List MapRec) (root me : Nat) : List Route :=
  let lv := mapLevels m root
  let outs := (mapPeers m me).map fun k =>
    let up := hopUp lv me k.2
    let c := 2 * k.2 + (if up then 0 else 1)
    (k.1, up, bfs (legalNext m lv) 23 0 [c] [(c, 0)])
  m.map fun r =>
    if r.addr = me then { addr := me, self := true, hops := 0, pri := none, alt := none, dpri := none, dalt := none }
    else
      let all := outs.filterMap fun o => (legalLen o.2.2 r.addr).map fun n => (o.1, n)
      let dn := (outs.filter fun o => !o.2.1).filterMap fun o => (legalLen o.2.2 r.addr).map fun n => (o.1, n)
      let pri := bestPort all
      let dpri := bestPort dn
      let other := fun (l : List (Nat × Nat)) (p : Option (Nat × Nat)) => match p with
        | some x => (bestPort (l.filter fun y => y.1 != x.1)).map (·.1)
        | none => none
      { addr := r.addr, self := false, hops := (pri.map (·.2)).getD 0, pri := pri.map (·.1), alt := other all pri,
        dpri := dpri.map (·.1), dalt := other dn dpri }

/-- The ports of the device at address `me` whose hop is a down hop (R316). -/
def downPorts (m : List MapRec) (root me : Nat) : List Nat :=
  let lv := mapLevels m root
  ((mapPeers m me).filter fun k => !hopUp lv me k.2).map (·.1)

/-- The hop out of port `p` is a down hop by the map in use. -/
def State.hopDown (s : State) (p : Nat) : Bool := s.fab.downs.contains p

/-- This device is refused its pin: the fabric plan pins it to an address which the map gives to another device with the same pin (R314;
the device reads its own image's plan, DESIGN CHOICE, log 101). -/
def State.pinRefused (s : State) (m : List MapRec) : Bool :=
  match s.pins.find? fun p => p.1 == s.otp.serial with
  | some (_, a) => m.any fun r => r.addr == a && r.serial != s.otp.serial && s.pins.any fun p => p.1 == r.serial && p.2 == a
  | none => false

end Sys2Proof.Machine
end

