-- ==== Sys2Proof/Machine/FabOps.lean ====
section
/-! DEFINITION. The fabric's links: re-send, assembly, election, link failure, discovery (R292 to R319). -/
namespace Sys2Proof.Machine

def State.updFp (s : State) (p : Nat) (f : FabPort → FabPort) : State := { s with fport := updV s.fport p f }
def State.updTx (s : State) (p tc : Nat) (f : FabTxq → FabTxq) : State := s.updFp p fun q => { q with tx := updV q.tx tc f }
def State.updRx (s : State) (p tc : Nat) (f : FabRxq → FabRxq) : State := s.updFp p fun q => { q with rx := updV q.rx tc f }
def State.txAt (s : State) (p tc : Nat) : FabTxq := atV (s.fportAt p).tx tc FabTxq.init
def State.rxAt (s : State) (p tc : Nat) : FabRxq := atV (s.fportAt p).rx tc FabRxq.init

/-- RESEND_TO, ACK_N and ACK_T of a port (R322). -/
def State.fabResendTo (s : State) (p : Nat) : Nat := 80 * s.rf (rFabPSr p) 31 24
def State.fabAckN (s : State) (p : Nat) : Nat := s.rf (rFabPSr p) 23 16
def State.fabAckT (s : State) (p : Nat) : Nat := 80 * s.rf (rFabPSr p) 15 8

/-- A whole count whose low 16 bits are `w`, nearest above `base` − 2^15. -/
def abs16 (base w : Nat) : Nat :=
  let d := (w + 65536 - base % 65536) % 65536
  if d < 32768 then base + d else base + d - 65536

/-- The words of a control block have come over a link that is up (R298): bad ones are counted, a block of another CTYPE than the row's is
no event of that row and does nothing. -/
def State.ctlIn (s : State) (p ctype : Nat) (ws : List FabWord) (f : FabCtl → State → State) : State :=
  if (s.fportAt p).st ≠ 2 then s
  else match fabCtlOf ws with
    | some c => if c.ctype = ctype then f c s else s
    | none => s.addSat (rFabPCtl p) 31 16 1

/-- Send an ACK of a class with the SEQs it requests, at most 4 (R302). Good blocks that ACK_BASE has not passed are not yet acknowledged, and
ACK_T runs again for them (DEDUCED, log 102). -/
def State.fabAck (s : State) (p tc : Nat) (naks : List Nat) : State :=
  let q := s.rxAt p tc
  (s.updRx p tc fun q => { q with ackCnt := 0, ackFirst := if q.got = [] then none else some s.ts, lastAck := s.ts }).sendCtl p 0x18 (ackBody tc q.base q.freed naks)

/-- Request missing SEQs (R303), four in each ACK. -/
def State.fabRequestN (p tc : Nat) : Nat → State → List Nat → State
  | 0, s, _ => s
  | _ + 1, s, [] => s
  | n + 1, s, qs =>
    let now := qs.take 4
    let mark := fun (m : Missing) => if now.contains m.seq then { m with reqs := m.reqs + 1, last := s.ts } else m
    let s := s.updRx p tc fun q => { q with missing := q.missing.map mark }
    State.fabRequestN p tc n ((s.addSat (rFabPResend p) 31 16 now.length).fabAck p tc now) (qs.drop 4)
def State.fabRequest (s : State) (p tc : Nat) (qs : List Nat) : State := State.fabRequestN p tc (qs.length + 1) s qs

/-- A SEQ below `top` has been shown: those not received become missing and are requested (R303). -/
def State.fabShow (s : State) (p tc top : Nat) : State :=
  let q := s.rxAt p tc
  if top ≤ q.top then s
  else
    let new := (List.range (top - q.top)).map (q.top + ·)
    let new := new.filter fun x => decide (q.base ≤ x) && !q.got.contains x
    let s := s.updRx p tc fun q =>
      { q with top := top, missing := q.missing ++ new.map fun x => { seq := x, reqs := 0, last := s.ts } }
    s.fabRequest p tc new

/-- A block of a port's receive buffer is freed. -/
def State.fabFree (s : State) (p tc : Nat) : State := s.updRx p tc fun q => { q with freed := q.freed + 1 }

/-- ACK_BASE moves past every SEQ received or declared lost (R302). -/
def FabRxq.advance (q : FabRxq) : Nat → FabRxq
  | 0 => q
  | n + 1 =>
    if q.got.contains q.base ∨ q.lost.contains q.base then
      ({ q with base := q.base + 1, got := q.got.erase q.base, lost := q.lost.erase q.base } : FabRxq).advance n
    else q

/-- A known message type in its class (R309, R332, R339). -/
def knownMsg (tc mtype : Nat) : Bool :=
  match tc with
  | 0 => mtype == 0x10
  | 1 => mtype == 0x01 || mtype == 0x02
  | 2 => mtype == 0x08 || mtype == 0x09
  | _ => mtype == 0x20 || mtype == 0x21 || mtype == 0x28 || mtype == 0x29 || (decide (0x30 ≤ mtype) && decide (mtype ≤ 0x36)) ||
      mtype == 0x38

/-- A whole message is handed on, or discarded for its type (R309). -/
def State.fabDeliver (s : State) (m : FabMsg) : State :=
  if knownMsg m.tc m.mtype then { s with fab.inbox := s.fab.inbox ++ [m] } else s.addWrap rFabMsgInc 1

/-- The fragments of a mirror slot are written to the secondary's slot as they arrive, once fragment 0 has named it, but for the slot
header (R310). -/
def State.mirrorFrag (s : State) (r : Reasm) (frag : Nat) : State :=
  match r.parts.find? fun x => x.1 == 0 with
  | some (_, h) =>
    let n := fieldAt h 31 1
    if s.mirrorAccepts h ∧ (s.gdcAt (s.slotPort n)).st = 2 then
      let a := gddrKey (s.slotPort n) (s.slotAddr n (fieldAt h 30 1) (signed 64 (fieldAt h 8 8)))
      let now := if frag = 0 then r.parts else r.parts.filter fun x => x.1 == frag
      now.foldl (fun (s : State) x =>
        let d := x.2.take (slotBytes (s.outPixels n) - 512 * x.1)
        { s with gddr := memPutBytes ramDefault s.gddr (if x.1 = 0 then a + 64 else a + 512 * x.1) (if x.1 = 0 then d.drop 64 else d) }) s
    else s
  | none => s

/-- Add a block to its message (R306). -/
def State.fabAssemble (s : State) (b : FabBlk) : State :=
  let same := fun (r : Reasm) => r.src == b.src && r.tc == b.tc && r.msgid == b.msgid
  let r : Reasm := (s.fab.reasm.find? same).getD
    { src := b.src, tc := b.tc, msgid := b.msgid, mtype := b.mtype, nfrag := b.nfrag, first := s.ts, parts := [] }
  let old := r.parts.any fun x => x.1 == b.frag
  let r := if old then r else { r with parts := r.parts ++ [(b.frag, b.payload.take b.len)] }
  let s := s.when (r.mtype == 0x09 && !old) fun s => s.mirrorFrag r b.frag
  let rest := s.fab.reasm.filter fun r => !same r
  if r.parts.length = r.nfrag + 1 then
    let whole := (List.range (r.nfrag + 1)).flatMap fun i => ((r.parts.find? fun x => x.1 == i).map (·.2)).getD []
    ({ s with fab.reasm := rest } : State).fabDeliver { src := r.src, nosrc := b.nosrc, tc := r.tc, mtype := r.mtype, payload := whole }
  else { s with fab.reasm := rest ++ [r] }

/-- A block passed on in order (R305, R307, R308, R314): assembled when it is for this device, forwarded when it is for others. Its
place in the receive buffer is freed once it has been assembled, sent on or discarded. A device beyond the 512th sends nothing but TOPO. -/
def State.fabPass (s : State) (p : Nat) (b : FabBlk) : State :=
  let hopByHop := b.mtype = 0x20
  if s.fab.addr.isNone ∧ b.mtype ≠ 0x20 ∧ b.mtype ≠ 0x21 then s.fabFree p b.tc
  else
    let mine := b.bcast || hopByHop || s.fab.addr == some b.dst
    let s := if mine then s.fabAssemble b else s
    if hopByHop || (mine && !b.bcast) then s.fabFree p b.tc
    else
      let on := { b with hops := b.hops + 1 }
      let loop := (s.addSat (rFabPCtl p) 15 0 1).fabFree p b.tc
      if b.bcast then
        match (s.treePorts (some p)).reverse with
        | [] => s.fabFree p b.tc
        | l :: r =>
          if s.fab.noAddr then s.fabFree p b.tc
          else if 24 ≤ b.hops then loop
          else (r.foldl (fun s q => s.queueBlk q on none) s).queueBlk l on (some p)
      else if 24 ≤ b.hops then loop
      else match s.routePort b.dst b.down with
        | some q => s.queueBlk q on (some p)
        | none => (s.unreach b.dst (some p)).fabFree p b.tc

/-- The held block with the least SEQ below ACK_BASE. -/
def FabRxq.ready (q : FabRxq) : Option (Nat × FabBlk) :=
  (q.held.filter fun h => decide (h.1 < q.base)).foldl (fun b x => match b with
    | some y => if x.1 < y.1 then some x else some y
    | none => some x) none

/-- Pass on every block whose turn has come (R305). -/
def State.fabPassN (p tc : Nat) : Nat → State → State
  | 0, s => s
  | n + 1, s =>
    match (s.rxAt p tc).ready with
    | none => s
    | some h => State.fabPassN p tc n ((s.updRx p tc fun q => { q with held := q.held.erase h }).fabPass p h.2)
def State.fabPassAll (s : State) (p tc : Nat) : State :=
  let s := s.updRx p tc fun q => q.advance (q.got.length + q.lost.length)
  State.fabPassN p tc ((s.rxAt p tc).held.length) s

/-- A good payload block has arrived (R301 to R305). -/
def State.fabGood (s : State) (p tc seq : Nat) (b : FabBlk) : State :=
  let s := s.addWrap (rFabPBlkRx p) 1
  let q := s.rxAt p tc
  let a := abs16 q.base seq
  if a < q.base ∨ q.got.contains a then s.addSat (rFabPResend p) 15 0 1
  else if q.base + fabBuf tc ≤ a then s
  else
    let s := s.updRx p tc fun q =>
      { q with got := a :: q.got, held := q.held ++ [(a, b)], missing := q.missing.filter (fun m => m.seq != a),
               taken := q.taken + 1, ackCnt := q.ackCnt + 1, ackFirst := some (q.ackFirst.getD s.ts) }
    let s := (s.fabShow p tc (a + 1)).fabPassAll p tc
    if s.fabAckN p ≤ (s.rxAt p tc).ackCnt then s.fabAck p tc [] else s

/-- Missing SEQs whose last request is RESEND_TO old: requested again, or after the third request declared lost (R303). An ACK that passes
the lost SEQs follows within ACK_T (R302, R304; DEDUCED, log 102). -/
def State.fabResend (s : State) (p tc : Nat) : State :=
  let due := (s.rxAt p tc).missing.filter fun m => decide (m.last + s.fabResendTo p ≤ s.ts)
  let gone := (due.filter fun m => decide (3 ≤ m.reqs)).map (·.seq)
  let again := (due.filter fun m => decide (m.reqs < 3)).map (·.seq)
  let s := s.updRx p tc fun q =>
    { q with missing := q.missing.filter (fun m => !gone.contains m.seq), lost := q.lost ++ gone,
             taken := q.taken + gone.length, freed := q.freed + gone.length,
             ackFirst := if gone = [] then q.ackFirst else some (q.ackFirst.getD s.ts) }
  let s := if gone = [] then s
    else (((s.addSat (rFabPLost p) 31 16 gone.length).orReg (rFabPEvt p) 4).raise evFabBlockLost p (gone.getD 0 0) 0).fabPassAll p tc
  s.fabRequest p tc again

/-- A payload block of this type may leave: a device without an address sends TOPO and MAP only, one beyond the 512th TOPO only (R314). -/
def State.maySend (s : State) (mtype : Nat) : Bool := s.fab.addr.isSome || mtype == 0x20 || (mtype == 0x21 && !s.fab.noAddr)

/-- The oldest re-send asked for and the oldest new block of a class that may leave; the others wait. -/
def State.nextResend (s : State) (q : FabTxq) : Option Nat :=
  q.resend.find? fun n => match q.unsettled.find? fun u => u.1 == n with
    | some (_, b) => s.maySend b.mtype
    | none => true
def State.nextNew (s : State) (q : FabTxq) : Option FabWait := q.waiting.find? fun w => s.maySend w.blk.mtype

/-- The class a port sends from next (R300): a re-send waits for no credit, a new block for one, and TC3 gives way to TC2. -/
def State.fabPick (s : State) (p : Nat) : Option Nat :=
  let ready := fun (tc : Nat) =>
    let q := s.txAt p tc
    (s.nextResend q).isSome || ((s.nextNew q).isSome && decide (0 < q.credits tc) && decide (q.next - q.base < fabBuf tc))
  let tc2 := decide ((s.txAt p 2).waiting ≠ [] ∨ (s.txAt p 2).resend ≠ [])
  [0, 1, 3, 2].find? fun tc => ready tc && (tc != 3 || !tc2 || decide (15 ≤ (s.fportAt p).sinceTc3))

/-- Send one block of a class (R300 to R303). -/
def State.fabSendOne (s : State) (p tc : Nat) : State :=
  let tc2 := decide ((s.txAt p 2).waiting ≠ [] ∨ (s.txAt p 2).resend ≠ [])
  let s := s.updFp p fun q => { q with sinceTc3 := if tc = 3 ∨ !tc2 then 0 else q.sinceTc3 + 1 }
  let s := s.addWrap (rFabPBlkTx p) 1
  let q := s.txAt p tc
  match s.nextResend q, s.nextNew q with
  | some n, _ =>
    let s := s.updTx p tc fun q => { q with resend := q.resend.erase n }
    match q.unsettled.find? fun u => u.1 == n with
    | some (_, b) => s.send (.fabBlock p (b.words n true))
    | none => s
  | none, some w =>
    let b := { w.blk with down := w.blk.down || s.hopDown p }
    let s := (s.updTx p tc fun q => { q with waiting := q.waiting.erase w, next := q.next + 1, unsettled := q.unsettled ++ [(q.next, b)] }).send
      (.fabBlock p (b.words q.next false))
    match w.inPort with
    | some i => s.fabFree i tc
    | none => s
  | none, none => s

/-- An ACK settles blocks, returns credits and asks for re-sends (R301 to R303). -/
def State.fabAcked (s : State) (p tc base credits : Nat) (naks : List Nat) : State :=
  s.updTx p tc fun q =>
    let b := abs16 q.base base
    let b := if q.base ≤ b ∧ b ≤ q.next then b else q.base
    let f := abs16 q.freed credits
    let f := if q.freed ≤ f ∧ f ≤ q.next then f else q.freed
    let un := q.unsettled.filter fun x => decide (b ≤ x.1)
    let want := (naks.map fun n => abs16 b n).filter fun n => (un.any fun x => x.1 == n) && !q.resend.contains n
    { q with base := b, freed := f, unsettled := un, resend := (q.resend.filter fun n => decide (b ≤ n)) ++ want }

/-- The fabric-time state changes; fabric time goes on from its present value (R323, R327). -/
def State.ftState (s : State) (t : TState) : State :=
  let old := s.ft.tstate
  if old = t then s
  else
    let now := s.fabricTime
    let s := { s with ft := { s.ft with
      tstate := t, ftBase := now, tsBase := s.ts, good := 0, t1 := none, lastRsp := s.ts
      leftLock := decide (t ≠ .locked) && (s.ft.leftLock || decide (old = .locked)) } }
    if old = .locked ∧ t = .holdover then s.raise evFtHoldover 0 0 0 else s

/-- The time state that the address, the root role and the up port give (R324, R327). -/
def State.ftCheck (s : State) (newUp : Bool) : State :=
  if s.fab.addr.isNone ∨ !s.fabEn then s.ftState .free
  else if s.fab.isRoot then s.ftState .locked
  else if s.fab.upPort.isNone then s.ftState .holdover
  else if newUp then
    let s := s.ftState .acquire
    { s with ft.good := 0, ft.t1 := none, ft.lastRsp := s.ts, ft.reqAt := none }
  else if s.ft.tstate = .free then s.ftState .acquire
  else s

/-- The epoch proposal `e` is aborted for a reason (R343, R344). -/
def State.epochAbort (s : State) (e reason : Nat) : State :=
  let mine := s.jnl.wait.filter fun q => q.code == 0x0D && q.epochArg == e
  let s := mine.foldl (fun s q => s.endWait q.seq 3 (0x20 + reason) 0) s
  let s : State := { s with cen.accepted := s.cen.accepted.filter fun p => p.epoch != e }
  (s.orReg rFabCenEvt 8).raise evEpochAbort 0 reason 0

/-- The lowest root key heard, and what the election makes of it (R312): key, DIST, up port; `none` when this device is root. -/
def State.electBest (s : State) : Option (Nat × Nat × Nat × Nat) :=
  let own := (s.rf rFabCtrl 31 24, s.otp.serial)
  let less := fun (a b : Nat × Nat) => decide (a.1 < b.1) || (decide (a.1 = b.1) && decide (a.2 < b.2))
  let heard := (List.range 4).filterMap fun p =>
    let q := s.fportAt p
    match q.rootSerial with
    | some r => if s.fabUse p = 1 ∧ s.portUp p ∧ q.dist ≤ 23 then some ((q.rootPrio, r), q.dist, p) else none
    | none => none
  let best := heard.foldl (fun b h => if less h.1 b then h.1 else b) own
  if best = own then none
  else (heard.filter fun h => h.1 == best).foldl (fun b h => match b with
    | some x => if h.2.1 + 1 < x.2.2.1 then some (best.1, best.2, h.2.1 + 1, h.2.2) else some x
    | none => some (best.1, best.2, h.2.1 + 1, h.2.2)) none

/-- Elect again (R312). A new root is reported, and aborts every proposal not
yet committed (R344); a round is then asked of the new root (R342). -/
def State.elect (s : State) : State :=
  if !s.fabEn then s
  else
    let old := s.fab
    let s : State := match s.electBest with
      | some (pr, ser, d, p) => { s with fab := { s.fab with rootPrio := pr, rootSerial := ser, isRoot := false, dist := d, upPort := some p } }
      | none => { s with fab := { s.fab with rootPrio := s.rf rFabCtrl 31 24, rootSerial := s.otp.serial, isRoot := true, dist := 0, upPort := none } }
    let changed := old.rootSerial != s.fab.rootSerial || old.rootPrio != s.fab.rootPrio || old.isRoot != s.fab.isRoot
    let s := if changed then
        let heard := match s.fab.upPort with
          | some p => (s.fportAt p).rootSeq
          | none => s.fab.rootSeq
        let s : State := { s with fab := { s.fab with rootSeqAt := s.ts, rootSeq := heard, mapDue := s.fab.isRoot } }
        let s := (s.orReg rFabEvt 1).raise evFabRootChange 0 0 s.fab.rootSerial
        let s : State := { s with cen.open_ := none, cen.reports := [], cen.prop := none, cen.acks := [], cen.prevMissing := [],
                                  cen.ask := none, cen.newRoot := true }
        let open_ := (s.jnl.wait.filter fun q => q.code == 0x0D && !s.cen.committed.any fun p => p.epoch == q.epochArg).map (·.epochArg)
        (s.cen.accepted.map (·.epoch) ++ open_).eraseDups.foldl (fun s e => s.epochAbort e 2) s
      else s
    s.ftCheck (old.upPort != s.fab.upPort)

/-- Every destination of the map is reachable over the routes now in use (R318). -/
def State.allReachable (s : State) : Bool := s.fab.map.all fun r => s.fab.addr == some r.addr || (s.routePort r.addr false).isSome

/-- A link goes down (R294, R318): its unsettled blocks are discarded, what waits for it is routed again, and the port trains or waits. -/
def State.fabDown (s : State) (p : Nat) : State :=
  if (s.fportAt p).st ≠ 2 then s
  else
    let q := s.fportAt p
    let downs := s.ts :: q.downs.filter fun t => decide (s.ts < t + 1000 * msTs)
    let waiting := q.tx.toList.flatMap (·.waiting)
    let lost := sumN (q.tx.toList.map (·.unsettled.length))
    let fresh : FabPort :=
      { FabPort.init with st := if 3 ≤ downs.length then 3 else 1, trying := if s.rf (rFabPCtrl p) 5 4 = 2 then 2 else 1, since := s.ts,
                          downs := downs, downAt := s.ts }
    let s : State := { (s.updFp p fun _ => fresh).addWrap (rFabPDowns p) 1 with fab.dead := p :: s.fab.dead.filter fun x => x != p }
    let again := fun (w : FabWait) => !w.blk.bcast && w.blk.mtype != 0x20 && decide (s.fabUse p = 1)
    let s := waiting.foldl (fun s w =>
      if again w then
        let s' := s.sendBlk w.blk w.inPort
        match w.inPort with
        | some i => if (s.routePort w.blk.dst w.blk.down).isNone then s'.fabFree i w.blk.tc else s'
        | none => s'
      else match w.inPort with
        | some i => s.fabFree i w.blk.tc
        | none => s) s
    let dropped := lost + (waiting.filter fun w => !again w).length
    let s := (s.addSat (rFabPLost p) 15 0 dropped).orReg (rFabPEvt p) 2
    let s := s.raise { evFabLinkDown with cls := if s.allReachable then 1 else 2 } p 0 0
    ({ s with fab.topoDue := true } : State).elect

/-- A port begins to train, or stays off (R293, R295). -/
def State.fabTrain (s : State) (p : Nat) : State :=
  let on := s.fabEn && decide (s.fabUse p = 1 ∨ s.fabUse p = 2)
  let down := if (s.fportAt p).st = 2 then s.ts else (s.fportAt p).downAt
  s.updFp p fun _ => { FabPort.init with st := if on then 1 else 0, trying := if s.rf (rFabPCtrl p) 5 4 = 2 then 2 else 1, since := s.ts, downAt := down }

/-- Discovery ends when every FABRIC port is up and a MAP has given this device its address (R315). -/
def State.discCheck (s : State) : State :=
  let up := (List.range 4).all fun p => s.fabUse p != 1 || (s.fportAt p).st == 2
  if up && s.fab.addr.isSome && !s.fab.discDone then { s with fab.discDone := true, fab.discAt := s.ts } else s

/-- Discovery at entry to TRAIN (R315): with the fabric off it ends at once. -/
def State.discStart (s : State) : State :=
  let s : State := { s with fab := { FabCore.init with mapEpoch := s.fab.mapEpoch, discDone := !s.fabEn, discAt := s.ts, topoDue := true } }
  (s.each 4 fun p s => s.fabTrain p).elect

/-- The MAP of the root `root` is taken (R313, R314): address, map, and a routing table to compute. A device refused its pin reports it when
it first learns it. -/
def State.applyMap (s : State) (epoch root : Nat) (recs : List MapRec) : State :=
  let mine := (recs.find? fun r => r.serial == s.otp.serial).map (·.addr)
  let full := mine.isNone && decide (512 ≤ recs.length)
  let first := full && !s.fab.noAddr
  let clash := s.pinRefused recs && !s.pinRefused s.fab.map
  let s : State := { s with fab := { s.fab with mapEpoch := epoch, map := recs, mapRoot := root, mapNew := true, addr := mine, noAddr := full },
                            sec.fabs := s.sec.fabs.filter fun x => recs.any fun r => r.addr == x.req }
  let s := s.when first fun s => (s.orReg rFabEvt 8).raise evFabFull 0 0 0
  let s := s.when clash fun s => (s.orReg rFabEvt 4).raise evFabAddrConflict 0 0 0
  (s.ftCheck false).discCheck

/-- The peer addresses ports carry are those of the map, or of the peer's own blocks. -/
def State.setPeerAddr (s : State) (p : Nat) (a : Option Nat) : State := s.updFp p fun q => { q with peerAddr := a }

/-- The root makes a new MAP (R313, R314): addresses, reservations, records. -/
def State.makeMap (s : State) : State × Nat × List MapRec :=
  let own := s.ownTopo
  let topos := own :: s.fab.topos.filter fun t => t.serial != own.serial
  let live := ascending (reachable topos topos.length [own.serial])
  let topos := topos.filter fun t => live.contains t.serial
  let held := fun (ser : Nat) => (topos.find? fun t => t.serial == ser).bind (·.addr)
  let gone := (s.fab.map.filter fun r => !live.contains r.serial && !s.fab.reserved.any fun x => x.1 == r.serial).map fun r =>
    (r.serial, r.addr, s.ts)
  let reserved := (s.fab.reserved ++ gone).filter fun x => !live.contains x.1
  let assigned := assignAddrs live held s.pins (s.fab.reserved ++ gone)
  let recs := mapRecords topos assigned
  let s : State := { s with fab := { s.fab with topos := topos.filter (fun t => t.serial != own.serial), reserved := reserved } }
  (s, if recs = s.fab.map then s.fab.mapEpoch else (s.fab.mapEpoch + 1) % 2 ^ 32, recs)

/-- A message that is not whole within MSG_TO is discarded and counted (R306). What a mirror slot's fragments hold beyond the header stays
written (R310). -/
def State.fabMsgLost (s : State) (r : Reasm) : State := ({ s with fab.reasm := s.fab.reasm.erase r } : State).addWrap rFabMsgInc 1

/-- A remote access ends (R319). -/
def State.raEnd (s : State) (status : Nat) : State := ({ s with fab.ra := none } : State).setRf rFabRaCmd 11 9 status

/-- FAB_RA_CMD.GO (R319, R322): the request leaves, or ends with NOADDR for an address no device of the map has. -/
def State.raGo (s : State) : State :=
  let dev := s.rf rFabRaCmd 8 0
  let s := s.setRf rFabRaCmd 11 9 0
  if s.fab.addr.isNone ∨ !s.fab.map.any fun r => r.addr == dev then s.setRf rFabRaCmd 11 9 2
  else
    let tag := (s.fab.raTag + 1) % 65536
    let s : State := { s with fab.ra := some { tag := tag, dev := dev, at_ := s.ts, write := s.rbit rFabRaCmd 28 }, fab.raTag := tag }
    s.fabOut 3 0x28 dev false (leBytes 1 (s.rf rFabRaCmd 28 28 + 2 * s.rf rFabRaCmd 29 29) ++ leBytes 1 0 ++ leBytes 2 tag ++
        leBytes 4 (s.reg rFabRaAddr).toNat ++ leBytes 4 (s.reg rFabRaData).toNat)

end Sys2Proof.Machine
end

