-- ==== Sys2Proof/Machine/JnlOps.lean ====
section
/-! DEFINITION. The command journal's own operations: entries at acceptance, argument digests, outcomes (R520 to R530). -/
namespace Sys2Proof.Machine

/-- A command names a domain in argument byte 1 (R521). -/
def namesDomain (code : Nat) : Bool := code == 0x03 || code == 0x04 || code == 0x0D

/-- First 10 bytes of SHAKE256 over descriptor bytes 16 to 63 (R528). -/
def argDigest (desc : List Byte) : List Byte := fitBytes 10 (Config.shake256 (bslice desc 16 48))

/-- Write the journal entry of an accepted command, with its COMMAND peat entry (R525, R528); answers its sequence number. -/
def State.journalAdd (s : State) (req : Nat) (desc : List Byte) (ostat : Nat) : State × Nat :=
  let code := fieldAt desc 0 1
  let dom := if namesDomain code then fieldAt desc 17 1 % 16 else if s.live then s.fdom.getD 0 else 0
  let seq := s.jnlHead + 1
  let good := decide ((s.dom dom).lock = .locked) || decide ((s.dom dom).lock = .coast)
  let e : JEntry :=
    { seq := seq, intent := fieldAt desc 8 8, code := code, dom := dom, state := s.sys.st.code, req := req, ft := s.fabricTime,
      coord := if good then s.coordNow dom else 0, argdig := argDigest desc, ostat := ostat, ocode := 0, dur := 0, odata := 0,
      at_ := s.ts, acrcOk := true, ocrcOk := true, doneAt := s.ts, made := false }
  let s := { s with jnl := { s.jnl with entries := (e :: s.jnl.entries).take 65536 } }
  (s.peatPush 0x08 code (leBytes 8 seq ++ leBytes 2 req), seq)

/-- A queued or running command ends (R526, R529); a page is no longer pending for it (R259). -/
def State.endCmd (s : State) (q : QCmd) (ostat ocode odata : Nat) : State :=
  let s := { s with jnl := { s.jnl with run := if s.jnl.run = some q then none else s.jnl.run },
                    psq := { s.psq with swap := s.psq.swap.filter fun x => x.seq != q.seq,
                                        swapTwice := s.psq.swapTwice.filter fun x => x != q.seq } }
  s.complete q.seq ostat ocode odata

/-- The outputs stop (R456): the device returns to ARMED, but for a state that stands under a FATAL event (R541). -/
def State.stopOutputs (s : State) : State := if s.sys.st = .running ∧ !s.fatalStands then s.goState .armed else s

end Sys2Proof.Machine
end

