-- ==== Sys2Proof/Machine/FabCmd.lean ====
section
/-! DEFINITION. Meanings of the fabric commands: links, HELLO, blocks, acknowledgements, TOPO, MAP, discovery (R292 to R319). -/
namespace Sys2Proof.Machine

/-- FAB_LINK_UP (R293): block lock and FEC alignment on all lanes in the mode tried, and a HELLO received. -/
def execFabLinkUp (p : Fin 4) (s : State) : Host.Outcome State Fault Refusal := s.clocked fun s =>
  let q := s.fportAt p
  if !s.fabEn ∨ q.st ≠ 1 ∨ (s.fabUse p ≠ 1 ∧ s.fabUse p ≠ 2) then .next s
  else
    let s := s.updFp p fun _ => { FabPort.init with st := 2, mode := q.trying, trying := q.trying, since := s.ts, downs := q.downs, lastHello := s.ts, downAt := q.downAt,
                                                    sendB := q.sendB, helloAt := q.helloAt }
    .next ((({ s with fab.topoDue := true } : State).orReg (rFabPEvt p) 1).raise evFabLinkUp p 0 0).discCheck

/-- FAB_RATE_ALTERNATE (R293): 200 ms in one mode have passed. -/
def execFabRateAlternate (p : Fin 4) (s : State) : Host.Outcome State Fault Refusal := s.clocked fun s =>
  let q := s.fportAt p
  if q.st = 1 ∧ s.rf (rFabPCtrl p) 5 4 = 0 ∧ q.since + 200 * msTs ≤ s.ts then
    .next (s.updFp p fun q => { q with trying := 3 - q.trying, since := s.ts })
  else .next s

/-- FAB_BLOCK_LOCK_LOSS (R294). -/
def execFabBlockLockLoss (p : Fin 4) (s : State) : Host.Outcome State Fault Refusal := s.clocked fun s => .next (s.fabDown p)

/-- FAB_FEC_BURST (R294): `n` uncorrectable codewords within 10 µs; more than 16 take the link down. -/
def execFabFecBurst (p : Fin 4) (n : Nat) (s : State) : Host.Outcome State Fault Refusal := s.clocked fun s =>
  if (s.fportAt p).st ≠ 2 then .next s
  else
    let s := s.addWrap (rFabPFecUnc p) n
    .next (if 16 < n then s.fabDown p else s)

/-- FAB_HELLO_TIMEOUT (R294). -/
def execFabHelloTimeout (p : Fin 4) (s : State) : Host.Outcome State Fault Refusal := s.clocked fun s =>
  if (s.fportAt p).lastHello + 50 * usTs ≤ s.ts then .next (s.fabDown p) else .next s

/-- FAB_HOLDDOWN_END (R294). -/
def execFabHolddownEnd (p : Fin 4) (s : State) : Host.Outcome State Fault Refusal := s.clocked fun s =>
  let q := s.fportAt p
  if q.st = 3 ∧ q.since + 10 * msTs ≤ s.ts then .next (s.updFp p fun q => { q with st := 1, since := s.ts }) else .next s

/-- HELLO_SEND (R311): HELLO_A and HELLO_B alternate, every 5 µs. -/
def execHelloSend (p : Fin 4) (s : State) : Host.Outcome State Fault Refusal := s.clocked fun s =>
  let q := s.fportAt p
  if !s.fabEn ∨ (q.st ≠ 1 ∧ q.st ≠ 2) ∨ !past q.helloAt (5 * usTs) s.ts then .next s
  else
    let a := helloA s.otp.serial (s.rf rFabCtrl 31 24) p (s.fabUse p)
    let b := helloB s.fab.rootSerial s.fab.rootPrio s.fab.dist s.fab.rootSeq (s.fab.upPort == some p.val)
    let s := s.updFp p fun q => { q with sendB := !q.sendB, helloAt := some s.ts }
    .next (if q.sendB then s.sendCtl p 0x11 b else s.sendCtl p 0x10 a)

/-- A HELLO_A of the peer (R295, R311). -/
def State.helloATake (s : State) (p : Nat) (c : FabCtl) : State :=
  let was := s.useDiffers p
  let s := s.updFp p fun q =>
    { q with lastHello := s.ts, peerAddr := c.src, peerSerial := some (fieldAt c.body 0 8), peerPrio := fieldAt c.body 8 1,
             peerPort := bitsN (fieldAt c.body 9 1) 1 0, peerUse := bitsN (fieldAt c.body 9 1) 3 2 }
  (s.when (s.useDiffers p && !was) fun s => (s.orReg (rFabPEvt p) 8).raise evFabPeerMismatch p 0 0).elect

/-- A HELLO_B of the peer (R311, R312): an advance of the ROOT_SEQ of the root adopted is noted. -/
def State.helloBTake (s : State) (p : Nat) (c : FabCtl) : State :=
  let ser := fieldAt c.body 0 8
  let prio := fieldAt c.body 8 1
  let seq := fieldAt c.body 10 2
  let s := (s.updFp p fun q =>
    { q with lastHello := s.ts, peerAddr := c.src, rootSerial := some ser, rootPrio := prio, dist := fieldAt c.body 9 1, rootSeq := seq,
             up := bitN (fieldAt c.body 12 1) 0 }).elect
  let d := (seq + 65536 - s.fab.rootSeq) % 65536
  if !s.fab.isRoot ∧ s.fab.rootSerial = ser ∧ s.fab.rootPrio = prio ∧ 0 < d ∧ d < 32768 then
    { s with fab := { s.fab with rootSeq := seq, rootSeqAt := s.ts } }
  else s

/-- HELLO_RECEIVE (R298, R311, R312). -/
def execHelloReceive (p : Fin 4) (start : FabWord) (data : List FabWord) (last : FabWord) (s : State) : Host.Outcome State Fault Refusal := s.clocked fun s =>
  let ws := start :: data ++ [last]
  match fabCtlOf ws with
  | some c => if c.ctype = 0x11 then .next (s.ctlIn p 0x11 ws fun c s => s.helloBTake p c)
      else .next (s.ctlIn p 0x10 ws fun c s => s.helloATake p c)
  | none => .next (s.ctlIn p 0x10 ws fun _ s => s)

/-- FAB_PAYLOAD_BLOCK_RECEIVE (R296, R297, R301 to R308). -/
def execFabPayloadBlockReceive (p : Fin 4) (b : FabIn) (s : State) : Host.Outcome State Fault Refusal := s.clocked fun s =>
  if (s.fportAt p).st ≠ 2 then .next s
  else
    let s := (s.addWrap (rFabPFecCorr p) b.corrected).addWrap (rFabPFecUnc p) b.uncorrectable
    match fabBlkOf b.words with
    | none => .next (s.addWrap (rFabPBlkBad p) 1)
    | some (seq, blk) => .next (if s.useDiffers p then s else s.fabGood p blk.tc seq blk)

/-- FAB_BLOCK_TRANSMIT (R296, R300, R301): with no block that may leave, the transmitter sends an IDLE word. A link in training, or up with
another use at its peer, carries HELLO blocks with IDLE words between them (R295, R311); any other link is silent. -/
def execFabBlockTransmit (p : Fin 4) (s : State) : Host.Outcome State Fault Refusal := s.clocked fun s =>
  let idle := s.send (.fabBlock p [fabIdle])
  if !s.portUp p then .next (if s.fabEn ∧ ((s.fportAt p).st = 1 ∨ (s.fportAt p).st = 2) then idle else s)
  else match s.fabPick p with
    | some tc => .next (s.fabSendOne p tc)
    | none => .next idle

/-- FAB_ACK_RECEIVE (R302, R303). -/
def execFabAckReceive (p : Fin 4) (w0 w1 w2 w3 w4 : FabWord) (s : State) : Host.Outcome State Fault Refusal := s.clocked fun s =>
  .next (s.ctlIn p 0x18 [w0, w1, w2, w3, w4] fun c s =>
    if s.useDiffers p then s
    else s.fabAcked p (fieldAt c.body 0 1) (fieldAt c.body 2 2) (fieldAt c.body 4 2)
      ((List.range (fieldAt c.body 1 1)).map fun i => fieldAt c.body (6 + 2 * i) 2))

/-- TXSTATE_RECEIVE (R303): NEXT_SEQ of TC0 to TC3. -/
def execTxstateReceive (p : Fin 4) (w0 w1 w2 w3 w4 : FabWord) (s : State) : Host.Outcome State Fault Refusal := s.clocked fun s =>
  .next (s.ctlIn p 0x19 [w0, w1, w2, w3, w4] fun c s =>
    if s.useDiffers p then s else s.each 4 fun tc s => s.fabShow p tc (abs16 (s.rxAt p tc).base (fieldAt c.body (2 * tc) 2)))

/-- FAB_ACK_TIMER (R302). -/
def execFabAckTimer (p tc : Fin 4) (s : State) : Host.Outcome State Fault Refusal := s.clocked fun s =>
  match (s.rxAt p tc).ackFirst with
  | some t => if s.portUp p ∧ t + s.fabAckT p ≤ s.ts then .next (s.fabAck p tc []) else .next s
  | none => .next s

/-- FAB_ACK_REPEAT (R302): every 1 µs while blocks of the class are held. -/
def execFabAckRepeat (p tc : Fin 4) (s : State) : Host.Outcome State Fault Refusal := s.clocked fun s =>
  let q := s.rxAt p tc
  if s.portUp p ∧ q.freed < q.taken ∧ q.lastAck + usTs ≤ s.ts then .next (s.fabAck p tc []) else .next s

/-- FAB_TXSTATE_SEND (R302): every 1 µs. -/
def execFabTxstateSend (p : Fin 4) (s : State) : Host.Outcome State Fault Refusal := s.clocked fun s =>
  let open_ := (List.range 4).any fun tc => !(s.txAt p tc).unsettled.isEmpty
  if s.portUp p ∧ open_ ∧ past (s.fportAt p).txstateAt usTs s.ts then
    .next ((s.updFp p fun q => { q with txstateAt := some s.ts }).sendCtl p 0x19 (txstateBody fun tc => (s.txAt p tc).next))
  else .next s

/-- FAB_RESEND_TIMEOUT (R303). -/
def execFabResendTimeout (p tc : Fin 4) (s : State) : Host.Outcome State Fault Refusal := s.clocked fun s =>
  if s.portUp p then .next (s.fabResend p tc) else .next s

/-- FAB_MSG_TIMEOUT (R306). -/
def execFabMsgTimeout (s : State) : Host.Outcome State Fault Refusal := s.clocked fun s =>
  .next ((s.fab.reasm.filter fun r => decide (r.first + s.rf rFabCtrl 15 8 * usTs ≤ s.ts)).foldl State.fabMsgLost s)

/-- TOPO_SEND (R312): towards the root, or into the root's own map. -/
def execTopoSend (s : State) : Host.Outcome State Fault Refusal := s.clocked fun s =>
  if !s.fabEn ∨ !(s.fab.topoDue || decide (s.fab.lastTopo + 100 * msTs ≤ s.ts)) then .next s
  else
    let t := { s with fab := { s.fab with lastTopo := s.ts, topoDue := false } }
    if s.fab.isRoot then .next { t with fab.mapDue := true }
    else match s.fab.upPort with
      | some p => .next (t.fabOutPort p 3 0x20 s.ownTopo.bytes)
      | none => .next s

/-- TOPO_RECEIVE (R312, R313). -/
def execTopoReceive (s : State) : Host.Outcome State Fault Refusal := s.clocked fun s =>
  match s.takeMsg fun m => m.mtype == 0x20 with
  | none => .next s
  | some (m, s) =>
    if s.fab.isRoot then
      let t := topoOf m.payload s.ts
      let same := s.fab.topos.any fun x => x.serial == t.serial && x.addr == t.addr && x.ports == t.ports
      .next { s with fab := { s.fab with topos := t :: s.fab.topos.filter (fun x => x.serial != t.serial), mapDue := s.fab.mapDue || !same } }
    else match s.fab.upPort with
      | some p => .next (s.fabOutPort p 3 0x20 m.payload)
      | none => .next s

/-- MAP_BROADCAST (R313, R314). -/
def execMapBroadcast (s : State) : Host.Outcome State Fault Refusal := s.clocked fun s =>
  if !s.fabEn ∨ !s.fab.isRoot ∨ !(s.fab.mapDue || decide (s.fab.lastTopo + 100 * msTs ≤ s.ts)) then .next s
  else
    let (s, epoch, recs) := s.makeMap
    let s := { s with fab := { s.fab with mapDue := false, lastTopo := s.ts } }
    .next ((s.applyMap epoch s.otp.serial recs).fabOut 3 0x21 0 true (mapBytes epoch s.otp.serial recs))

/-- MAP_RECEIVE (R313): a MAP of the root adopted. -/
def execMapReceive (s : State) : Host.Outcome State Fault Refusal := s.clocked fun s =>
  match s.takeMsg fun m => m.mtype == 0x21 with
  | none => .next s
  | some (m, s) =>
    if s.fab.isRoot ∨ fieldAt m.payload 8 8 ≠ s.fab.rootSerial then .next s
    else .next (s.applyMap (fieldAt m.payload 0 4) s.fab.rootSerial (mapRecsOf m.payload))

/-- ROUTE_TABLE_SWITCH (R316): the levels are those from the root whose MAP it is. -/
def execRouteTableSwitch (s : State) : Host.Outcome State Fault Refusal := s.clocked fun s =>
  if !s.fab.mapNew then .next s
  else
    let (t, d) := match s.fab.addr with
      | some a => (routeTable s.fab.map s.fab.mapRoot a, downPorts s.fab.map s.fab.mapRoot a)
      | none => ([], [])
    .next { s with fab := { s.fab with mapNew := false, table := t, downs := d, dead := (List.range 4).filter fun p => !s.portUp p } }

/-- ROOT_SEQ_TICK (R312): every 10 µs. -/
def execRootSeqTick (s : State) : Host.Outcome State Fault Refusal := s.clocked fun s =>
  if s.fabEn ∧ s.fab.isRoot ∧ s.fab.rootSeqAt + 10 * usTs ≤ s.ts then .next { s with fab := { s.fab with rootSeq := (s.fab.rootSeq + 1) % 65536, rootSeqAt := s.ts } }
  else .next s

/-- ROOT_SEQ_TIMEOUT (R312): the root heard is dropped on every port that names it. -/
def execRootSeqTimeout (s : State) : Host.Outcome State Fault Refusal := s.clocked fun s =>
  if s.fabEn ∧ !s.fab.isRoot ∧ s.fab.rootSeqAt + 100 * usTs ≤ s.ts then
    let r := s.fab.rootSerial
    .next (s.each 4 fun p s => s.updFp p fun q => if q.rootSerial = some r then { q with rootSerial := none } else q).elect
  else .next s

/-- ADDR_RESERVE_EXPIRY (R314). -/
def execAddrReserveExpiry (s : State) : Host.Outcome State Fault Refusal := s.clocked fun s =>
  .next { s with fab.reserved := s.fab.reserved.filter fun r => decide (s.ts < r.2.2 + 10000 * msTs) }

/-- DISCOVERY_TIMEOUT (R315). -/
def execDiscoveryTimeout (s : State) : Host.Outcome State Fault Refusal := s.clocked fun s =>
  if s.sys.st = .train ∧ s.fabEn ∧ !s.fab.discDone ∧ s.sys.stAt + 10 * s.rf rFabCtrl 23 16 * msTs ≤ s.ts then
    .next { s with fab := { s.fab with part := true, discDone := true, discAt := s.ts } }
  else .next s

/-- REG_RSP_RECEIVE (R319). -/
def execRegRspReceive (s : State) : Host.Outcome State Fault Refusal := s.clocked fun s =>
  match s.takeMsg fun m => m.mtype == 0x29 with
  | none => .next s
  | some (m, s) =>
    match s.fab.ra with
    | some r =>
      if r.tag = fieldAt m.payload 2 2 ∧ r.dev = m.src then
        let s := if r.write then s else s.setReg rFabRaData (w32 (fieldAt m.payload 8 4))
        .next (s.raEnd (fieldAt m.payload 0 1 % 8))
      else .next s
    | none => .next s

/-- REG_REQ_TIMEOUT (R319). -/
def execRegReqTimeout (s : State) : Host.Outcome State Fault Refusal := s.clocked fun s =>
  match s.fab.ra with
  | some r => if r.at_ + 100 * usTs ≤ s.ts then .next (s.raEnd 3) else .next s
  | none => .next s

/-- FW_MSG_RECEIVE (R309): to the firmware's queue. -/
def execFwMsgReceive (s : State) : Host.Outcome State Fault Refusal := s.clocked fun s =>
  match s.takeMsg fun m => m.mtype == 0x38 with
  | some (m, s) => .next { s with core.fwMsg := s.core.fwMsg ++ [m] }
  | none => .next s

end Sys2Proof.Machine
end

