-- ==== Sys2Proof/Machine/CwOps.lean ====
section
/-! DEFINITION. The causeway and the configuration census: beacons, standby roots, digest, rounds, epochs (R323 to R344). -/
namespace Sys2Proof.Machine

def State.updCw (s : State) (d : Nat) (f : Cw → Cw) : State := { s with cw := updV s.cw d f }

/-- Up FABRIC ports but `inPort` (R330). -/
def State.fabricPorts (s : State) (inPort : Option Nat) : List Nat :=
  (List.range 4).filter fun p => s.portUp p && s.fabUse p == 1 && inPort != some p

/-- Generation `g` is newer than `h` (R330). -/
def genNewer (g h : Nat) : Bool := decide (1 ≤ (g + 256 - h) % 256) && decide ((g + 256 - h) % 256 ≤ 127)

/-- TS of a fabric time (R323): TS = TS_BASE + (FT − FT_BASE) ÷ (5 × (1 + FADJ)), rounded down; before there is fabric time it is 5 × TS. -/
def State.tsOfFt (s : State) (ft : Int) : Nat :=
  match s.ft.tstate with
  | .free => (ft / 5).toNat
  | _ => ((s.ft.tsBase : Int) + (ft - s.ft.ftBase) * 1000000000 / (5 * (1000000000 + s.ft.fadj))).toNat

/-- A domain that runs on beacons: remote, or a standby root that has accepted one (R331, R333). -/
def State.onBeacons (s : State) (d : Nat) : Bool := s.dEn d && (s.dSource d == 1 || (s.dSource d == 0 && (s.cwAt d).standby))

/-- A beacon domain's source has returned in COAST or LOST: the coordinate steps to the beacon value (R65). -/
def State.remoteBack (s : State) (d : Nat) (x : Int) : State :=
  let step := x - s.coordNow d
  let s := ((s.noteLoss d).setLock d .acquire).when (step ≠ 0) fun s => s.peatStep d step
  s.updDom d fun m => { m with coord := x, hist := [], tPrev := none, known := keepKnown s.ts ((s.ts, x) :: m.known), motion := .creep }

/-- A beacon sample drives domain `d` (R331): coordinate `x` at TS `t`. Beacon samples count in nm (DEDUCED, log 14); a sample that
repeats the coordinate is no edge. -/
def State.beaconSample (s : State) (d status : Nat) (x : Int) (t : Nat) : State :=
  if status = 2 then (if (s.dom d).lock = .lost then s else s.enterLost d)
  else
    let s := if status = 1 ∧ (s.dom d).lock ≠ .coast then s.enterCoast d else s
    let s := if status = 0 ∧ ((s.dom d).lock = .coast ∨ (s.dom d).lock = .lost) then s.remoteBack d x else s
    let s := if (s.dom d).lock = .off then s.setLock d .acquire else s
    let old := (s.dom d).coord
    if (s.dom d).tPrev.isSome ∧ x = old then s
    else
      let fwd := (s.dom d).tPrev.isNone || decide (old ≤ x)
      s.sample d x t (2 ^ 32) fwd x (fun y => if y ≤ x then some t else none) [(t, x)]

/-- A device with a local encoder acts as a standby from now on (R333 to R335): it sends no beacon, its encoder goes on as the shadow, and
the domain runs on beacons, whose samples count in nm. -/
def State.concede (s : State) (d : Nat) : State :=
  let m := s.dom d
  let sc := s.dScale d
  let sh := { m with lock := if m.lock = .locked then .locked else .acquire, coord := if m.everLocked then m.coord else s.regS64 (rPosDInitLo d) }
  let s := (s.updCw d fun c => { c with active := false, standby := true }).updShadow d fun _ => sh
  s.updDom d fun m => { m with hist := m.hist.map fun e => (m.coordHeld sc e.1, e.2) }

/-- SOFS at a beacon (R333): the beacon's coordinate less the local one at the sample time. A beacon with STATUS LOST carries none, so SOFS
stays (DEDUCED, log 105). -/
def State.recordSofs (s : State) (d : Nat) (x : Int) (t : Nat) : State :=
  s.updCw d fun c => { c with sofs := x - (s.shadowOf d).at t }

/-- A beacon has been accepted (R330, R331, R333 to R335); it goes on at once, so AGE stays, and not from a device beyond the 512th (R314). -/
def State.beaconTake (s : State) (p : Nat) (b : Beacon) (sample : Int) : State :=
  let d := b.dom
  let c := s.cwAt d
  let gap := if c.ever then (s.ts - c.lastAcc) / 8 else 0
  let s := (s.addWrap (rFabCwRx d) 1).setRf (rFabCwSw d) 15 0 (max (s.rf (rFabCwSw d) 15 0) (sat 16 gap))
  let clash := c.active && b.gen == c.gen && decide (b.root < c.root)
  let stb := s.dEn d && s.dSource d == 0
  let s := s.when (c.active || (stb && !c.standby)) fun s => s.concede d
  let s := s.when clash fun s => s.raise evCwRootConflict 0 d 0
  let t := s.tsOfFt sample
  let x := b.coord
  let s := s.updCw d fun c =>
    { c with gen := b.gen, root := b.root, hops := b.hops, ever := true, lastAcc := s.ts,
             lastLocked := if b.status = 0 ∨ !c.ever then s.ts else c.lastLocked, lastSample := sample.toNat, status := b.status }
  let s := if stb ∧ b.status ≠ 2 then s.recordSofs d x t else s
  let s := if s.onBeacons d then s.beaconSample d b.status x t else s
  if b.hops < 24 ∧ !s.fab.noAddr then
    (s.fabricPorts (some p)).foldl (fun s q => s.sendCtl q 0x24 (beaconBody { b with hops := b.hops + 1 })) s
  else s

/-- A beacon passes the conditions of R330; one from this device's own root role comes back and is dropped. -/
def State.beaconOk (s : State) (b : Beacon) (sample : Int) : Bool :=
  let c := s.cwAt b.dom
  let known := c.ever || c.active
  decide (b.hops ≤ 24) && decide (b.age ≤ 32000) && b.status != 3 && s.fab.addr != some b.root &&
  (!known || genNewer b.gen c.gen || (b.gen == c.gen && decide (b.root ≤ c.root))) &&
  (!c.ever || decide ((c.lastSample : Int) < sample))

/-- The standby root of a domain takes over (R334): its own encoder goes on from local coordinate + SOFS. -/
def State.takeOver (s : State) (d : Nat) : State :=
  let c := s.cwAt d
  let sh := s.shadowOf d
  let s := s.updCw d fun c => { c with active := true, standby := false, gen := (c.gen + 1) % 256, root := s.fab.addr.getD 0, hops := 0, lastSent := 0 }
  let s := s.updDom d fun m =>
    { m with base := sh.base + c.sofs, c0 := sh.c0, coord := sh.coord + c.sofs, pe := sh.pe + c.sofs, te := sh.te, hist := sh.hist,
             tPrev := sh.tPrev, v := sh.v, acc := sh.acc, motion := sh.motion, lastC := sh.lastC, everLocked := true, onCheck := false,
             known := sh.known.map fun k => (k.1, k.2 + c.sofs), cmpP := s.encCount (s.dEncSel d), cmpC := s.encCount (s.dCheckEnc d) }
  ((s.setLock d .locked).addSat (rFabCwSw d) 31 16 1).raise evCwRootSwitch 0 d 0

/-- At the start of position operation each domain with a local encoder and no STANDBY beacons (R329, R333). -/
def State.cwStart (s : State) : State :=
  { s with cw := Vector.ofFn fun (d : Fin 16) =>
      { Cw.init with active := s.dEn d && s.dSource d == 0 && !s.dStandby d, root := s.fab.addr.getD 0 } }

/-- Every offset of a row of the register tables. -/
def dimsOffsets : List (Nat × Nat) → List Nat
  | [] => [0]
  | (st, n) :: r => (List.range n).flatMap fun i => (dimsOffsets r).map fun x => i * st + x

/-- The S-class registers outside the TILE block, in ascending offset (R336). -/
def sClassOffsets : List Nat :=
  let rows := regsSys ++ regsPos ++ regsPsq ++ regsEru ++ regsJnl ++ regsSec ++ regsMtx ++ regsCcd ++ regsPcie ++ regsCfg ++ regsIox ++
    regsClk ++ regsIgl ++ regsLcu ++ regsGdc ++ regsFab ++ regsRes
  ascending ((rows.filter fun r => r.fields.any fun f => f.cls == .s).flatMap fun r => (dimsOffsets r.dims).map (r.base + ·))

/-- The digest of R336. -/
def State.configDigest (s : State) : List Byte :=
  let rec_ := match s.frm.recipe with
    | some r => leBytes 1 r ++ leBytes 1 s.psq.page ++ leBytes 1 s.frm.mode
    | none => leBytes 1 0xFF ++ leBytes 1 s.psq.page ++ leBytes 1 0xFF
  let man := (List.range 8).flatMap fun i => leBytes 4 (s.reg (rCfgManifest i)).toNat
  fitBytes 32 (Config.shake256 (leBytes 4 0x4E45434B ++ leBytes 8 s.cen.epoch ++ man ++ rec_ ++ leBytes 1 0 ++
    sClassOffsets.flatMap fun o => leBytes 4 o ++ leBytes 4 (s.viewReg .bridge o).toNat))

/-- The census policy (R338, R481). -/
def State.polPeriod (s : State) : Nat := if s.img.policy = [] then 1000 else fieldAt s.img.policy 0 4
def State.polPlanned (s : State) : Bool := s.img.policy ≠ [] && fieldAt s.img.policy 4 1 == 1
def State.polStop (s : State) : Bool := s.img.policy ≠ [] && fieldAt s.img.policy 5 1 == 1
def State.polGroups (s : State) : Nat := if s.img.policy = [] then 0 else fieldAt s.img.policy 6 2
def State.polPlans (s : State) : Nat := if s.img.policy = [] then 0 else fieldAt s.img.policy 8 2
def State.groupOf (s : State) (ser : Nat) : Nat :=
  match (List.range s.polGroups).find? fun i => fieldAt s.img.policy (32 + 16 * i) 8 == ser with
  | some i => fieldAt s.img.policy (32 + 16 * i + 8) 1
  | none => 0
def State.planDigest (s : State) (grp epoch : Nat) : Option (List Byte) :=
  let o := fun i => 32 + 16 * s.polGroups + 48 * i
  ((List.range s.polPlans).find? fun i => fieldAt s.img.policy (o i) 1 == grp && fieldAt s.img.policy (o i + 8) 8 == epoch).map
    fun i => bslice s.img.policy (o i + 16) 32
def State.polTs (s : State) : Nat := s.polPeriod * msTs

/-- A report of this device to the round `cround` (R339). -/
def State.cenReport (s : State) (cround : Nat) : List Byte :=
  leBytes 4 cround ++ leBytes 8 s.cen.epoch ++ fitBytes 32 s.cen.digest ++ leBytes 1 (s.frm.recipe.getD 0xFF) ++
    leBytes 1 (s.psq.page + 2 * b2n s.cen.stale) ++ leBytes 2 0 ++ leBytes 8 s.otp.serial

def cenReportOf (addr : Nat) (b : List Byte) : CenReport :=
  { addr := addr, cround := fieldAt b 0 4, epoch := fieldAt b 4 8, digest := bslice b 12 32, stale := bitN (fieldAt b 45 1) 1,
    serial := fieldAt b 48 8 }

/-- The root opens a round (R340). -/
def State.cenOpen (s : State) : State :=
  let n := (s.cen.cround + 1) % 2 ^ 32
  let s := { s with cen := { s.cen with cround := n, open_ := some s.ts, pollEpoch := s.cen.epoch, reports := [] } }
  let own := cenReportOf (s.fab.addr.getD 0) (s.cenReport n)
  ({ s with cen.reports := [own] } : State).fabOut 3 0x30 0 true (leBytes 4 n ++ leBytes 8 s.cen.epoch)

/-- The reference of a group among its counted reports (R340). -/
def State.cenReference (s : State) (grp : Nat) (rs : List CenReport) : Option (List Byte) :=
  match (if s.polPlanned then s.planDigest grp s.cen.pollEpoch else none) with
  | some d => some d
  | none => (rs.map (·.digest)).find? fun d => decide (rs.length < 2 * (rs.filter fun r => r.digest == d).length)

/-- The decision of a round (R340): listed and missing addresses, whether a group has no majority, the references. -/
def State.cenDecide (s : State) : List Nat × List Nat × Bool × List (List Byte) :=
  let counted := s.cen.reports.filter fun r => !r.stale && r.epoch == s.cen.pollEpoch
  let grp := fun g => counted.filter fun r => s.groupOf r.serial == g
  let refs := (List.range 16).map fun g => s.cenReference g (grp g)
  let noMaj := (List.range 16).any fun g => !(grp g).isEmpty && (refs.getD g none).isNone
  let bad := (counted.filter fun r => match refs.getD (s.groupOf r.serial) none with
    | some d => r.digest != d
    | none => true).map (·.addr)
  let missing := (s.fab.map.map (·.addr)).filter fun a => !s.cen.reports.any fun r => r.addr == a
  let listed := bad ++ missing.filter fun a => s.cen.prevMissing.contains a && !bad.contains a
  (listed, missing, noMaj, refs.map fun r => r.getD (List.replicate 32 0))

def addrMap (l : List Nat) : List Byte := leBytes 64 (maskOf 512 fun a => l.contains a)

/-- A CEN_RESULT payload (R339). -/
def State.cenResult (s : State) (listed missing : List Nat) (noMaj : Bool) (refs : List (List Byte)) : List Byte :=
  leBytes 4 s.cen.cround ++ leBytes 8 s.cen.pollEpoch ++ leBytes 1 (b2n (s.polStop && !noMaj) + 2 * b2n noMaj) ++ leBytes 3 0 ++
    addrMap listed ++ addrMap missing ++ refs.flatMap (fitBytes 32)

/-- A result's round is the one that the running CENSUS_NOW asked for, or a later one (R342; DEDUCED, log 107). -/
def Census.answers (c : Census) (round : Nat) : Bool :=
  match c.ask with
  | some n => inRng 1 (2 ^ 31) ((round + 2 ^ 32 - n) % 2 ^ 32)
  | none => true

/-- A device applies a CEN_RESULT (R341, R342): from a STOP on, a START_OUTPUTS that waits is refused. -/
def State.cenApply (s : State) (b : List Byte) : State :=
  let listed := match s.fab.addr with
    | some a => bitN (fieldAt b 16 64) a
    | none => false
  let stop := bitN (fieldAt b 12 1) 0
  let noMaj := bitN (fieldAt b 12 1) 1
  let first := listed && !s.cen.listed
  let firstStop := listed && stop && !(s.cen.listed && s.cen.action == 2)
  let s := { s with cen := { s.cen with listed := listed, action := if listed then (if stop then 2 else 1) else 0, noMaj := noMaj,
                                        count := popcount 512 (fieldAt b 16 64), lastResult := s.ts, nores := false, resRound := fieldAt b 0 4,
                                        newRoot := false },
                    sys.cenStop := listed && stop, core.cenIrq := true }
  let s := s.when noMaj fun s => s.orReg rFabCenEvt 2
  let s := s.when first fun s => (s.orReg rFabCenEvt 1).raise evCenListed 0 0 0
  let s := s.when (firstStop && decide (4 ≤ s.sys.st.code)) fun s =>
    (s.journalAdd 0x3FE (leBytes 1 0x02 ++ leBytes 1 1 ++ leBytes 62 0) 5).1.stopOutputs
  let s := s.when (listed && stop) fun s => (s.jnl.wait.filter fun q => q.code == 0x01).foldl (fun s q => s.endWait q.seq 2 7 0) s
  match s.jnl.run with
  | some q => if q.code = 0x0B ∧ s.cen.answers (fieldAt b 0 4) then s.endCmd q 1 0 (fieldAt b 0 4) else s
  | none => s

/-- The root sends its decision and applies it to itself. -/
def State.cenClose (s : State) : State :=
  let (listed, missing, noMaj, refs) := s.cenDecide
  let b := s.cenResult listed missing noMaj refs
  let s := s.when noMaj fun s => s.raise evCenNoMajority 0 0 0
  let s := { s with cen := { s.cen with lastRound := s.cen.open_.getD s.ts, open_ := none, prevMissing := missing } }
  (s.fabOut 3 0x32 0 true b).cenApply b

/-- A request for a round reaches the root (R342): it opens one, or joins the one in progress. -/
def State.cenAsk (s : State) : State := if s.cen.open_.isSome then s else s.cenOpen

/-- CENSUS_NOW asks the root (R342): the root knows the round it joins; any other device takes the first that comes after the last result it
had of this root, or any when it had none (DEDUCED, log 107). -/
def State.cenNow (s : State) : State :=
  if s.fab.isRoot then let s := s.cenAsk; { s with cen.ask := some ((s.cen.cround + 2 ^ 32 - 1) % 2 ^ 32) }
  else let s := { s with cen.ask := if s.cen.newRoot then none else some s.cen.resRound }; match s.fab.map.find? fun r => r.serial == s.fab.rootSerial with
    | some r => s.fabOut 3 0x36 r.addr false (leBytes 4 0)
    | none => s

/-- Payload of EPOCH_PROPOSE (R339), and the proposal it carries. -/
def proposeBytes (p : EpochProp) : List Byte :=
  leBytes 8 p.epoch ++ leBytes 1 p.dom ++ leBytes 1 0 ++ leBytes 2 p.orig ++ leBytes 8 (unsigned 64 p.coord)
def proposalOf (b : List Byte) (now : Nat) : EpochProp :=
  { epoch := fieldAt b 0 8, dom := fieldAt b 8 1 % 16, orig := fieldAt b 10 2, coord := signed 64 (fieldAt b 12 8), at_ := now, late := false }

/-- A device's answer to a proposal (R339): 0 accept. -/
def State.epochAnswer (s : State) (p : EpochProp) : Nat :=
  let l := (s.dom p.dom).lock
  if l ≠ .locked ∧ l ≠ .coast then 1 else if p.coord ≤ (s.dom p.dom).hwm then 2 else if p.epoch ≤ s.cen.epoch then 3 else 0

/-- A device hears a proposal: its answer. -/
def State.epochHear (s : State) (p : EpochProp) : State × Nat :=
  let c := s.epochAnswer p
  (if c = 0 then { s with cen.accepted := s.cen.accepted ++ [p] } else s, c)

/-- The point at which an epoch applies has passed: a frame at or after its coordinate has been dispatched (R343). -/
def State.epochPassed (s : State) (p : EpochProp) : Bool :=
  if s.fdom = some p.dom then
    match s.frm.recipe, s.frm.next with
    | some r, some m => decide (p.coord ≤ s.rcpLineY r (m - (s.rcpB r : Int)))
    | _, _ => decide (p.coord ≤ (s.dom p.dom).hwm)
  else decide (p.coord ≤ (s.dom p.dom).hwm)

/-- A device takes a commit (`reason` 0) or an abort (R343). -/
def State.epochOutcome (s : State) (e reason : Nat) : State :=
  if reason ≠ 0 then s.epochAbort e reason
  else match s.cen.accepted.find? fun p => p.epoch == e with
    | some p => { s with cen := { s.cen with accepted := s.cen.accepted.erase p, committed := s.cen.committed ++ [{ p with late := s.epochPassed p }] } }
    | none => s

/-- The root decides the open proposal: broadcast, and its own part (R343). -/
def State.epochClose (s : State) (p : EpochProp) (reason : Nat) : State :=
  let s := { s with cen := { s.cen with prop := none, acks := [] } }
  (s.fabOut 3 0x35 0 true (leBytes 8 p.epoch ++ leBytes 1 (if reason = 0 then 0 else 1) ++ leBytes 1 reason)).epochOutcome p.epoch reason

/-- The root looks at the answers to the open proposal (R343). -/
def State.epochCheck (s : State) (p : EpochProp) : State :=
  if s.cen.acks.any fun a => a.2 != 0 then s.epochClose p 1
  else if s.fab.map.all fun r => s.cen.acks.any fun a => a.1 == r.addr then
    s.epochClose p (if (s.dom p.dom).hwm < p.coord then 0 else 3)
  else s

/-- The root takes a proposal (R343, R344): one at a time. -/
def State.epochPropose (s : State) (p : EpochProp) : State :=
  if s.cen.prop.isSome then
    (s.fabOut 3 0x35 0 true (leBytes 8 p.epoch ++ leBytes 1 1 ++ leBytes 1 4)).epochAbort p.epoch 4
  else
    let s := { s with cen := { s.cen with prop := some p, acks := [] } }
    let s := s.fabOut 3 0x33 0 true (proposeBytes p)
    let (s, c) := s.epochHear p
    ({ s with cen.acks := [(s.fab.addr.getD 0, c)] } : State).epochCheck p

/-- EPOCH_SWITCH sends its proposal to the root (R343). -/
def State.epochStart (s : State) (q : QCmd) : State :=
  let p : EpochProp := { epoch := q.epochArg, dom := fieldAt q.desc 17 1 % 16, coord := signed 64 (fieldAt q.desc 24 8),
                         orig := s.fab.addr.getD 0, at_ := s.ts, late := false }
  if s.fab.isRoot then s.epochPropose p
  else match s.fab.map.find? fun r => r.serial == s.fab.rootSerial with
    | some r => s.fabOut 3 0x33 r.addr false (proposeBytes p)
    | none => s

/-- θ of an exchange, in ticks, from its stamps and ASYM in ps (R326). -/
def thetaOf (t1 t2 t3 t4 asym : Int) : Int := (250 * ((t2 - t1) - (t4 - t3)) - asym) / 500

/-- The child takes a valid response (R326, R327). The new FADJ is a free value within ±100 ppm: the spec bounds it and no more. -/
def State.syncTake (s : State) (p : Nat) (t1 t2 t3 t4 : Int) : State :=
  let th := thetaOf t1 t2 t3 t4 (signed 32 (s.reg (rFabPAsym p)).toNat)
  let delay := ((t2 - t1) + (t4 - t3)) / 2
  let s := (s.setReg (rFabPDelay p) (w32i delay)).setRf (rFabPSync p) 15 0 (s.rf (rFabPSync p) 15 0 + 1)
  let s := if s.ft.tstate = .holdover then s.ftState .acquire else s
  let s := { s with ft := { s.ft with t1 := none, theta := th, lastRsp := s.ts } }
  if th.natAbs ≤ 4000 then
    let good := if th.natAbs ≤ 8 then s.ft.good + 1 else 0
    let now := s.fabricTime
    let adj : Int := ((s.freeNat 18 % 200001 : Nat) : Int) - 100000
    let s := { s with ft := { s.ft with good := good, ftBase := now, tsBase := s.ts, fadj := adj } }
    (if 8 ≤ good ∧ s.ft.tstate = .acquire then s.ftState .locked else s).tick 1
  else
    let now := ((s.fabricTime : Int) + th).toNat
    let s := { s with ft := { s.ft with ftBase := now, tsBase := s.ts, good := 0, steps := s.ft.steps + 1 },
                      cw := s.cw.map fun (c : Cw) => { c with lastSample := ((c.lastSample : Int) + th).toNat } }
    s.raise evFtStep 0 (unsigned 32 th) 0

end Sys2Proof.Machine
end

