-- ==== Sys2Proof/Machine/PosCmd.lean ====
section
/-! DEFINITION. Commands of the position timebase, the encoder inputs, the triggers and the output timing (R13 to R69, R288). -/
namespace Sys2Proof.Machine

/-- OUTPUT_EVENT_ARRIVE (R13, R14): the event at the front of the die link is held, or found late; a lost link loses it. -/
def execOutputEventArrive (s : State) : Host.Outcome State Fault Refusal :=
  match s.pos.toLd with
  | .event e :: r =>
    let s := { s with pos.toLd := r }
    if !s.sys.dieLink then .next s
    else .next (if e.time < s.now16 then s.lateEvent e else { s with pos.held := s.pos.held ++ [e] })
  | _ => .next s

/-- OUTPUT_CANCEL_ARRIVE (R13): the event is withdrawn when its time has not come. -/
def execOutputCancelArrive (s : State) : Host.Outcome State Fault Refusal :=
  match s.pos.toLd with
  | .cancel id :: r =>
    let s := { s with pos.toLd := r }
    if !s.sys.dieLink then .next s
    else match s.pos.held.find? fun e => e.id == id with
    | some e =>
      if s.now16 < e.time then
        let s := { s with pos.held := s.pos.held.filter fun x => x.id != id }
        .next (match e.kind with
          | .trg g => (s.updGen g fun x => { x with trigs := x.trigs.filter fun t => t.id != id }).flushBack (s.genLead g)
          | .mrkOn n => s.mkCancelled n id
          | _ => s)
      else .next s
    | none => .next s
  | _ => .next s

/-- OUTPUT_EVENT_FIRE (R14): the earliest event whose stated time has come. -/
def execOutputEventFire (s : State) : Host.Outcome State Fault Refusal :=
  match s.dueEvent with
  | some e => .next (s.fireEvent e)
  | none => .next s

/-- TRG_PULSE_END (R56). -/
def execTrgPulseEnd (ball : Fin 16) (s : State) : Host.Outcome State Fault Refusal :=
  match atV s.pos.trgEnd ball.val none with
  | some e =>
    if e ≤ s.now16 then
      .next { s with pos.trgEnd := setV s.pos.trgEnd ball.val none, balls.trg := setV s.balls.trg ball.val (s.trgIdle ball.val) }
    else .next s
  | none => .next s

/-- MARKER_PULSE_END (R283): the end of a SPOT pulse, or the committed end of a span. -/
def execMarkerPulseEnd (n : Fin 8) (s : State) : Host.Outcome State Fault Refusal :=
  match (s.mkr n.val).pulseEnd with
  | some e => .next (if e ≤ s.now16 then s.mkFireOff n.val none else s)
  | none =>
    match s.pos.held.find? fun e => e.kind == .mrkOff n.val && decide (e.time ≤ s.now16) with
    | some e => .next (s.fireEvent e)
    | none => .next s

/-- Time at which the filter accepts a level first seen at `stamp` (R34). -/
def State.filtDone (s : State) (n stamp : Nat) : Nat := stamp + s.rf (rIoxEncCfg n) 15 8

/-- Put a counted edge into the reports of its input (R38): an interval holds edges of one direction and one 64-TS interval. -/
def reportEdge (e : Encoder) (n stamp acc : Nat) (count : Int) (up : Bool) (filt : Nat) : Encoder :=
  match e.openRep with
  | none => { e with openRep := some { enc := n, first := stamp, newest := stamp, count := count, up := up } }
  | some r =>
    if r.up = up ∧ (r.first + filt) / 64 = acc / 64 then { e with openRep := some { r with newest := stamp, count := count } }
    else { e with closed := e.closed ++ [r], openRep := some { enc := n, first := stamp, newest := stamp, count := count, up := up } }

/-- A count edge is accepted (R33, R36, R38): one less than 40 ns after the last leaves the count without guarantee (log 1). -/
def State.countEdge (s : State) (n stamp : Nat) (up : Bool) : State :=
  let e := s.enc n
  let fast := match e.lastStamp with
    | some t => decide (stamp < t + 32)
    | none => false
  let c := if fast then signed 32 (s.freeNat 32) else if up then e.count + 1 else e.count - 1
  let filt := s.rf (rIoxEncCfg n) 15 8
  let s := s.updEnc n fun e => reportEdge { e with count := c, lastStamp := some stamp, lastUp := some up, ovsp := e.ovsp || fast }
    n stamp (stamp + filt) c up filt
  s.when fast fun s => (s.tick 1).raise evEncOverspeed 0 n 0

/-- The Lagg die is out of reset and samples its inputs (R34, R581). -/
def State.ldAwake (s : State) : Bool := s.sys.powered && s.sys.resetN

/-- The levels that pass the filter at one moment on A, on B or on both, taken by the encoder: the first level of an input after a silent
moment of R34 is set and is no edge of that input. -/
def Encoder.silent (e : Encoder) (a b : Option Bool) : Encoder :=
  { e with a := if e.quietA then a.getD e.a else e.a, b := if e.quietB then b.getD e.b else e.b,
           quietA := e.quietA && a.isNone, quietB := e.quietB && b.isNone }

/-- ENCODER_EDGE (R33 to R36): levels of A and of B that pass the filter, first seen at `stamp`; `none` for an input at which none does.
In reset the levels are taken, and nothing is counted. After a silent moment of R34 the first level of each input comes by this row even
where it equals the one held (DEDUCED, log 104). -/
def execEncoderEdge (n : Fin 4) (a b : Option Bool) (stamp : Nat) (s : State) : Host.Outcome State Fault Refusal :=
  if !s.ldAwake then .next (s.updEnc n.val fun e => { e with a := a.getD e.a, b := b.getD e.b })
  else if s.ts < s.filtDone n.val stamp then .next s
  else
    let e := (s.enc n.val).silent a b
    let (a, b) := (a.getD e.a, b.getD e.b)
    let s1 := s.updEnc n.val fun _ => { e with a := a, b := b }
    match decodeEdge (s.rf (rIoxEncCfg n.val) 1 0) e.a e.b a b with
    | .nothing => .next s1
    | .count up => .next (s1.countEdge n.val stamp up)
    | .illegal =>
      let s2 := s1.updEnc n.val fun e => { e with qerrCnt := e.qerrCnt + 1, qerr := true }
      .next (s2.when (!e.qerr) fun s => s.raise evEncQuadErr 0 n.val 0)

/-- The Z check of the domains on encoder `n` (R60): `c` and the previous forward capture. -/
def State.zCheck (s : State) (n : Nat) (c : Int) (prev : Option Int) : State :=
  s.each 16 fun d s =>
    let z := s.rf (rPosDZexp d) 23 0
    let bad := match prev with
      | some p => decide (((((c - p).natAbs : Nat) : Int) - (z : Int)).natAbs > s.rf (rPosDZexp d) 31 24)
      | none => false
    s.when (s.dEn d && s.dSource d == 0 && s.dEncSel d == n && z != 0 && bad) fun s =>
      (s.updEnc n fun e => { e with zerr := true }).raise evEncZMismatch 0 n 0

/-- Z_EDGE (R34, R60, R61, R248). With Z_EN clear the level is followed and no edge is accepted. -/
def execZEdge (n : Fin 4) (level : Bool) (stamp : Nat) (s : State) : Host.Outcome State Fault Refusal :=
  let e := s.enc n.val
  if !s.ldAwake then .next (s.updEnc n.val fun e => { e with z := level })
  else if s.ts < s.filtDone n.val stamp then .next s
  else if !s.rbit (rIoxEncCfg n.val) 3 ∨ e.quietZ then
    .next (s.updEnc n.val fun e => { e with z := level, quietZ := false })
  else if e.z = level then .next s
  else if !level then .next (s.updEnc n.val fun e => { e with z := false })
  else
    let c := e.count
    let fwd := match e.lastUp with
      | some u => some (u != s.encInvert n.val)
      | none => none
    let s := match fwd with
      | some true => s.zCheck n.val c e.prevZ
      | _ => s
    let s := s.updEnc n.val fun e => { e with z := true, zcap := c, prevZ := if fwd = some false then none else some c }
    let s := (s.psDoms 1 fun d => s.dEncSel d == n.val).foldl (fun s d => s.productStart d stamp) s
    .next (s.latchEdge fun x => { x with zLatch := setV x.zLatch n.val (some stamp) })

/-- Set or clear a receiver fault bit. -/
def Encoder.setRxf (e : Encoder) (p : EncPair) (v : Bool) : Encoder :=
  match p with
  | .a => { e with rxfA := v }
  | .b => { e with rxfB := v }
  | .z => { e with rxfZ := v }

/-- A standby root's own encoder enters receiver fault, or returns from it (R63, R65, R333): its shadow acquires again, and goes on from the
local coordinate of that moment. -/
def State.shadowFault (s : State) (n : Nat) (back : Bool) : State :=
  s.each 16 fun d s =>
    if s.dEn d ∧ s.dSource d = 0 ∧ (s.cwAt d).standby ∧ s.dEncSel d = n then
      s.updShadow d fun m =>
        if back then { m with base := m.at s.ts, c0 := s.encCount n, coord := m.at s.ts, lastC := some (s.encCount n), motion := .creep,
                              known := keepKnown s.ts ((s.ts, m.at s.ts) :: m.known) }
        else { m with lock := .acquire, hist := [] }
    else s

/-- Domains that run on encoder `n` now. One with both its encoders in fault is taken up again by the one it runs on, not by the other
(DESIGN CHOICE, log 121). -/
def State.domsOn (s : State) (n : Nat) : List Nat := (List.range 16).filter fun d => s.onEncoder d && s.dEncNow d == n

/-- ENC_RX_FAULT (R37, R62, R63). -/
def execEncRxFault (n : Fin 4) (p : EncPair) (s : State) : Host.Outcome State Fault Refusal :=
  let was := s.encFaulty n.val
  let same := (s.enc n.val).setRxf p true = s.enc n.val
  let s1 := s.updEnc n.val fun e => e.setRxf p true
  if same ∨ p = .z then .next s1
  else
    let ds := s.domsOn n.val
    let s2 := s1.when (ds != []) fun s => s.raise evEncRxFault 0 n.val 0
    .next (if was then s2 else (ds.foldl (fun s d => s.sourceLost d) s2).shadowFault n.val false)

/-- ENC_RX_FAULT_CLEAR (R37, R63, R65): the source has returned. -/
def execEncRxFaultClear (n : Fin 4) (p : EncPair) (s : State) : Host.Outcome State Fault Refusal :=
  let was := s.encFaulty n.val
  let s := s.updEnc n.val fun e => e.setRxf p false
  if !was ∨ s.encFaulty n.val then .next s
  else
    .next (((s.domsOn n.val).foldl (fun s d => match (s.dom d).lock with
      | .coast | .lost => s.sourceBack d
      | .off => s.domEnable d
      | _ => s) s).shadowFault n.val true)

/-- POS_CHECK_COMPARE (R62). -/
def execPosCheckCompare (d : Fin 16) (s : State) : Host.Outcome State Fault Refusal := s.clocked fun s =>
  let m := s.dom d.val
  if !s.dCheckEn d.val ∨ m.onCheck ∨ !m.everLocked ∨ !s.onEncoder d.val then .next s
  else
    let p := s.encCount (s.dEncSel d.val)
    let c := s.encCount (s.dCheckEnc d.val)
    let dp := (p - m.cmpP) * (s.reg64 (rPosDScaleLo d.val) : Int) / 2 ^ 32
    let dc := (c - m.cmpC) * (s.reg64 (rPosDCscaleLo d.val) : Int) / 2 ^ 32
    if dp.natAbs < 1000000000 then .next s
    else
      let s := s.updDom d.val fun m => { m with cmpP := p, cmpC := c }
      .next (s.when (decide (s.dCheckTol d.val * 1000 < (dc - dp).natAbs)) fun s => s.raise evPosCheckDiff 0 d.val 0)

/-- EDGE_REPORT_SEND (R38): the oldest closed interval, or the open one once its 64 TS units have passed. -/
def execEdgeReportSend (n : Fin 4) (s : State) : Host.Outcome State Fault Refusal :=
  let e := s.enc n.val
  match e.closed with
  | r :: t => .next { s.updEnc n.val fun e => { e with closed := t } with pos.reports := s.pos.reports ++ [r] }
  | [] =>
    match e.openRep with
    | some r =>
      if (s.filtDone n.val r.first) / 64 < s.ts / 64 then
        .next { s.updEnc n.val fun e => { e with openRep := none } with pos.reports := s.pos.reports ++ [r] }
      else .next s
    | none => .next s

/-- A domain whose motion timers run (R42, R43): every one that is enabled. -/
def State.timersRun (s : State) (d : Nat) : Bool := decide (s.rootDom d = d) && decide ((s.dom d).lock ≠ .off)

/-- STOPPED (R43): v and a are 0. In COAST the prediction goes on with the last velocity (R63), which is given up on entry to LOST
(DEDUCED, log 11). -/
def Domain.stop (m : Domain) : Domain :=
  if m.lock = .coast then { m with motion := .stopped } else { m with motion := .stopped, v := 0, acc := 0 }

/-- CREEP_T, or T_STOP, has passed after the newest edge without a further one (R42, R43): CREEP from TRACK and from REVERSE, STOPPED from
every motion state. -/
def Domain.creepDue (m : Domain) (creepT now : Nat) : Bool := match m.tPrev with
  | some t => decide (m.motion ≠ .stopped) && decide (t + creepT < now)
  | none => false
def Domain.stopDue (m : Domain) (tStop now : Nat) : Bool := match m.tPrev with
  | some t => decide (t + tStop ≤ now)
  | none => false

/-- MOTION_CREEP_TIMEOUT (R42, R43), of the domain and of the shadow of a standby root (R333). -/
def execMotionCreepTimeout (d : Fin 16) (s : State) : Host.Outcome State Fault Refusal := s.clocked fun s =>
  let s := s.when (s.timersRun d.val && (s.dom d.val).creepDue (s.dCreepT d.val) s.ts) fun s =>
    s.updDom d.val fun m => { m with motion := .creep }
  .next (s.when ((s.shadowOf d.val).creepDue (s.dCreepT d.val) s.ts) fun s => s.updShadow d.val fun m => { m with motion := .creep })

/-- MOTION_STOP_TIMEOUT (R43), likewise. -/
def execMotionStopTimeout (d : Fin 16) (s : State) : Host.Outcome State Fault Refusal := s.clocked fun s =>
  let s := s.when (s.timersRun d.val && (s.dom d.val).stopDue (s.dTStop d.val) s.ts) fun s => s.updDom d.val Domain.stop
  .next (s.when ((s.shadowOf d.val).stopDue (s.dTStop d.val) s.ts) fun s => s.updShadow d.val Domain.stop)

/-- TRIGGER_COMMIT (R47). -/
def execTriggerCommit (g : Fin 32) (s : State) : Host.Outcome State Fault Refusal := s.clocked fun s => .next (State.predictCommitN 1 s g.val)

/-- COAST_COORD_UPDATE (R63). -/
def execCoastCoordUpdate (d : Fin 16) (s : State) : Host.Outcome State Fault Refusal := s.clocked fun s =>
  if (s.dom d.val).lock = .coast ∧ s.rootDom d.val = d.val then
    let x := s.coordNow d.val
    .next (((s.updDom d.val fun m => { m with coord := x }).raiseHwm d.val x).flushAllGated.trackEdge d.val fun _ => s.ts)
  else .next s

/-- COAST_LOST_TIMEOUT (R64). -/
def execCoastLostTimeout (d : Fin 16) (s : State) : Host.Outcome State Fault Refusal := s.clocked fun s =>
  if (s.dom d.val).lock = .coast ∧ s.rootDom d.val = d.val ∧ (s.dom d.val).coastSince + 2 * msTs ≤ s.ts then
    .next (s.enterLost d.val)
  else .next s


/-- GPI_EDGE (R61, R248, R288). -/
def execGpiEdge (b : Fin 16) (level : Bool) (stamp : Nat) (s : State) : Host.Outcome State Fault Refusal :=
  if !s.ldAwake then .next { s with res := { s.res with gpi := setV s.res.gpi b.val level } }
  else if s.ts < stamp + s.rf rIoxGpiFilt 7 0 then .next s
  else if atV s.res.gpiQuiet b.val false then
    .next { s with res := { s.res with gpi := setV s.res.gpi b.val level, gpiQuiet := setV s.res.gpiQuiet b.val false } }
  else if atV s.res.gpi b.val false = level then .next s
  else
    let s := ({ s with res.gpi := setV s.res.gpi b.val level } : State).orReg rIoxGpiEdge (if level then 2 ^ b.val else 2 ^ (16 + b.val))
    let s := if level then (s.psDoms 2 fun d => s.dPsGpi d == b.val).foldl (fun s d => s.productStart d stamp) s else s
    .next (s.latchEdge fun x =>
      if level then { x with rLatch := setV x.rLatch b.val (some stamp) } else { x with fLatch := setV x.fLatch b.val (some stamp) })

/-- MARKER_COMMIT (R282). -/
def execMarkerCommit (n : Fin 8) (s : State) : Host.Outcome State Fault Refusal := s.clocked fun s => .next (s.mkPlan n.val)

/-- MARKER_SPAN_LOST_END (R282): the last moment of an active span after entry to LOST. -/
def execMarkerSpanLostEnd (n : Fin 8) (s : State) : Host.Outcome State Fault Refusal := s.clocked fun s =>
  match (s.mkr n.val).pulseEnd with
  | some e => .next (if e ≤ s.now16 ∧ (s.dom (s.mkDom n.val)).lock = .lost then s.mkFireOff n.val none else s)
  | none => .next s

end Sys2Proof.Machine
end

