-- ==== Sys2Proof/Machine/LaneCmd.lean ====
section
/-! DEFINITION. Commands of the ingress lanes and the conditioning slices (R93 to R113, R126, R129, R133). -/
namespace Sys2Proof.Machine

/-- LANE_BC_LOCK_DONE (R93): after 5 ms of IDLE. -/
def execLaneBcLockDone (n : Fin 32) (s : State) : Host.Outcome State Fault Refusal := s.clocked fun s =>
  let l := s.laneAt n.val
  .next (if l.phase = .bcLock ∧ l.since + 5 * msTs ≤ s.ts then s.lanePhase n.val .equalise else s)

/-- LANE_EQUALISE_DONE (R93): adapted within 20 ms, with the eye margins of IGL_Lnn_EQ (R113). -/
def execLaneEqualiseDone (n : LaneEye) (s : State) : Host.Outcome State Fault Refusal := s.clocked fun s =>
  let l := s.laneAt n.lane.val
  .next (if l.phase = .equalise ∧ s.ts ≤ l.since + 20 * msTs then
      (s.setReg (rIglLEq n.lane.val) (w32 n.eye.toNat)).lanePhase n.lane.val .blockLock
    else s)

/-- LANE_BLOCK_LOCK_DONE (R93): within 10 ms. -/
def execLaneBlockLockDone (n : LaneLock) (s : State) : Host.Outcome State Fault Refusal := s.clocked fun s =>
  let l := s.laneAt n.lane.val
  .next (if l.phase = .blockLock ∧ s.ts ≤ l.since + 10 * msTs then
      (s.updLane n.lane.val fun l => { l with descr := n.last.toNat }).lanePhase n.lane.val .capability
    else s)

/-- CAP_WORD_RECEIVE (R75, R94). -/
def execCapWordReceive (n : Fin 32) (w : KslWord) (s : State) : Host.Outcome State Fault Refusal := s.clocked fun s => .next (s.kslWord n.val w)

/-- TRAIN_MESSAGE_REPEAT (R93): 100 µs after the last TRAIN message. -/
def execTrainMessageRepeat (n : Fin 32) (s : State) : Host.Outcome State Fault Refusal := s.clocked fun s =>
  .next (if (s.laneAt n.val).lastTrain + 100 * usTs ≤ s.ts then s.sendTrain n.val else s)

/-- The limit of a training step, in TS units (R93). -/
def LanePhase.limit : LanePhase → Option Nat
  | .equalise => some (20 * msTs)
  | .blockLock => some (10 * msTs)
  | .capability => some (5 * msTs)
  | _ => none

/-- LANE_TRAIN_STEP_TIMEOUT (R94). -/
def execLaneTrainStepTimeout (n : Fin 32) (s : State) : Host.Outcome State Fault Refusal := s.clocked fun s =>
  match (s.laneAt n.val).phase.limit with
  | some t => .next (if (s.laneAt n.val).since + t < s.ts then s.laneAttemptFails n.val else s)
  | none => .next s

/-- LANE_SYNC_LOSS (R95): 16 invalid sync headers were seen among 64 words. -/
def execLaneSyncLoss (n : Fin 32) (s : State) : Host.Outcome State Fault Refusal := s.clocked fun s =>
  .next (if s.laneUp n.val ∧ (s.laneAt n.val).syncLoss then s.laneDown n.val 1 else s)

/-- LANE_IDLE_TIMEOUT (R95): 10 µs without an IDLE word. -/
def execLaneIdleTimeout (n : Fin 32) (s : State) : Host.Outcome State Fault Refusal := s.clocked fun s =>
  .next (if s.laneUp n.val ∧ (s.laneAt n.val).lastIdle + 10 * usTs ≤ s.ts then s.laneDown n.val 2 else s)

/-- What a write of 1 to RETRAIN does (R95). -/
def State.laneRetrain (s : State) (n : Nat) : State :=
  let l := s.laneAt n
  match l.phase with
  | .off => s
  | .up => s.laneDown n 0
  | .failed => s.laneAttempt n false 0
  | _ => (s.backChannel n 0x22 (leBytes 1 0)).laneAttempt n l.retraining 0

/-- KSL_IDLE_WORD (R77, R100). -/
def execKslIdleWord (n : Fin 32) (w : KslWord) (s : State) : Host.Outcome State Fault Refusal := s.clocked fun s => .next (s.kslWord n.val w)

/-- KSL_STRAY_WORD (R75, R76). -/
def execKslStrayWord (n : LaneWord) (s : State) : Host.Outcome State Fault Refusal := s.clocked fun s => .next (s.kslWord n.lane.val n.word)

/-- KSL_BLOCK_RECEIVE (R76, R79, R80): the words since the block before, the start word, the second word, the payload and the last word as
received, and the TS at the start word. -/
def execKslBlockReceive (n : Fin 32) (before : List KslWord) (w0 w1 : KslWord) (payload : List KslWord) (term : KslWord) (start : Nat)
    (s : State) : Host.Outcome State Fault Refusal := s.clocked fun s =>
  let s := before.foldl (fun s w => s.kslWord n.val w) s
  if !s.laneHears n.val then .next s
  else
  let (rs, l) := (s.laneAt n.val).takeWords (w0 :: w1 :: (payload ++ [term]))
  let s := (s.updLane n.val fun _ => l).addWrap (rIglLSyncErr n.val) (syncErrs rs)
  if !s.laneUp n.val then .next s
  else match kslBlockOf rs with
    | some (hdr, payload) =>
      .next (if s.kslHeaderOk n.val hdr then s.goodBlock n.val hdr payload start else s.addWrap (rIglLBlkBad n.val) 1)
    | none => .next (s.addWrap (rIglLBlkBad n.val) 1)

/-- KSL_RESEND_TIMEOUT (R100): SEQs still missing are requested again, after three requests declared lost. -/
def execKslResendTimeout (n : Fin 32) (s : State) : Host.Outcome State Fault Refusal := s.clocked fun s =>
  let wait := s.rf (rIglLSr n.val) 15 8 * usTs
  let due := (s.laneAt n.val).missing.filter fun m => decide (m.last + wait ≤ s.ts)
  if s.laneUp n.val then
    let s := s.request n.val ((due.filter fun m => decide (m.reqs < 3)).map (·.seq))
    .next ((due.filter fun m => decide (3 ≤ m.reqs)).foldl (fun s m => s.loseSeq n.val m.seq) s)
  else .next s

/-- KSL_ACK_TIMER (R99). -/
def execKslAckTimer (n : Fin 32) (s : State) : Host.Outcome State Fault Refusal := s.clocked fun s =>
  match (s.laneAt n.val).ackFirst with
  | some t => .next (if s.laneUp n.val ∧ t + s.rf (rIglLSr n.val) 23 16 * 80 ≤ s.ts then s.sendAck n.val else s)
  | none => .next s

/-- KSL_ACK_REPEAT (R99). -/
def execKslAckRepeat (n : Fin 32) (s : State) : Host.Outcome State Fault Refusal := s.clocked fun s =>
  .next (if s.laneUp n.val ∧ (s.laneAt n.val).lastAck + 10 * usTs ≤ s.ts then s.repeatAck n.val else s)

/-- LINE_TIMEOUT (R105): the oldest line of the head whose LINE_TO has passed; the lead lane's LINE_TO governs (DESIGN CHOICE, log 86). -/
def execLineTimeout (n : Fin 32) (s : State) : Host.Outcome State Fault Refusal := s.clocked fun s =>
  let g := s.headGen n.val
  if s.genLead g ≠ n.val then .next s
  else match s.oldest g fun r => !r.done && s.lineDue n.val r with
    | some i => .next ((s.deliver g i none).raise evIglLineTimeout n.val n.val 0)
    | none => .next s

/-- Place of the line a CoaXPress stream packet belongs to (R112): for the first packet of a line the oldest trigger of the record not
matched whose LINE_TO, that of the lead lane, has not passed, be it declared incomplete or not; for every other one the line begun last,
whatever became of it (DESIGN CHOICE, log 103). A line of a free-running head whose generator fires is matched to its triggers
(DESIGN CHOICE, log 121). -/
def State.cxpLine (s : State) (n : Nat) (first : Bool) : Option Nat :=
  let g := s.headGen n
  if first then
    ((List.range (s.record g).length).reverse).find? fun i => match (s.record g)[i]? with
      | some r => decide (i < 64) && r.wire.isNone && !s.lineDue (s.genLead g) r
      | none => false
  else if (s.laneAt (s.genLead g)).cxpSkip then none
  else (s.record g).findIdx? fun r => r.wire.isSome

/-- A CoaXPress stream packet (R110, R112). A line that matches no record counts ORPHAN at its first packet; each packet of an unsupported
stream raises IGL_CFG_MISMATCH (DESIGN CHOICE, log 103). LINE of a free-running head's line is a free value (log 1), and its FREE_LAT is rounded down to
TS units (DESIGN CHOICE, log 86). -/
def State.cxpStream (s : State) (n plane ofs : Nat) (first last : Bool) (pix : List Nat) (crcOk supported : Bool) : State :=
  let g := s.headGen n
  let s := if supported then s else (s.orReg (rIglLEvt n) 64).raise evIglCfgMismatch n n 0
  let s := if s.lFree n ∧ first then
      (s.setRecord g (pushRec { line := s.freeNat 32, x := s.coordAt (s.headDom n) ((s.ts : Int) - (nsTs (s.rf (rIglLLto n) 15 0) : Int)),
                                phase := 0, coast := false, creep := false, free := true, fire := s.now16, wire := none,
                                stampErr := false, bad := false, seen := [], done := false, blks := [] } (s.record g))).tick 1
    else s
  let place := s.cxpLine n first
  let s := s.when first fun s => s.updLane (s.genLead g) fun l => { l with cxpSkip := place.isNone }
  match place with
  | none => s.when first fun s => s.orphan n
  | some i =>
    let open_ := ((s.record g)[i]?.map fun r => !r.done).getD false
    let s := s.updRec g i fun r => { r with wire := some r.line }
    if !crcOk ∨ !supported then s.deliver g i none
    else if !open_ then s.orphan n
    else
      let b : LineBlk := { idx := s.lIdx n, plane := plane, ofs := ofs, first := first, last := last, pix := pix }
      let s := s.updRec g i fun r => { r with blks := r.blks ++ [b] }
      match (s.record g)[i]? with
      | none => s
      | some r =>
        let ps := (List.range (s.headPlanes n)).mapM fun p =>
          chain (r.blks.filter fun c => c.plane == p) (s.headPixels n) r.blks.length 0
        match ps with
        | some v => s.deliver g i (some v)
        | none => s

/-- CXP_PACKET_RECEIVE (R110 to R112). Packets are taken whatever the lane's training state (DESIGN CHOICE, log 86). -/
def execCxpPacketReceive (n : Fin 32) (p : CxpPacket) (s : State) : Host.Outcome State Fault Refusal := s.clocked fun s =>
  if s.lPers n.val ≠ 2 ∨ s.laneDisabled n.val then .next s
  else match p with
    | .stream plane ofs first last pix crcOk sup => .next (s.cxpStream n.val plane ofs first last pix crcOk sup)
    | .control b => .next (s.mgReceive n.val b)
    | .trigger => .next (s.orReg (rIglLEvt n.val) 128)

/-- What a write of SEND does (R113): TX_LEN bytes as MGMT, or as a CoaXPress control packet. A lane that trains sends too; a CoaXPress
packet leaves at once; on a lane that is OFF or FAILED SEND does nothing and MG_TX keeps its bytes (DESIGN CHOICE, log 50). Bytes never
written are free (log 1); bytes written beyond TX_LEN are discarded (DESIGN CHOICE, log 121). -/
def State.mgSend (s : State) (n : Nat) : State :=
  let l := s.laneAt n
  let on := decide (l.phase ≠ .off) && decide (l.phase ≠ .failed)
  if s.txBusy n ∨ !on then s
  else
    let k := s.rf (rIglLMgCtrl n) 6 0
    let p := (l.mgTx ++ s.freeBytes (k - l.mgTx.length)).take k
    let s := s.tick (k - l.mgTx.length)
    let s := if s.lPers n = 1 then s.backChannel n 0x30 p else s.send (.mgmt n p)
    s.updLane n fun l => { l with mgTx := [] }

/-- What a write of MG_TX does: 4 bytes more, at most 64 in all, unless the lane is sending. -/
def State.mgTxWrite (s : State) (n : Nat) (w : Word) : State :=
  if s.txBusy n then s else s.updLane n fun l => { l with mgTx := (l.mgTx ++ leBytes 4 w.toNat).take 64 }

/-- What a read of MG_RX gives: the next 4 bytes of the message; beyond it a free value (log 1). -/
def State.mgRxRead (s : State) (n : Nat) : Word × State :=
  let l := s.laneAt n
  if l.rxReady ∧ l.mgPos < l.mgRx.length then
    (w32 (leNat (bslice l.mgRx l.mgPos 4)), s.updLane n fun l => { l with mgPos := l.mgPos + 4 })
  else (w32 (s.freeNat 32), s.tick 1)

/-- What a write of RX_DONE does. -/
def State.mgRxDone (s : State) (n : Nat) : State := s.updLane n fun l => { l with mgRx := [], mgPos := 0, rxReady := false }

/-- SLICE_SLOT_WRITE (R133, R134): the oldest line of lead slice `n` that is ready. -/
def execSliceSlotWrite (n : Fin 32) (s : State) : Host.Outcome State Fault Refusal := s.clocked fun s =>
  match writable (s.sliceAt n.val).lines [] with
  | some l => .next (s.writeLine n.val l)
  | none => .next s

/-- EDGE_STRIP_RECEIVE (R126, R309). -/
def execEdgeStripReceive (s : State) : Host.Outcome State Fault Refusal := s.clocked fun s =>
  match s.takeMsg fun m => m.mtype == 0x08 with
  | some (m, s) =>
    let b := m.payload
    let n := fieldAt b 14 2
    .next (s.stripArrive (fieldAt b 9 1) { m := signed 64 (fieldAt b 0 8), q := fieldAt b 8 1, flags := fieldAt b 12 2,
                                           pix := (List.range n).map fun i => fieldAt b (32 + 2 * i) 2 })
  | none => .next s

/-- EDGE_STRIP_TIMEOUT (R126): the oldest line of slice `n` that has waited EDGE_TO. -/
def execEdgeStripTimeout (n : Fin 32) (s : State) : Host.Outcome State Fault Refusal := s.clocked fun s =>
  match (s.sliceAt n.val).lines.find? fun l => l.waits && decide (l.formed + s.edgeTo n.val ≤ s.ts) with
  | some l =>
    let (s, l') := s.stitchMiss n.val l
    .next (s.updSlice n.val fun c => { c with lines := c.lines.map fun e => if e.m = l.m ∧ e.q = l.q then l' else e })
  | none => .next s

end Sys2Proof.Machine
end

