-- ==== Sys2Proof/Machine/FrameCmd.lean ====
section
/-! DEFINITION. Meanings of the frame commands: dispatch, slips, staging, steps, switches, TWIN mirroring (R183 to R218, R475). -/
namespace Sys2Proof.Machine

/-- FRAME_DISPATCH (R186): the oldest due frame is dispatched when it is ready; frames past their allowance slip first, and what takes
effect at its boundary waits for its own command (R30). -/
def execFrameDispatch (s : State) : Host.Outcome State Fault Refusal := .next s.slips.fixSwitches.dispatchNext

/-- FRAME_SLIP (R198 to R200): frames not dispatched within SA slip. -/
def execFrameSlip (s : State) : Host.Outcome State Fault Refusal := .next s.slips

/-- STREAM_LINE_STAGE (R192, R194). -/
def execStreamLineStage (h : Fin 32) (q : Fin 4) (j : Fin 128) (s : State) : Host.Outcome State Fault Refusal :=
  .next (s.stage h q j false)

/-- ACLK_STEP_APPLY (R197): a requested step takes effect in the dispatch gap. -/
def execAclkStepApply (s : State) : Host.Outcome State Fault Refusal := s.clocked fun s =>
  match s.frm.stepReq with
  | some n => if s.frm.running.isSome then .next s else .next (s.applyStep n)
  | none => .next s

/-- RECIPE_SWITCH_EFFECT (R206 to R210): the switches of the boundary reached take effect. -/
def execRecipeSwitchEffect (s : State) : Host.Outcome State Fault Refusal := s.clocked fun s =>
  let s := s.fixSwitches
  match s.switchesDue with
  | [] => .next s
  | ws => if s.live then .next (s.switchEffect ws) else .next s

/-- RELOAD_SWITCH_DONE (R208, R450): the new schedule set stands in the tiles. -/
def execReloadSwitchDone (s : State) : Host.Outcome State Fault Refusal := s.clocked fun s =>
  match s.frm.reload with
  | some _ =>
    if !s.sysCopyUp then .next s
    else
      let s := s.slips
      match s.frm.reload with
      | some r => .next (s.reloadDone r)
      | none => .next s
  | none => .next s

/-- TABLE_BANK_LOAD_DONE (R129, R450): from a copy of the table set that can be read. -/
def execTableBankLoadDone (n : Fin 32) (s : State) : Host.Outcome State Fault Refusal := s.clocked fun s =>
  .next (if s.sysCopyUp then s.updSlice n.val Slice.loadDone else s)

/-- FALLBACK_RECIPE_SELECT (R475): at the frame boundary after the loss of a GDDR7 port. -/
def execFallbackRecipeSelect (s : State) : Host.Outcome State Fault Refusal := s.clocked fun s =>
  if !s.frm.fallbackReq ∨ !s.live ∨ s.frm.running.isSome then .next s
  else
    let s := { s with frm.fallbackReq := false }
    match s.frm.recipe with
    | none => .next s
    | some r =>
      match s.fallbackOf 63 r with
      | some x =>
        .next (s.acceptSwitch 0 x (s.rcpMode x) false (s.rcpFdom r) (s.dom (s.rcpFdom r)).hwm)
      | none => .next s

/-- A slot joins the secondary's line store, and its place among the slots written. -/
def State.mirrorStore (s : State) (h q : Nat) (m : Int) (flags : Nat) (header pixels : List Byte) : State :=
  let s := (s.storeSlot h q m header pixels).headEach h fun k s => s.addWrap (rLcuSLines k) 1
  let keep := fun (e : SlotInfo) => !(e.head == h && e.q == q && (decide (e.m + (s.ringLines h : Int) ≤ m) || decide (e.m = m)))
  { s with frm.slots := { head := h, q := q, m := m, flags := flags } :: s.frm.slots.filter keep }

/-- Slots that the slot of line `m` shows to be lost are filled with REASON 1 (R216): the slots of one port come in order, so those of its
parity before it; of either parity while one mirror port alone is up (log 95). -/
def State.mirrorFill (s : State) (h q : Nat) (m : Int) : State :=
  match (s.planeAt h q).wLast with
  | none => s
  | some z =>
    let two := s.mirrorPorts.all fun p => s.portUp p
    s.each (m - z - 1).toNat fun i s =>
      let k := z + 1 + (i : Int)
      if (two && decide ((m - k) % 2 ≠ 0)) || s.frm.slots.any (fun e => e.head == h && e.q == q && decide (e.m = k)) then s
      else
        let l := s.filledLine h q k 1 0 (s.freeNat 32)
        ((s.tick 1).noteFill h 1).mirrorStore h q k l.flags (s.slotHeader h l) (s.slotPixels h l)

/-- The last line up to which every slot of a plane has come. -/
def State.mirrorLast (s : State) (h q : Nat) : Nat → Int → Int
  | 0, z => z
  | k + 1, z => if s.frm.slots.any (fun e => e.head == h && e.q == q && decide (e.m = z + 1)) then s.mirrorLast h q k (z + 1) else z

/-- A mirrored slot joins the secondary's line store (R216). -/
def State.mirrorTake (s : State) (h q : Nat) (m : Int) (flags : Nat) (bytes : List Byte) : State :=
  let n := slotBytes (s.outPixels h) - 64
  let s := (s.mirrorFill h q m).mirrorStore h q m flags (bytes.take 64) (fitBytes n (bytes.drop 64))
  let good := (List.range (s.outPixels h)).map fun i => fieldAt bytes (64 + 2 * i) 2
  let s := s.when (!bitN flags 0) fun s => s.updPlane h q fun g => { g with lastGood := some good }
  let z := (s.planeAt h q).wLast.getD (m - 1)
  let s := s.updPlane h q fun g => { g with wFirst := some (g.wFirst.getD m), wLast := some (s.mirrorLast h q s.frm.slots.length z) }
  s.framesBegin (s.headDom h) m

/-- MIRROR_SLOT_RECEIVE (R216, R218, R310): header last, at the same position as on the primary; discarded outside TWIN. -/
def execMirrorSlotReceive (s : State) : Host.Outcome State Fault Refusal := s.clocked fun s =>
  match s.takeMsg fun m => m.mtype == 0x09 with
  | none => .next s
  | some (msg, s) =>
    let b := msg.payload
    let m := signed 64 (fieldAt b 8 8)
    let q := fieldAt b 30 1
    let h := fieldAt b 31 1
    if !s.mirrorAccepts b then .next s
    else if s.frm.twinLost ∧ s.peerGone then .next (s.mirrorStore h q m (fieldAt b 28 2) (b.take 64) (fitBytes (slotBytes (s.outPixels h) - 64) (b.drop 64)))
    else if s.frm.twinLost then
      -- R218: frames begin again with the slots received since a port came up
      let s := s.each 32 fun n s => s.each 4 fun k s => s.updPlane n k fun g => { g with wFirst := none, wLast := none }
      let s := ({ s with frm.twinLost := false } : State).framesClear
      .next (s.mirrorTake h q m (fieldAt b 28 2) b)
    else .next (s.mirrorTake h q m (fieldAt b 28 2) b)

/-- TWIN_PEER_LOSS (R218): the secondary stops dispatching and drops what it staged, each frame with its FRAME entry (R534),
whose cause is free, as R203 names none for it (log 117); the primary goes on unchecked. -/
def execTwinPeerLoss (s : State) : Host.Outcome State Fault Refusal := s.clocked fun s =>
  if !s.live ∨ s.frm.mode ≠ 2 ∨ s.twinRole = 0 ∨ s.frm.twinLost ∨ !s.peerGone then .next s
  else
    let s := { s with frm.twinLost := true }
    if s.twinRole = 2 then
      let s := s.frm.due.foldl (fun s e => (s.peatFrame (s.freeNat 8) (s.rcpFdom e.recipe) 0xFF e.f 1).tick 1) s
      let s := ({ s.unstage with frm.due := [] } : State).refreshNext
      .next ((s.orReg rPsqFrmEvt 64).raise evTwinPeerLost 0 s.twinRole 0)
    else .next (s.raise evTwinPeerLost 0 s.twinRole 0)

end Sys2Proof.Machine
end

