-- ==== Sys2Proof/Machine/PcieCfg.lean ====
section
/-! DEFINITION. The configuration space of the PCIe endpoint (R543, R544, R546, R547): type 0 header with its BARs, the capabilities of
R543, and the errors of posted writes under AER (R556). The layout is that of the PCIe base specification; where each capability lies is the
model's own (PRESUMED, log 124). -/
namespace Sys2Proof.Machine

/-- A word of the configuration space: its value at reset, the bits that the host writes, the bits that a written 1 clears, and bits that the
spec leaves open. -/
structure CfgRow where
  off : Nat
  init : Nat
  rw : Nat := 0
  w1c : Nat := 0
  free : Nat := 0
  deriving DecidableEq, Repr

/-- The header (R543, R544, R547): command and status, and three 64-bit non-prefetchable memory BARs of 32, 32 and 512 MiB. There is no
INTx and no expansion ROM. Bus mastering, and the fields that name the device, are not kept here. -/
def cfgHeader : List CfgRow := [
  { off := 0x04, init := 0x00100000, rw := 0x542, w1c := 0xF9000000 },
  { off := 0x0C, init := 0, rw := 0xFF },
  { off := 0x10, init := 4, rw := 0xFE000000 }, { off := 0x14, init := 0, rw := 0xFFFFFFFF },
  { off := 0x18, init := 4, rw := 0xFE000000 }, { off := 0x1C, init := 0, rw := 0xFFFFFFFF },
  { off := 0x20, init := 4, rw := 0xE0000000 }, { off := 0x24, init := 0, rw := 0xFFFFFFFF },
  { off := 0x34, init := 0x40 },
  { off := 0x3C, init := 0, rw := 0xFF }]

/-- Power management (D0 and D3hot), MSI-X (64 vectors, table and pending bits in BAR4), and PCI Express (payload up to 512 bytes, FLR, 32 GT/s
and 8 lanes, 10-bit tags as requester, 32-bit and 64-bit AtomicOps as completer) of R543. -/
def cfgCaps : List CfgRow := [
  { off := 0x40, init := 0x00034801 }, { off := 0x44, init := 8 },
  { off := 0x48, init := 0x003F5811 }, { off := 0x4C, init := 0x2004 }, { off := 0x50, init := 0x3004 },
  { off := 0x58, init := 0x00020010 }, { off := 0x5C, init := 0x10008022, free := 0xFC0 },
  { off := 0x60, init := 0x2810, rw := 0x79FF, w1c := 0xF0000 },
  { off := 0x64, init := 0x85, free := 0x3FC00 }, { off := 0x68, init := 0, rw := 0xCB },
  { off := 0x7C, init := 0x30180, free := 0x1F }, { off := 0x80, init := 0, rw := 0x101F },
  { off := 0x84, init := 0x3E }, { off := 0x88, init := 5, rw := 0xF }]

/-- Advanced error reporting, ECRC checking and generation among it, and the device serial number (R543). -/
def cfgExt : List CfgRow := [
  { off := 0x100, init := 0x14820001 },
  { off := 0x104, init := 0, w1c := 0x1FF010 }, { off := 0x108, init := 0, rw := 0x1FF010 }, { off := 0x10C, init := 0x62010, rw := 0x1FF010 },
  { off := 0x110, init := 0, w1c := 0x31C1 }, { off := 0x114, init := 0x2000, rw := 0x31C1 },
  { off := 0x118, init := 0xA0, rw := 0x140 },
  { off := 0x11C, init := 0 }, { off := 0x120, init := 0 }, { off := 0x124, init := 0 }, { off := 0x128, init := 0 },
  { off := 0x148, init := 0x00010003 }]

/-- The row of a word; a word of none reads 0 and ignores writes, so that every capability not named by R543 is absent. -/
def cfgRow (off : Nat) : CfgRow := ((cfgHeader ++ cfgCaps ++ cfgExt).find? fun r => r.off == off).getD { off := off, init := 0 }

/-- What a word of the configuration space holds before the host has written it. -/
def cfgInit (off : Nat) : Word := w32 (cfgRow off).init

/-- A word as kept: what the host and the device have written of it. -/
def State.cfgKept (s : State) (off : Nat) : Nat := (smGet cfgInit s.pcie.cfg off).toNat

/-- Keep a word. -/
def State.cfgKeep (s : State) (off n : Nat) : State := { s with pcie.cfg := smPut cfgInit s.pcie.cfg off (w32 n) }

/-- A word as it reads (R543, R544, R547). The vendor identifier is free. -/
def State.cfgWord (s : State) (off : Nat) : Word :=
  let p := s.pcie
  let ids := Config.vendorId.toNat
  let live : Nat :=
    if off = 0 then fldsOr [(31, 16, if s.otp.grade = 1 then 0x0632 else 0x0648), (15, 0, ids)]
    else if off = 0x04 then fld 2 2 (b2n p.bme)
    else if off = 0x08 then 0x118000 * 256 + s.rf rSysRev 7 0
    else if off = 0x2C then fldsOr [(31, 16, s.otp.subsysId), (15, 0, ids)]
    else if off = 0x44 then 3 * b2n p.d3hot
    else if off = 0x48 then fldsOr [(31, 31, b2n p.msixEn), (30, 30, b2n p.fnMask)]
    else if off = 0x68 then fldsOr [(25, 20, p.width), (19, 16, p.speed)]
    else if off = 0x14C then s.otp.serial % 2 ^ 32
    else if off = 0x150 then s.otp.serial / 2 ^ 32
    else 0
  w32 (s.cfgKept off ||| live ||| ((Config.cfgSpace (BitVec.ofNat 12 off)).toNat &&& (cfgRow off).free))

/-- A word is written by the host. -/
def State.cfgPut (s : State) (off : Nat) (w : Word) : State :=
  let r := cfgRow off
  let old := s.cfgKept off
  let n := w.toNat
  let s := s.cfgKeep off ((old - (old &&& (r.rw ||| (n &&& r.w1c)))) ||| (n &&& r.rw))
  if off = 0x04 then { s with pcie.bme := bitN n 2 }
  else if off = 0x44 then { s with pcie.d3hot := if bitsN n 1 0 = 3 then true else if bitsN n 1 0 = 0 then false else s.pcie.d3hot }
  else if off = 0x48 then { s with pcie.msixEn := bitN n 31, pcie.fnMask := bitN n 30 }
  else s

/-- A posted write met Unsupported Request (bit 20) or Completer Abort (bit 15): logged under AER and, unless masked, signalled by an error
message of its severity when the host has asked for such messages (R556). The header logged is free. -/
def State.aerLog (s : State) (bit : Nat) : State :=
  let cause := 2 ^ bit
  let masked := bitN (s.cfgKept 0x108) bit
  let fatal := bitN (s.cfgKept 0x10C) bit
  let first := s.cfgKept 0x104 &&& 0x1FF010 == 0
  let ctl := s.cfgKept 0x60
  let asked := bitN (s.cfgKept 0x04) 8 || (bitN ctl (if fatal then 2 else 1) && (bit != 20 || bitN ctl 3))
  let s := (s.cfgKeep 0x104 (s.cfgKept 0x104 ||| cause)).cfgKeep 0x60
    (ctl ||| (if bit = 20 then 2 ^ 19 else 0) ||| (if fatal then 2 ^ 18 else 2 ^ 17))
  if masked then s
  else
    let s := s.when first fun s =>
      let s := s.cfgKeep 0x118 ((s.cfgKept 0x118 / 32 * 32) ||| bit)
      ((((s.cfgKeep 0x11C (s.freeNat 32)).cfgKeep 0x120 ((s.tick 1).freeNat 32)).cfgKeep 0x124 ((s.tick 2).freeNat 32)).cfgKeep 0x128
        ((s.tick 3).freeNat 32)).tick 4
    s.when asked fun s => s.send (.errMsg fatal)

end Sys2Proof.Machine
end

