-- ==== Sys2Proof/Machine/Windows.lean ====
section
/-! DEFINITION. The windows of the bus matrix onto GDDR7 and the host (R418, R428), GDDR7 accesses through them (R447, R451), and host
memory as the device's writes reach it (R546, R560). -/
namespace Sys2Proof.Machine

/-- Window `w`: its registers. -/
def State.winEn (s : State) (w : Nat) : Bool := s.rbit (rMtxWinCtrl w) 31
def State.winTgt (s : State) (w : Nat) : Nat := s.rf (rMtxWinCtrl w) 27 24
def State.winPort (s : State) (w : Nat) : Nat := s.rf (rMtxWinCtrl w) 23 21
def State.winSize (s : State) (w : Nat) : Nat := 2 ^ s.rf (rMtxWinCtrl w) 20 16
def State.winBase (s : State) (w : Nat) : Nat := s.rf (rMtxWinBase w) 31 16 * 65536

/-- The lowest enabled window that holds address `a`. -/
def State.winOf (s : State) (a : Nat) : Option Nat :=
  (List.range 8).find? fun w => s.winEn w && decide (0x80000000 ≤ a) && decide (s.winBase w ≤ a) && decide (a < s.winBase w + s.winSize w)

/-- Target of address `a` for master `m`: 0 GDDR7 or 1 host, the port, and the address at the target; `none`: decode error. -/
def State.winMap (s : State) (m a : Nat) : Option (Nat × Nat × Nat) :=
  match s.winOf a with
  | some w =>
    if bitN (s.rf (rMtxWinCtrl w) 6 0) m ∧ s.winTgt w ≤ 1 then
      some (s.winTgt w, s.winPort w, s.reg64 (rMtxWinTaddrLo w) + (a - s.winBase w))
    else none
  | none => none

/-- Capacity of a GDDR7 port in bytes, and whether an address lies in its system area (R439, R450). -/
def State.gdcBytes (s : State) (p : Nat) : Nat := s.gdcCap p * 2 ^ 20
def State.inSysArea (s : State) (p a : Nat) : Bool := decide (p < 2) && decide (s.gdcBytes p - 0x10000000 ≤ a)

/-- A write to a GDDR7 port through a window; `none`: slave error (R447, R448, R451). -/
def State.gddrWrite (s : State) (p a : Nat) (data : List Byte) : Option State :=
  if (s.gdcAt p).st ≠ 2 ∨ s.gdcBytes p < a + data.length ∨ s.inSysArea p (a + data.length - 1) then none
  else some { s with gddr := memPutBytes ramDefault s.gddr (gddrKey p a) data }

/-- A read from a GDDR7 port through a window; `none`: slave error. -/
def State.gddrRead (s : State) (p a k : Nat) : Option (List Byte) :=
  if (s.gdcAt p).st ≠ 2 ∨ s.gdcBytes p < a + k then none else some (memGetBytes ramDefault s.gddr (gddrKey p a) k)

/-- The endpoint may master the bus (R546). -/
def State.busMaster (s : State) : Bool := s.pcie.linkUp && s.pcie.bme && !s.pcie.d3hot

/-- A region of the address map (R417), with the address inside it. -/
inductive Region where
  | spm (a : Nat)
  | mbx (a : Nat)
  | gddr (p a : Nat)
  | regs (v : View) (o : Nat)
  | host (a : Nat)
  | lagg (o : Nat)
  | tile (t a : Nat)
  deriving DecidableEq, Repr

/-- Number of a region's target. -/
def Region.target : Region → Nat
  | .spm _ => 0 | .mbx _ => 1 | .gddr _ _ => 2 | .regs _ _ => 3 | .host _ => 4 | .lagg _ => 5 | .tile _ _ => 6

/-- Targets a master reaches (R418), the core's direct ones included. -/
def reaches (m t : Nat) : Bool :=
  (match m with
    | 0 => [0, 2]
    | 1 => [0, 1, 2, 3, 4, 5, 6]
    | 2 => [0, 1, 2, 3, 4, 6]
    | 3 | 4 => [0, 1, 2, 3, 6]
    | 5 => [3]
    | _ => [2, 4]).contains t

/-- The region of an address for master `m`; `none` where no region holds it. A window names the master in its mask (R428). -/
def State.regionOf (s : State) (m a : Nat) : Option Region :=
  if a < 0x200000 then some (.spm a)
  else if a < 0x201000 then some (.mbx (a - 0x200000))
  else if 0x30000000 ≤ a ∧ a < 0x30010000 then some (.lagg (a - 0x30000000))
  else if 0x40000000 ≤ a ∧ a < 0x42000000 then some (.regs .p (a - 0x40000000))
  else if 0x50000000 ≤ a ∧ a < 0x52000000 then some (.regs .u (a - 0x50000000))
  else if 0x60000000 ≤ a ∧ a < 0x68800000 then some (.tile ((a - 0x60000000) / 0x80000) ((a - 0x60000000) % 0x80000))
  else match s.winMap m a with
    | some (0, p, t) => some (.gddr p t)
    | some (_, _, t) => some (.host t)
    | none => none

/-- The secure window of the scratchpad (R417, R422). -/
def inSecure (a : Nat) : Bool := decide (0x1C0000 ≤ a) && decide (a < 0x200000)

/-- The wipe of the secure window is carried out (R422): 0 with good check bits, the test's shadow cleared when it holds a line of it. The
buffered core stores to it were discarded with the order. -/
def State.wipeDone (s : State) : State :=
  if !s.mtx.wiping then s
  else
    let sh := s.mtx.shadow.map fun x => if 0x1C0000 / 64 ≤ x.1 then (x.1, List.replicate 64 0) else x
    let s := { s with mtx := { s.mtx with spm := smClearRange s.mtx.spm 0x1C0000 0x200000, wiping := false, shadow := sh,
                                          spmBad := s.mtx.spmBad.filter fun b => !inSecure b.1 } }
    s.addSat rMtxSpmWipe 15 0 1

/-- The borrowed line goes back from its shadow (R423, R424). -/
def State.lineBack (s : State) : State :=
  match s.mtx.shadow with
  | some (l, d) => { s with mtx := { s.mtx with spm := memPutBytes ramDefault s.mtx.spm (64 * l) d, shadow := none } }
  | none => s

/-- Before an access to bytes `a` to `a + k - 1`: a wipe ends first, and a step that borrowed the line is abandoned (R422, R424). -/
def State.spmReady (s : State) (a k : Nat) : State :=
  let s := s.wipeDone
  match s.mtx.shadow with
  | some (l, _) => if a < 64 * l + 64 ∧ 64 * l < a + k then s.lineBack else s
  | none => s

/-- The loader writes bytes of the scratchpad (R466, R478): a wipe ends first, a borrowed line goes back, words written whole have good check
bits. -/
def State.spmLoad (s : State) (a : Nat) (d : List Byte) : State :=
  let s := s.spmReady a d.length
  let keep := fun (b : Nat × Nat) => !(decide (a ≤ b.1) && decide (b.1 + 4 ≤ a + d.length))
  { s with mtx := { s.mtx with spm := memPutBytes ramDefault s.mtx.spm a d, spmBad := s.mtx.spmBad.filter keep } }

/-- Every byte of the scratchpad is cleared (R466, R469). -/
def State.spmClear (s : State) : State :=
  let s := s.wipeDone
  { s with mtx := { s.mtx with spm := [], spmBad := [], shadow := none } }

/-- Bytes of the next burst of a channel: at most 512, to the end of the copy, up to a 4 KiB boundary at either end (R433). -/
def DmaCh.burst (d : DmaCh) : Nat :=
  min (min d.left 512) (min (4096 - d.src % 4096) (4096 - d.dst % 4096))

/-- The next burst of a channel at work touches address `a`. -/
def DmaCh.touches (d : DmaCh) (write : Bool) (a : Nat) : Bool :=
  let b := if write then d.dst else d.src
  d.busy && decide (b ≤ a) && decide (a < b + d.burst)

/-- The DMA channel whose open transaction touches address `a`, the one of the last burst first, then by turn (R433). -/
def State.dmaOf (s : State) (write : Bool) (a : Nat) : Nat :=
  (((List.range 4).map fun i => (s.mtx.dmaLast + i) % 4).find? fun c => (s.dmaAt c).touches write a).getD s.mtx.dmaLast

/-- The ID of a transaction (R427): one of the four of the DMA channel that it is of, for any other master a free value (log 1). -/
def State.mtxId (s : State) (master : Nat) (write : Bool) (a : Nat) : Nat :=
  if master = 2 then 4 * s.dmaOf write a + s.freeNat 2 else s.freeNat 4

/-- An error on the matrix (R429): kind 1 decode, 2 slave, 3 timeout, 4 lock break; the first one is recorded. -/
def State.mtxError (s : State) (kind master target : Nat) (write : Bool) (addr : Nat) : State :=
  let s := if s.rbit rMtxErrInfo 31 then s
    else ((s.tick 1).setReg rMtxErrInfo (w32 (fldsOr [(31, 31, 1), (30, 28, kind), (26, 24, master), (22, 20, target),
      (19, 16, s.mtxId master write addr), (0, 0, b2n write)]))).setReg rMtxErrAddr (w32 addr)
  let s := s.orReg rMtxEvt ([0, 4, 1, 8, 16].getD kind 0)
  match kind with
  | 1 => s.raise evMtxDecerr 0 master addr
  | 3 => s.raise evMtxTimeout 0 master addr
  | 4 => s.raise evMtxLockBreak 0 master addr
  | _ => s

/-- A decode error (R429). For an address in no region the target recorded is free. -/
def State.decodeError (s : State) (m : Nat) (write : Bool) (a : Nat) : State :=
  match s.regionOf m a with
  | some r => s.mtxError 1 m r.target write a
  | none => (s.tick 1).mtxError 1 m (s.freeNat 3) write a

/-- The answer of an access, and its data when it is a read: the model's own record. -/
def State.answer (s : State) (code : String) (w : Word) : State := { s with rdData := w, rdResp := code }

/-- An inbound request is answered with Unsupported Request or Completer Abort; for a posted write that is logged under AER (R556). -/
def State.inbUr (s : State) (posted : Bool) : State :=
  (((s.addSat rPcieInbErr 31 16 1).orReg rPcieEvt 4).when posted fun s => s.aerLog 20).answer "UR" 0
def State.inbCa (s : State) (posted : Bool) : State :=
  (((s.addSat rPcieInbErr 15 0 1).orReg rPcieEvt 4).when posted fun s => s.aerLog 15).answer "CA" 0

/-- Memory requests of the host are served: not without a link, and not while the responses of a reset of M3 are owed (R432). -/
def State.hostReach (s : State) : Bool := s.pcie.linkUp && !s.owes 3

/-- The master that a requester is on the matrix (R418). -/
def masterOf : Requester → Nat
  | .core => 1
  | .dma => 2
  | .host => 3
  | .bridge => 4
  | .fabric _ => 5
/-- A request does not reach the peripheral bridge: the host's without a link, and any while responses are owed to its master (R432). -/
def State.busHeld (s : State) (who : Requester) : Bool := (who == .host && !s.pcie.linkUp) || s.owes (masterOf who)

/-- The bus address of byte `a` of tile `t` in tile space (R417). -/
def tileSpaceBase (t a : Nat) : Nat := 0x60000000 + t * 0x80000 + a

/-- A response owed to `k` comes and is dropped (R432, R449). -/
def State.owedDrop (s : State) (k : Nat) : State :=
  { s with mtx.owed := s.mtx.owed.map fun o => if o.1 = k then (o.1, o.2.1 - 1, o.2.2) else o }

/-- Who a response that comes for master `m` at address `a` is owed to: of the DMA, the first channel that was aborted, unless a channel at
work touches that address. -/
def State.owedTo (s : State) (m : Nat) (write : Bool) (a : Nat) : Option Nat :=
  if m ≠ 2 then (if s.owes m then some m else none)
  else if (List.range 4).any (fun c => (s.dmaAt c).touches write a) then none
  else ((List.range 4).map (7 + ·)).find? s.owes

/-- The answer of a transaction that the matrix ended itself: CA to the host (R556), a slave error to the others. The next access of a core
port or a DMA channel to that word is the one ended (DEDUCED, log 26). A posted write of the core to the host has long retired, and its
failure never reaches the core (R388). -/
def State.endedBy (s : State) (m target : Nat) (write : Bool) (a : Nat) : State :=
  if m = 3 then s.inbCa write
  else if m ≤ 1 ∧ target = 4 ∧ write then { s with rdResp := "SLVERR" }
  else if m ≤ 2 then { s with mtx.late := (m, a / 4 * 4) :: s.mtx.late.filter fun x => x != (m, a / 4 * 4), rdResp := "SLVERR" }
  else { s with rdResp := "SLVERR" }

/-- A burst of the results engine through a window as master M6 (R276, R417, R418, R428, R429, R451). -/
def State.winPut (s : State) (a : Nat) (data : List Byte) : State :=
  match s.winMap 6 a with
  | some (0, p, t) => match s.gddrWrite p t data with
    | some s => s
    | none => s.mtxError 2 6 2 true a
  | some (_, _, t) => if s.busMaster then s.send (.hostWrite t data) else s.mtxError 2 6 4 true a
  | none => s.decodeError 6 true a

/-- Data in bursts that do not cross a 4 KiB boundary (R429), in ascending order. -/
def burstsOf (a : Nat) : Nat → List Byte → List (Nat × List Byte)
  | 0, _ => []
  | n + 1, d =>
    let k := 4096 - a % 4096
    if d.length ≤ k then [(a, d)] else (a, d.take k) :: burstsOf (a + k) n (d.drop k)

/-- A write of the results engine: to host memory, or through the windows as master M6 (R276, R418). -/
def State.resWrite (s : State) (dest : Bool) (a : Nat) (data : List Byte) : State :=
  if dest then
    (burstsOf a (data.length / 4096 + 2) data).foldl (fun s x => s.winPut x.1 x.2) (s.send (.winWrite a data))
  else s.send (.hostWrite a data)

end Sys2Proof.Machine
end

