-- ==== Sys2Proof/Machine/ResOps.lean ====
section
/-! DEFINITION. The results engine: records, rings, clips, holds, comparisons of pairs and twins (R202, R203, R213, R217, R264 to R280). -/
namespace Sys2Proof.Machine

/-- Size of the record ring and of the clip ring in entries, bytes of a clip buffer (R276). -/
def State.recSize (s : State) : Nat := 2 ^ s.rf rResRecCfg 4 0
def State.clipSize (s : State) : Nat := 2 ^ (s.rf rResClipCfg 3 0 + 4)
def State.clipBuf (s : State) : Nat := s.rf rResClipCfg 15 8 * 4096

/-- Entries between consumer and producer index (R558). -/
def Ring.used (r : Ring) : Nat := (r.pi + 2 ^ 32 - r.ci) % 2 ^ 32

/-- One more entry written and not yet signalled; the interrupt falls due at IRQ_N (R278). -/
def Ring.push (r : Ring) (ts irqN : Nat) : Ring :=
  let n := r.unsig + 1
  let first := if r.unsig = 0 then ts else r.firstTs
  if irqN ≤ n then { r with pi := (r.pi + 1) % 2 ^ 32, unsig := 0, firstTs := ts, due := true }
  else { r with pi := (r.pi + 1) % 2 ^ 32, unsig := n, firstTs := first }

/-- The device is RUNNING, the rings are in use, and the ring's memory can be written: the host as bus master, or the window (R25, R276,
R546). -/
def State.ringOpen (s : State) (dest : Bool) : Bool :=
  decide (s.sys.st = .running) && s.rbit rResCtrl 0 && (dest || s.busMaster)

/-- The write-back of both producer indices (R276). -/
def State.writeBack (s : State) (dest : Bool) : State :=
  s.resWrite dest (s.reg64 rResWbLo) (leBytes 4 s.res.recR.pi ++ leBytes 4 s.res.clipR.pi)

/-- The record ring takes a record now. -/
def State.recRoom (s : State) : Bool := s.ringOpen (s.rbit rResCtrl 1) && decide (s.res.recR.used < s.recSize)

/-- Write a record at the producer index (R276, R558). -/
def State.recPut (s : State) (b : List Byte) : State :=
  let s := s.resWrite (s.rbit rResCtrl 1) (s.reg64 rResRecBaseLo + 64 * (s.res.recR.pi % s.recSize)) b
  { s with res.recR := s.res.recR.push s.ts (s.rf rResRecCfg 31 16) }

/-- A record goes to the record ring, waits, or is lost (R276, R277). -/
def State.recExport (s : State) (b : List Byte) : State :=
  if s.res.waiting = [] ∧ s.recRoom then (s.recPut b).writeBack (s.rbit rResCtrl 1)
  else if s.res.waiting.length < 4096 then { s with res.waiting := s.res.waiting ++ [b] }
  else ((s.addSat rResCntLoss 31 16 1).orReg rResEvt 1).raise evResRecLost 0 0 0

/-- Queued records enter the ring while there is room. -/
def State.recDrain : Nat → State → State
  | 0, s => s
  | k + 1, s =>
    match s.res.waiting with
    | b :: r => if s.recRoom then State.recDrain k (({ s with res.waiting := r } : State).recPut b) else s
    | [] => s

/-- A record with its CRC (R270). -/
def withCrc (b : List Byte) : List Byte := b ++ leBytes 4 (crc32c b)

/-- The report domain of a rule: FDOM for an inert rule other than rule 0 (R266). -/
def State.rdomOf (s : State) (recipe rule fdom : Nat) : Nat :=
  if rule ≠ 0 ∧ s.ruleInert recipe rule then fdom else s.ruleRdom recipe rule

/-- Coordinate `y` of the frame domain on the report domain (R267, R68). -/
def State.translate (s : State) (fdom rdom : Nat) (y : Int) : Track :=
  if rdom = fdom then .at_ y
  else match s.trackTable rdom with
    | some t => t.lookup y
    | none => .notYet

/-- Bytes 0 to 59 of a defect record (R270). ORIGIN and PRODUCT are the report domain's own, tracked or not (R61, R267). -/
def State.detBytes (s : State) (d : Det) (y : Int) (rdom seq flags clip : Nat) : List Byte :=
  let dm := s.domOwn rdom
  leBytes 1 1 ++ leBytes 1 (d.fdom * 16 + rdom) ++ leBytes 1 d.recipe ++ leBytes 1 d.mode ++ leBytes 4 seq ++ leBytes 8 (unsigned 64 y) ++
  leBytes 8 (unsigned 64 (y - dm.origin)) ++ leBytes 4 d.x ++ leBytes 2 d.xw ++ leBytes 1 d.len ++ leBytes 1 d.cls ++ leBytes 1 d.sev ++
  leBytes 1 (d.vcol * 16 + d.vrow) ++ leBytes 2 (d.tagHi * 16 + d.rule) ++ leBytes 4 (unsigned 32 d.frame) ++ leBytes 4 dm.product ++
  leBytes 2 flags ++ leBytes 2 clip ++ leBytes 8 d.feat ++ leBytes 4 s.ts

/-- What a record contributes to the frame check: bytes 8 to 43 and 48 to 55 (R270). -/
def checkPart (b : List Byte) : List Byte := (b.drop 8).take 36 ++ (b.drop 48).take 8

/-- Bytes 0 to 59 of a blind-band record (R272). -/
def State.bandBytes (s : State) (b : Band) (y0 y1 : Int) (rdom seq flags : Nat) : List Byte :=
  leBytes 1 2 ++ leBytes 1 (b.fdom * 16 + rdom) ++ leBytes 1 b.recipe ++ leBytes 1 b.mode ++ leBytes 4 seq ++ leBytes 8 (unsigned 64 y0) ++
  leBytes 8 (unsigned 64 y1) ++ leBytes 4 b.x ++ leBytes 4 b.xn ++ leBytes 1 b.cause ++ leBytes 1 b.detail ++ leBytes 1 b.head ++ leBytes 1 0 ++
  leBytes 4 (unsigned 32 b.frame) ++ leBytes 4 b.nframes ++ leBytes 2 flags ++ leBytes 10 0 ++ leBytes 4 s.ts

/-- Take the next record number (R270). -/
def State.nextSeq (s : State) : State :=
  ({ s with res.seq := (s.res.seq + 1) % 2 ^ 32 } : State).addWrap rResCntRec 1

/-- A record found OUT_OF_RANGE is counted and reported (R267). -/
def State.noteOor (s : State) : State := ((s.addSat rResTrkHold 31 16 1).orReg rResEvt 32).raise evResTrkOor 0 0 0

/-- Request the markings of a mask (R285): answers whether some was dropped, and whether some was late. -/
def State.requestMarks (s : State) (mask : Nat) (y : Int) (d : Nat) (ext : Int) (src : Option Nat) : State × Bool × Bool :=
  (List.range 8).foldl (fun (r : State × Bool × Bool) n =>
    if bitN mask n then
      let (s, dr, la) := r.1.mkRequest n y d ext src
      (s, r.2.1 || dr, r.2.2 || la)
    else r) (s, false, false)

/-- A clip is given the next buffer of its ring, or none (R274, R275): answers the buffer's index, 0xFFFF for none. -/
def State.clipAsk (s : State) (d : Det) (seq : Nat) : State × Nat :=
  let w := s.ruleClipW d.recipe d.rule
  let h := s.ruleClipH d.recipe d.rule
  let pl := s.ruleClipPl d.recipe d.rule
  let bytes := 64 + popcount 4 pl * w * h * 2
  let free := decide (s.res.clipR.used + s.res.clips.length < s.clipSize)
  if s.ringOpen (s.rbit rResCtrl 2) && free && decide (bytes ≤ s.clipBuf) then
    let buf := (s.res.clipR.pi + s.res.clips.length) % s.clipSize
    let m := d.m + ((d.len / 2 : Nat) : Int) - ((h / 2 : Nat) : Int)
    let x := ((d.x : Int) + ((d.xw / 2 : Nat) : Int) - ((w / 2 : Nat) : Int)) / 8 * 8
    ({ s with res.clips := s.res.clips ++ [{ seq := seq, m := m, y := s.rcpLineY d.recipe m, x := x, w := w, h := h, planes := pl,
                                             buf := buf, at_ := s.ts, fdom := d.fdom, recipe := d.recipe, dead := [] }] }, buf)
  else (((s.addSat rResCntClip 31 16 1).orReg rResEvt 4).raise evResClipDrop 0 0 0, 0xFFFF)

/-- UNCONFIRMED (R271, R341): a census result lists this device with the action TAG. -/
def State.cenTagged (s : State) : Bool := s.cen.listed && decide (s.cen.action = 1)

/-- Form a defect record (R264, R266, R267, R270, R274, R279, R285): number, markings, clip, ring, token. One that does not count is numbered
and discarded. -/
def State.formDet (s : State) (d : Det) (y : Int) (rdom : Nat) (oor : Bool) : State :=
  let seq := s.res.seq
  let s := s.nextSeq.when oor State.noteOor
  if !d.out then s
  else
    let mask := s.ruleMkmask d.recipe d.rule
    let ext : Int := (((d.len + 1) * s.rcpOpitch d.recipe : Nat) : Int)
    let (s, dr, la) := if oor then (s, decide (mask ≠ 0), false) else s.requestMarks mask y rdom ext (some seq)
    let (s, clip) := if s.ruleClip d.recipe d.rule then s.clipAsk d seq else (s, 0xFFFF)
    let flags := d.flags ||| fldsOr [(8, 8, b2n oor), (9, 9, b2n s.cenTagged), (10, 10, b2n la),
      (11, 11, b2n dr), (12, 12, b2n (s.ruleClip d.recipe d.rule && decide (clip = 0xFFFF)))]
    let b := withCrc (s.detBytes d y rdom seq flags clip)
    let s := s.when (s.ruleExport d.recipe d.rule) fun s => s.recExport b
    s.when (s.ruleToken d.recipe d.rule) fun s =>
      let dest := s.ruleTokdest d.recipe d.rule
      (s.fabOut 1 0x01 (dest % 512) (bitN dest 15) (b ++ leBytes 1 (s.ruleTokmk d.recipe d.rule))).addWrap rResTokTx 1

/-- Form a blind-band record (R264, R272): exported whenever it counts. A TAG marks it as every other record (R341; log 107). -/
def State.formBand (s : State) (b : Band) (y0 y1 : Int) (rdom : Nat) (oor : Bool) : State :=
  let seq := s.res.seq
  let s := s.nextSeq.when oor State.noteOor
  s.when b.out fun s => s.recExport (withCrc (s.bandBytes b y0 y1 rdom seq (256 * b2n oor + 512 * b2n s.cenTagged)))

/-- Hold a record, or handle the 4,097th as OUT_OF_RANGE (R267). -/
def State.holdRec (s : State) (h : HeldRec) : State :=
  if s.res.held.length < 4096 then { s with res.held := s.res.held ++ [h] }
  else match h with
    | .det d _ => s.formDet d d.y d.fdom true
    | .band b _ => s.formBand b b.y0 b.y1 b.fdom true

/-- Form, hold or report out of range a defect; `since`: when it was first tried; `last`: its time has passed (R267). -/
def State.tryDet (s : State) (d : Det) (since : Nat) (last : Bool) : State :=
  let rd := s.rdomOf d.recipe d.rule d.fdom
  match s.translate d.fdom rd d.y with
  | .at_ y => s.formDet d y rd false
  | .outOfRange => s.formDet d d.y d.fdom true
  | .notYet => if last then s.formDet d d.y d.fdom true else s.holdRec (.det d since)

def State.tryBand (s : State) (b : Band) (since : Nat) (last : Bool) : State :=
  let rd := s.rdomOf b.recipe 0 b.fdom
  match s.translate b.fdom rd b.y0, s.translate b.fdom rd b.y1 with
  | .at_ y0, .at_ y1 => s.formBand b y0 y1 rd false
  | .outOfRange, _ => s.formBand b b.y0 b.y1 b.fdom true
  | _, .outOfRange => s.formBand b b.y0 b.y1 b.fdom true
  | _, _ => if last then s.formBand b b.y0 b.y1 b.fdom true else s.holdRec (.band b since)

/-- Look again at every held record: formed when its coordinate is known or its 2 s have passed (R267). -/
def State.releaseHeld (s : State) : State :=
  let hs := s.res.held
  hs.foldl (fun s h => match h with
    | .det d t => s.tryDet d t (decide (t + 2000 * msTs ≤ s.ts))
    | .band b t => s.tryBand b t (decide (t + 2000 * msTs ≤ s.ts))) { s with res.held := [] }

/-- A blind band of frame `r`. -/
def State.bandRun (s : State) (r : RunFrame) (cause detail head x xn : Nat) (first next : Int) : State :=
  s.bandAdd (s.bandOf r.recipe r.mode r.out cause detail head x xn first next)

/-- A blind band over the bar columns of tile `t` in frame `r` (R203, R228). -/
def State.bandTile (s : State) (r : RunFrame) (cause detail t : Nat) : State :=
  let b := s.setBytes (s.rcpSS r.recipe)
  match s.tileRec b r.mode t with
  | some o =>
    let lo := fieldAt b (o + 8) 4
    let hi := fieldAt b (o + 12) 4
    if hi ≤ lo then s else s.bandRun r cause detail 0xFF lo (hi - lo) r.line (s.nextFrameLine r.recipe r.line)
  | none => s

/-- First column a tile's record declares. -/
def State.barxLo (s : State) (r : RunFrame) (t : Nat) : Nat :=
  let b := s.setBytes (s.rcpSS r.recipe)
  match s.tileRec b r.mode t with
  | some o => fieldAt b (o + 8) 4
  | none => 0

/-- OUTQ entries of tile `t` for frame `r`. -/
def State.entriesOf (s : State) (r : RunFrame) (t : Nat) : List OutqEnt :=
  s.res.outq.filter fun e => e.frame == unsigned 16 r.f && e.vcol == s.tileVcol t && e.vrow == t % 16

/-- Every dispatched tile's end entry of the frame is in (R264). -/
def State.endsIn (s : State) (r : RunFrame) : Bool := r.tiles.all fun t => (s.entriesOf r t).any (·.isEnd)

/-- The end entry of a tile. -/
def endOf (es : List OutqEnt) : Option OutqEnt := es.find? (·.isEnd)
def flagged (es : List OutqEnt) : Bool :=
  match endOf es with
  | some e => e.fault || e.poison
  | none => false

/-- The rule's least severity is met by an entry. -/
def State.detKeeps (s : State) (r : RunFrame) (e : OutqEnt) : Bool :=
  decide (s.ruleSevMin r.recipe (e.tag % 16) ≤ vlane 16 e.data 3 / 256)

/-- A detection from an OUTQ entry of tile `t` (R265, R267, R271); `extra`: further flags. -/
def State.detOf (s : State) (r : RunFrame) (t extra : Nat) (e : OutqEnt) : Det :=
  let b := s.rcpB r.recipe
  let line := vlane 16 e.data 0 % 256
  let m := r.line + (line : Int)
  let fl := r.flagsOr
  { rule := e.tag % 16, frame := r.f, m := m, y := s.rcpLineY r.recipe m, x := s.barxLo r t + vlane 16 e.data 1, xw := vlane 16 e.data 2,
    len := min (vlane 16 e.data 0 / 256) (b - 1 - line), cls := vlane 16 e.data 3 % 256, sev := vlane 16 e.data 3 / 256,
    feat := e.data.toNat / 2 ^ 64, tagHi := e.tag / 16, vcol := e.vcol, vrow := e.vrow,
    flags := fldsOr [(0, 0, b2n r.late), (1, 1, bitsN fl 1 1), (2, 2, bitsN fl 2 2), (3, 3, bitsN fl 5 5)] ||| extra,
    recipe := r.recipe, mode := r.mode, fdom := s.rcpFdom r.recipe, out := r.out }

/-- Tiles of a list in ascending virtual position. -/
def State.byPosition (s : State) (ts : List Nat) : List Nat :=
  (List.range 16).flatMap fun v => (List.range 16).filterMap fun row => ts.find? fun t => s.tileVcol t == v && t % 16 == row

/-- Code of the first fault of tile `t` in the frame. -/
def RunFrame.faultCode (r : RunFrame) (t : Nat) : Nat := ((r.faults.find? fun e => e.1 == t).map (·.2)).getD 0

/-- Outside ASSURED: what tile `t` gives to the frame's records (R203, R268). -/
def State.soloTile (s : State) (r : RunFrame) (t : Nat) : State × List Det :=
  let es := s.entriesOf r t
  let dets := ((es.filter fun e => !e.isEnd && s.detKeeps r e).map (s.detOf r t 0))
  match endOf es with
  | some e =>
    if e.fault then (s.bandTile r 6 (r.faultCode t) t, dets)
    else if e.poison then (s.bandTile r 6 0x10 t, [])
    else (s, dets)
  | none => (s, dets)

/-- Two entries agree in every field but VCOL (R213). -/
def OutqEnt.same (a b : OutqEnt) : Bool := { a with vcol := 0 } == { b with vcol := 0 }

/-- ERU event of a tile fault in ASSURED (R213, R214): CORRECTED when the other tile of the pair was clean. -/
def State.pairFault (s : State) (r : RunFrame) (t : Nat) (otherClean : Bool) : State :=
  if r.faults.any fun e => e.1 == t then
    s.raise { tileEv (r.faultCode t) with cls := if otherClean then 1 else 2 } t (r.faultCode t) 0
  else s

/-- In ASSURED: the outcome of the pair of tile `a` (copy A) and tile `b` (R213, R214). Beside a HALTED tile the entries of the other pass on
whatever it met; a fault of its own is reported and yields its blind band as well (log 92). -/
def State.pairTiles (s : State) (r : RunFrame) (a b : Nat) : State × List Det :=
  let ea := s.entriesOf r a
  let eb := s.entriesOf r b
  let dets := fun (es : List OutqEnt) (t extra : Nat) =>
    (es.filter fun e => !e.isEnd && s.detKeeps r e).map fun e => s.detOf r t extra { e with vcol := s.tileVcol a }
  let ha := r.halted.contains a
  let hb := r.halted.contains b
  if ha && hb then (s.bandTile r 7 0 a, [])
  else if ha || hb then
    let (t, es) := if ha then (b, eb) else (a, ea)
    (s.when (flagged es) fun s => (s.pairFault r t false).bandTile r 6 (if r.faultCode t = 0 then 0x10 else r.faultCode t) t, dets es t 16)
  else
    let masked := fun (s : State) => ((s.addSat rPsqFrmPair 31 16 1).orReg rPsqFrmEvt 32).raise evTilePairMasked 0 a 0
    match flagged ea, flagged eb with
    | false, false =>
      if ea.length = eb.length ∧ (ea.zip eb).all (fun p => p.1.same p.2) then (s, dets ea a 0)
      else ((((s.addSat rPsqFrmPair 15 0 1).orReg rPsqFrmEvt 32).raise evTilePairDisagree 0 a 0).bandTile r 8 0 a, [])
    | true, false => (masked (s.pairFault r a true), dets eb b 0)
    | false, true => (masked (s.pairFault r b true), dets ea a 0)
    | true, true =>
      (((s.pairFault r a false).pairFault r b false).bandTile r 6 (if r.faultCode a = 0 then 0x10 else r.faultCode a) a, [])

/-- The filled slot of line `m` of head `h` in the lowest plane that has one. -/
def State.filledSlot (s : State) (h : Nat) (m : Int) : Option SlotInfo :=
  (List.range 4).findSome? fun q => s.frm.slots.find? fun e => e.head == h && e.q == q && decide (e.m = m) && bitN e.flags 0

/-- Filled runs of the heads in the frame (R202): the lines of which a slot of some plane is filled, which join to runs. -/
def State.filledBands (s : State) (r : RunFrame) : State :=
  (s.rcpHeads r.recipe).foldl (fun s h => s.each (s.rcpB r.recipe) fun j s =>
    let m := r.line + (j : Int)
    match s.filledSlot h m with
    | some e => s.bandRun r 4 (bitsN e.flags 9 7) h (s.barX r.recipe h + s.ownLo h) (s.ownHi h - s.ownLo h) m (m + 1)
    | none => s) s

/-- The blind bands that are ready, in ascending cause; those that end below line `m` have stopped growing. -/
def State.takeBands (s : State) (m : Int) : List Band × State :=
  let s := s.bandsStop fun g => decide (g.next < m)
  let bs := s.res.bands
  ((List.range 16).flatMap fun c => bs.filter fun b => b.cause == c, { s with res.bands := [] })

/-- Export a frame's records with the flags `fl` of the TWIN comparison: bands first, then defects (R264). -/
def State.formAll (s : State) (bands : List Band) (dets : List Det) (fl : Nat) : State :=
  let s := bands.foldl (fun s b => s.tryBand b s.ts false) s
  dets.foldl (fun s d => s.tryDet { d with flags := d.flags ||| fl } s.ts false) s

/-- The frame check over the defects of a frame (R217, R270). -/
def State.frameCrc (s : State) (dets : List Det) : Nat :=
  crc32c (dets.flatMap fun d =>
    let rd := s.rdomOf d.recipe d.rule d.fdom
    match s.translate d.fdom rd d.y with
    | .at_ y => checkPart (s.detBytes d y rd 0 0 0)
    | _ => checkPart (s.detBytes d d.y d.fdom 0 0 0))

/-- The wait for a frame check has run out (R217). -/
def State.twinLate (s : State) (w : TwinWait) : State :=
  (((s.addSat rPsqFrmTwin 15 0 1).orReg rPsqFrmEvt 64).raise evTwinLate 0 0 (unsigned 64 w.frame)).formAll w.bands w.dets 128

/-- A TWIN secondary forms its records, numbers them and exports none (R215, R217, R270). -/
def State.formMuted (s : State) (bands : List Band) (dets : List Det) : State :=
  s.formAll (bands.map fun (b : Band) => { b with out := false }) (dets.map fun (d : Det) => { d with out := false }) 0

/-- Outcome of a frame check for the frame that waits (R217): the check is the CRC together with the FAULT flag. -/
def State.twinDecide (s : State) (w : TwinWait) (c : TwinCheck) : State :=
  if c.crc = w.crc ∧ c.fault = w.fault then s.formAll w.bands w.dets 32
  else if c.fault then ((s.orReg rPsqFrmEvt 64).raise evTwinPeerFault 0 0 (unsigned 64 w.frame)).formAll w.bands w.dets 0
  else if w.fault then (s.orReg rPsqFrmEvt 64).formAll w.bands w.dets 0
  else ((((s.addSat rPsqFrmTwin 31 16 1).orReg rPsqFrmEvt 64).raise evTwinDisagree 0 0 (unsigned 64 w.frame))).formAll w.bands w.dets 64

/-- A frame's own records are complete: compared in TWIN, formed at once otherwise; a secondary sends its check over a mirror port, chosen by
the parity of the frame number (R217, R218, R317; log 97). -/
def State.frameRecords (s : State) (r : RunFrame) (bands : List Band) (dets : List Det) : State :=
  if r.mode = 2 ∧ s.twinRole = 2 then
    let check := leBytes 8 (unsigned 64 r.f) ++ leBytes 4 (s.frameCrc dets) ++ leBytes 1 (b2n (r.faults ≠ []))
    let s := match s.mirrorPortFor r.f with
      | some p => s.fabOutPort p 1 0x02 check
      | none => s
    s.formMuted bands dets
  else if r.mode = 2 ∧ s.twinRole = 1 then
    let w : TwinWait := { frame := r.f, dets := dets, bands := bands, crc := s.frameCrc dets, fault := r.faults ≠ [], at_ := s.ts,
                          wait := s.rcpTwinWait r.recipe }
    match s.res.checks.find? fun c => c.frame == r.f with
    | some c => ({ s with res.checks := s.res.checks.filter fun x => x.frame != r.f } : State).twinDecide w c
    | none => { s with res.twin := s.res.twin ++ [w] }
  else s.formAll bands dets 0

/-- What the tiles of frame `r` give to its records (R203, R213, R264, R268). -/
def State.tileDets (s : State) (r : RunFrame) : State × List Det :=
  if r.mode = 1 then
    let w := s.halfCols
    let as := (s.byPosition (r.tiles ++ r.halted)).filter fun t => decide (s.tileVcol t < w)
    as.foldl (fun (p : State × List Det) a =>
      match p.1.ptile (p.1.tileVcol a + w) (a % 16) with
      | some b => let (s, d) := p.1.pairTiles r a b; (s, p.2 ++ d)
      | none => p) (s, [])
  else
    let s := r.halted.foldl (fun s t => s.bandTile r 7 0 t) s
    (s.byPosition r.tiles).foldl (fun (p : State × List Det) t => let (s, d) := p.1.soloTile r t; (s, p.2 ++ d)) (s, [])

/-- No more than REC_MAX defect records of a frame (R268). -/
def State.truncDets (s : State) (dets : List Det) : State × List Det :=
  let max := s.rf rResCtrl 31 16
  let extra := dets.length - max
  if extra = 0 then (s, dets)
  else (((s.addSat rResCntLoss 15 0 extra).orReg rResEvt 2).raise evResRecTrunc 0 extra 0,
    (List.range max).filterMap fun i => (dets[i]?).map fun d => if i + 1 = max then { d with flags := d.flags ||| 8192 } else d)

/-- Form the records of frame `r` (R202, R203, R213, R264, R268): in ARMED as in RUNNING, where they do not count. -/
def State.formFrame (s : State) (r : RunFrame) : State :=
  let (s, dets) := (s.filledBands r).tileDets r
  let (s, dets) := s.truncDets dets
  let s := { s with res.outq := s.res.outq.filter fun e => decide (e.frame ≠ unsigned 16 r.f) }
  let (bands, s) := s.takeBands (s.nextFrameLine r.recipe r.line)
  s.frameRecords r bands dets

/-- Blind bands that are ready while no frame waits for its records are formed by themselves (R201, R273). -/
def State.formReady (s : State) : State :=
  let bs := s.res.bands
  let bands := (List.range 16).flatMap fun c => bs.filter fun b => b.cause == c
  let s := { s with res.bands := [] }
  if s.frm.mode = 2 ∧ s.twinRole = 2 then s.formMuted bands [] else s.formAll bands [] 0

/-- The head on this device that owns a bar column (R124, R274). -/
def State.ownerOf (s : State) (c : ClipJob) (x : Int) : Option Nat :=
  s.leadLanes.find? fun h => s.headDom h == c.fdom && decide (((s.barX c.recipe h + s.ownLo h : Nat) : Int) ≤ x) &&
    decide (x < ((s.barX c.recipe h + s.ownHi h : Nat) : Int))

/-- The slot of line `m`, plane `q` of head `h` holds that line and can be read. -/
def State.slotReads (s : State) (h q : Nat) (m : Int) : Bool :=
  let p := s.slotPort h
  decide ((s.gdcAt p).st = 2) && decide (q < s.headNopl h) &&
    decide (leNat (memGetBytes ramDefault s.gddr (gddrKey p (s.slotAddr h q m) + 8) 8) = unsigned 64 m)

/-- Lines a clip needs that are not yet written. -/
def State.clipWaits (s : State) (c : ClipJob) : Bool :=
  let heads := (s.leadLanes.filter fun h => s.headDom h == c.fdom && decide (c.x < ((s.barX c.recipe h + s.ownHi h : Nat) : Int)) &&
    decide (((s.barX c.recipe h + s.ownLo h : Nat) : Int) < c.x + (c.w : Int)))
  heads.any fun h => (List.range 4).any fun q => bitN c.planes q && decide (q < s.headNopl h) &&
    match (s.planeAt h q).wLast with
    | some z => decide (z < c.m + (c.h : Int) - 1)
    | none => true

/-- Cut a clip (R274, R275): planes in order, lines in order, columns in order; what cannot be read is 0. -/
def State.clipCut (s : State) (c : ClipJob) : State :=
  let planes := (List.range 4).filter (bitN c.planes)
  let line := fun (q : Nat) (j : Nat) => (List.range c.w).map fun (i : Nat) =>
    let x := c.x + (i : Int)
    match s.ownerOf c x with
    | some h =>
      if s.slotReads h q (c.m + (j : Int)) && !c.dead.contains (h, q, c.m + (j : Int)) then
        let a := gddrKey (s.slotPort h) (s.slotAddr h q (c.m + (j : Int))) + 64 + 2 * (x - (s.barX c.recipe h : Int)).toNat
        (memGetBytes ramDefault s.gddr a 2, true, true)
      else (leBytes 2 0, false, true)
    | none => (leBytes 2 0, false, false)
  let rows := planes.map fun q => (List.range c.h).map (line q)
  let px := rows.flatten.flatten
  let part := px.any fun p => !p.2.1
  let lost := ((List.range c.h).filter fun j => rows.any fun r => (r.getD j []).any fun p => !p.2.1 && p.2.2).length
  let head := leBytes 1 3 ++ leBytes 1 c.planes ++ leBytes 2 (b2n part) ++ leBytes 4 c.seq ++ leBytes 8 (unsigned 64 c.m) ++
    leBytes 8 (unsigned 64 c.y) ++ leBytes 4 (unsigned 32 c.x) ++ leBytes 2 c.w ++ leBytes 2 c.h ++ leBytes 2 lost ++ leBytes 30 0
  let dest := s.rbit rResCtrl 2
  let base := s.reg64 rResClipBaseLo + c.buf * s.clipBuf
  let s := (s.resWrite dest (base + 64) (px.flatMap (·.1))).resWrite dest base head
  let s := { s with res.clips := s.res.clips.drop 1, res.clipR := s.res.clipR.push s.ts (s.rf rResClipCfg 31 16) }
  (s.when part fun s => s.addSat rResCntClip 15 0 1).writeBack dest

end Sys2Proof.Machine
end

