-- ==== Sys2Proof/Machine/CwCmd.lean ====
section
/-! DEFINITION. Meanings of the causeway and census commands (R325 to R344). -/
namespace Sys2Proof.Machine

/-- SYNC_EXCHANGE_START (R325): on the up port, every 10 µs; t1 is the block's TXTIME. -/
def execSyncExchangeStart (s : State) : Host.Outcome State Fault Refusal := s.clocked fun s =>
  match s.fab.upPort with
  | some p =>
    if s.fab.isRoot ∨ s.ft.tstate = .free ∨ !past s.ft.reqAt (10 * usTs) s.ts then .next s
    else
      let n := (s.ft.sseq + 1) % 65536
      .next (({ s with ft := { s.ft with sseq := n, t1 := some s.fabricTime, reqAt := some s.ts } } : State).sendCtl p 0x20 (syncReqBody n))
  | none => .next s

/-- SYNC_REQ_RECEIVE (R325): answered at once, so t2 and t3, the answer's TXTIME, are one time; not by a device beyond the 512th (R314). -/
def execSyncReqReceive (p : Fin 4) (start : FabWord) (data : List FabWord) (s : State) : Host.Outcome State Fault Refusal := s.clocked fun s =>
  .next (s.ctlIn p 0x20 (start :: data) fun c s =>
    if s.useDiffers p || s.fab.noAddr then s else s.sendCtl p 0x21 (syncRspBody (fieldAt c.body 0 2) s.fabricTime s.ft.tstate.code))

/-- SYNC_RSP_RECEIVE (R325, R326): t2, and t3 as TXTIME, of the parent. -/
def execSyncRspReceive (p : Fin 4) (w0 w1 w2 w3 w4 : FabWord) (s : State) : Host.Outcome State Fault Refusal := s.clocked fun s =>
  .next (s.ctlIn p 0x21 [w0, w1, w2, w3, w4] fun c s =>
    let lost := s.addSat (rFabPSync p) 31 16 1
    if s.useDiffers p then s
    else match s.ft.t1 with
      | some t1 =>
        if s.fab.upPort = some p.val ∧ fieldAt c.body 0 2 = s.ft.sseq ∧ s.fabricTime ≤ t1 + 8000 ∧ s.ft.tstate ≠ .free then
          s.syncTake p t1 (fieldAt c.body 2 8) c.txtime s.fabricTime
        else lost
      | none => lost)

/-- TIME_HOLDOVER_TIMEOUT (R327). -/
def execTimeHoldoverTimeout (s : State) : Host.Outcome State Fault Refusal := s.clocked fun s =>
  if !s.fab.isRoot ∧ (s.ft.tstate = .acquire ∨ s.ft.tstate = .locked) ∧ s.ft.lastRsp + 50 * usTs ≤ s.ts then .next (s.ftState .holdover)
  else .next s

/-- BEACON_SEND (R329): AGE 0, the coordinate being that of now. -/
def execBeaconSend (d : Fin 16) (s : State) : Host.Outcome State Fault Refusal := s.clocked fun s =>
  let c := s.cwAt d
  let st := match (s.dom d).lock with
    | .locked => some 0
    | .coast => some 1
    | .lost => some 2
    | _ => none
  match st, s.fab.addr with
  | some st, some a =>
    if !s.fabEn ∨ !s.dEn d ∨ s.dSource d ≠ 0 ∨ !c.active ∨ (c.lastSent ≠ 0 ∧ s.ts < c.lastSent + 760) then .next s
    else
      let x := if st = 2 then 0 else s.coordNow d
      let s := s.updCw d fun c => { c with lastSent := s.ts, root := a, hops := 0, status := st }
      let b : Beacon := { motion := (s.dom d).motion.code, dom := d, gen := c.gen, status := st, hops := 0, root := a, coord := x, age := 0 }
      .next ((s.fabricPorts none).foldl (fun s p => s.sendCtl p 0x24 (beaconBody b)) s)
  | _, _ => .next s

/-- BEACON_RECEIVE (R330, R331, R333 to R335): beacons cross no MIRROR port. The sample may answer the lookup of a held record (R68, R267). -/
def execBeaconReceive (p : Fin 4) (start : FabWord) (data : List FabWord) (last : FabWord) (s : State) : Host.Outcome State Fault Refusal := s.clocked fun s =>
  .next (s.ctlIn p 0x24 (start :: data ++ [last]) fun c s =>
    let b := beaconOf c.body
    let sample : Int := (c.txtime : Int) - (b.age : Int)
    if !s.useDiffers p ∧ s.fabUse p = 1 ∧ s.beaconOk b sample then (s.beaconTake p b sample).releaseHeld else s)

/-- BEACON_TIMEOUT (R63, R331). -/
def execBeaconTimeout (d : Fin 16) (s : State) : Host.Outcome State Fault Refusal := s.clocked fun s =>
  if s.onBeacons d ∧ (s.cwAt d).lastAcc + 8 * usTs ≤ s.ts then
    match (s.dom d).lock with
    | .locked => .next (s.enterCoast d)
    | .acquire => .next (s.updDom d fun m => { m with hist := [] })
    | _ => .next s
  else .next s

/-- STANDBY_TAKEOVER (R334): by a standby root, and by a former root that acts as one; the 3 µs count from the last beacon with STATUS LOCKED,
or from the first accepted. -/
def execStandbyTakeover (d : Fin 16) (s : State) : Host.Outcome State Fault Refusal := s.clocked fun s =>
  let c := s.cwAt d
  let own := decide ((s.shadowOf d).lock = .locked) && !s.encFaulty (s.dEncSel d)
  if s.dEn d ∧ s.dSource d = 0 ∧ c.standby ∧ !c.active ∧ c.ever ∧ c.lastLocked + 3 * usTs ≤ s.ts ∧ own then
    .next (s.takeOver d)
  else .next s

/-- DIGEST_RECOMPUTE_DONE (R337). -/
def execDigestRecomputeDone (s : State) : Host.Outcome State Fault Refusal := s.clocked fun s =>
  if s.cen.stale then .next { s with cen := { s.cen with stale := false, digest := s.configDigest } } else .next s

/-- CENSUS_ROUND_START (R340, R342). -/
def execCensusRoundStart (s : State) : Host.Outcome State Fault Refusal := s.clocked fun s =>
  if s.fabEn ∧ s.fab.isRoot ∧ s.fab.addr.isSome ∧ s.cen.open_.isNone ∧ s.cen.lastRound + s.polTs ≤ s.ts then .next s.cenOpen
  else .next s

/-- CEN_POLL_RECEIVE (R340). -/
def execCenPollReceive (s : State) : Host.Outcome State Fault Refusal := s.clocked fun s =>
  match s.takeMsg fun m => m.mtype == 0x30 with
  | some (m, s) => .next (s.fabOut 3 0x31 m.src false (s.cenReport (fieldAt m.payload 0 4)))
  | none => .next s

/-- CEN_REPORT_RECEIVE (R340). -/
def execCenReportReceive (s : State) : Host.Outcome State Fault Refusal := s.clocked fun s =>
  match s.takeMsg fun m => m.mtype == 0x31 with
  | some (m, s) =>
    let r := cenReportOf m.src m.payload
    if s.fab.isRoot ∧ s.cen.open_.isSome ∧ r.cround = s.cen.cround then
      .next { s with cen.reports := r :: s.cen.reports.filter fun x => x.addr != r.addr }
    else .next s
  | none => .next s

/-- CENSUS_ROUND_DECIDE (R340): after WAIT. -/
def execCensusRoundDecide (s : State) : Host.Outcome State Fault Refusal := s.clocked fun s =>
  match s.cen.open_ with
  | some t => if s.fab.isRoot ∧ t + min (s.polTs / 2) (5 * msTs) ≤ s.ts then .next s.cenClose else .next s
  | none => .next s

/-- CEN_RESULT_RECEIVE (R341). -/
def execCenResultReceive (s : State) : Host.Outcome State Fault Refusal := s.clocked fun s =>
  match s.takeMsg fun m => m.mtype == 0x32 with
  | some (m, s) => if s.fab.isRoot then .next s else .next (s.cenApply m.payload)
  | none => .next s

/-- CEN_RESULT_TIMEOUT (R341). -/
def execCenResultTimeout (s : State) : Host.Outcome State Fault Refusal := s.clocked fun s =>
  if s.fabEn ∧ s.fab.addr.isSome ∧ s.cen.lastResult + 3 * s.polTs ≤ s.ts then .next { s with cen.nores := true } else .next s

/-- CEN_REQ_RECEIVE (R342). -/
def execCenReqReceive (s : State) : Host.Outcome State Fault Refusal := s.clocked fun s =>
  match s.takeMsg fun m => m.mtype == 0x36 with
  | some (_, s) => if s.fab.isRoot then .next s.cenAsk else .next s
  | none => .next s

/-- EPOCH_PROPOSE_RECEIVE (R343, R344). -/
def execEpochProposeReceive (s : State) : Host.Outcome State Fault Refusal := s.clocked fun s =>
  match s.takeMsg fun m => m.mtype == 0x33 with
  | some (m, s) =>
    let p := proposalOf m.payload s.ts
    if s.fab.isRoot then .next (s.epochPropose p)
    else
      let (s, c) := s.epochHear p
      .next (s.fabOut 3 0x34 m.src false (leBytes 8 p.epoch ++ leBytes 1 c))
  | none => .next s

/-- EPOCH_ACK_RECEIVE (R343). -/
def execEpochAckReceive (s : State) : Host.Outcome State Fault Refusal := s.clocked fun s =>
  match s.takeMsg fun m => m.mtype == 0x34 with
  | some (m, s) =>
    match s.cen.prop with
    | some p =>
      if p.epoch = fieldAt m.payload 0 8 then
        .next (({ s with cen.acks := (m.src, fieldAt m.payload 8 1) :: s.cen.acks.filter fun a => a.1 != m.src } : State).epochCheck p)
      else .next s
    | none => .next s
  | none => .next s

/-- EPOCH_ACK_TIMEOUT (R343). -/
def execEpochAckTimeout (s : State) : Host.Outcome State Fault Refusal := s.clocked fun s =>
  match s.cen.prop with
  | some p => if p.at_ + 10 * msTs ≤ s.ts then .next (s.epochClose p 2) else .next s
  | none => .next s

/-- EPOCH_COMMIT_RECEIVE (R343). -/
def execEpochCommitReceive (s : State) : Host.Outcome State Fault Refusal := s.clocked fun s =>
  match s.takeMsg fun m => m.mtype == 0x35 with
  | some (m, s) =>
    let abort := fieldAt m.payload 8 1 ≠ 0
    .next (s.epochOutcome (fieldAt m.payload 0 8) (if abort then max 1 (fieldAt m.payload 9 1) else 0))
  | none => .next s

/-- EPOCH_COMMIT_TIMEOUT (R344). -/
def execEpochCommitTimeout (s : State) : Host.Outcome State Fault Refusal := s.clocked fun s =>
  match s.cen.accepted.find? fun p => decide (p.at_ + 20 * msTs ≤ s.ts) with
  | some p => .next (s.epochAbort p.epoch 2)
  | none => .next s

/-- EPOCH_APPLY (R343). -/
def execEpochApply (s : State) : Host.Outcome State Fault Refusal := s.clocked fun s => .next s.epochsApply

end Sys2Proof.Machine
end

