-- ==== Sys2Proof/Machine/PsqCmd.lean ====
section
/-! DEFINITION. Meanings of the sequencer's own steps: microwords, the ends of waits, the page check and the swap (R241 to R262). -/
namespace Sys2Proof.Machine

/-- MICROWORD_ISSUE (R241, R251, R262): context `c` (0 to 5 are K0 to K5, 6 and 7 are C0 and C1) reads its word; `upset`: with a parity
error. The fields of a Kabrimor word whose encodings are not laid down (SECOP, LCOP, STW) have no effect here (log 96). -/
def execMicrowordIssue (c : Fin 8) (upset : Bool) (s : State) : Host.Outcome State Fault Refusal := s.clocked fun s =>
  if !s.live ∨ (s.cxAt c).st ≠ 1 then .next s
  else
    let w := s.cxWord c
    if upset || !mwParityOk w then .next (s.raise evPsqCsParity 0 c.val (s.cxAddr c))
    else if mw w 95 92 ≠ 0 then .next (s.updCx c fun x => { x with st := 2, waitFrom := s.ts, sawGap := false, sawDisp := false })
    else .next ((s.actWord c w).cxTick c)

/-- PSQ_WAIT_END (R247, R248): the condition of a waiting context holds. -/
def execPsqWaitEnd (c : Fin 8) (s : State) : Host.Outcome State Fault Refusal := s.clocked fun s =>
  let w := s.cxWord c
  if s.live && decide ((s.cxAt c).st = 2) && s.waitHolds c w then .next (((s.endCxWait c w).actWord c w).cxTick c) else .next s

/-- PSQ_WAIT_TIMEOUT (R249): the context goes on at TARGET without the actions. -/
def execPsqWaitTimeout (c : Fin 8) (s : State) : Host.Outcome State Fault Refusal := s.clocked fun s =>
  let w := s.cxWord c
  if s.live && decide ((s.cxAt c).st = 2) && s.timedOut c w && !s.waitHolds c w then
    .next ((s.updCx c fun x => { x with st := 1 }).goCx c (cxTarget c w))
  else .next s

/-- PAGE_SWAP_CHECK_DONE (R259): `bad` is the first word whose parity was found in error. -/
def execPageSwapCheckDone (bad : Option (Fin 1024)) (s : State) : Host.Outcome State Fault Refusal := s.clocked fun s =>
  match s.psq.swap with
  | some q => if q.checked || !(s.jnl.wait.any fun x => x.seq == q.seq) then .next s else .next (s.swapChecked q (bad.map (·.val)))
  | none => .next s

/-- PAGE_SWAP_EFFECT (R260): in the dispatch gap. -/
def execPageSwapEffect (s : State) : Host.Outcome State Fault Refusal := s.clocked fun s =>
  match s.psq.swap with
  | some q => if q.checked && (s.frm.running.isNone || !s.fdomGoes) then .next (s.swapEffect q) else .next s
  | none => .next s

end Sys2Proof.Machine
end

