-- ==== Sys2Proof/Machine/ResCmd.lean ====
section
/-! DEFINITION. Meanings of the results commands, and of the two that move a tracking table and so may release held records (R68, R217,
R264 to R280, R332). -/
namespace Sys2Proof.Machine

/-- EDGE_REPORT_RECEIVE (R42, R67, R267): the oldest report on the die link. -/
def execEdgeReportReceive (s : State) : Host.Outcome State Fault Refusal := s.clocked fun s =>
  match s.pos.reports with
  | r :: t => .next (({ s with pos.reports := t } : State).report r).releaseHeld
  | [] => .next s

/-- TRACK_SAMPLE_RECEIVE (R69, R332, R267). -/
def execTrackSampleReceive (s : State) : Host.Outcome State Fault Refusal := s.clocked fun s =>
  match s.takeMsg fun m => m.mtype == 0x10 with
  | some (m, s) =>
    let b := m.payload
    let d := bitsN (fieldAt b 0 1) 3 0
    let ex := bitsN (fieldAt b 1 1) 7 4
    let e := signed 64 (fieldAt b 4 8)
    let x := signed 64 (fieldAt b 12 8)
    let old := ((s.pos.ttCopy.find? fun c => c.1 == d).map (·.2.2)).getD TrkTable.init
    let s := { s with pos.ttCopy := (d, ex, old.extend e x) :: s.pos.ttCopy.filter fun c => c.1 != d }
    .next s.releaseHeld
  | none => .next s

/-- RESULT_FRAME_FORM (R264): the oldest ended frame whose end entries are all in; with no frame ended, the blind bands that are ready. -/
def execResultFrameForm (s : State) : Host.Outcome State Fault Refusal := s.clocked fun s =>
  match s.frm.ended with
  | r :: rest => if s.endsIn r ∧ s.live then .next (({ s with frm.ended := rest } : State).formFrame r) else .next s
  | [] => .next (s.when (s.live && !s.res.bands.isEmpty) State.formReady)

/-- FRAME_CHECK_RECEIVE (R217): compared with the frame that waits, or kept for a frame still to be formed. -/
def execFrameCheckReceive (s : State) : Host.Outcome State Fault Refusal := s.clocked fun s =>
  match s.takeMsg fun m => m.mtype == 0x02 with
  | none => .next s
  | some (m, s) =>
    let c : TwinCheck := { frame := signed 64 (fieldAt m.payload 0 8), crc := fieldAt m.payload 8 4, fault := bitN (fieldAt m.payload 12 1) 0 }
    if s.twinRole ≠ 1 ∨ !s.live then .next s
    else
      let s := { s with frm.twinLost := false }
      match s.res.twin.find? fun w => w.frame == c.frame with
      | some w =>
        let s := { s with res.twin := s.res.twin.filter fun x => x.frame != c.frame }
        .next (if w.at_ + w.wait * usTs < s.ts then s.twinLate w else s.twinDecide w c)
      | none =>
        let ahead := (s.frm.ended ++ s.frm.running.toList).any (fun r => r.f == c.frame) ||
          (match s.frm.next with
            | some n => decide (s.frameOf n ≤ c.frame)
            | none => false)
        .next (if ahead then { s with res.checks := s.res.checks ++ [c] } else s)

/-- TWIN_WAIT_TIMEOUT (R217): the oldest frame whose check has not come within TWIN_WAIT. -/
def execTwinWaitTimeout (s : State) : Host.Outcome State Fault Refusal := s.clocked fun s =>
  match s.res.twin with
  | w :: rest =>
    if w.at_ + w.wait * usTs ≤ s.ts then .next (({ s with res.twin := rest } : State).twinLate w) else .next s
  | [] => .next s

/-- TRACKED_HOLD_TIMEOUT (R267): records held 2 s are handled as OUT_OF_RANGE. -/
def execTrackedHoldTimeout (s : State) : Host.Outcome State Fault Refusal := s.clocked fun s => .next s.releaseHeld

/-- CLIP_CUT (R274, R275): the oldest clip, once every line it can read has been written. -/
def execClipCut (s : State) : Host.Outcome State Fault Refusal := s.clocked fun s =>
  match s.res.clips with
  | c :: _ => if s.clipWaits c ∨ !s.ringOpen (s.rbit rResCtrl 2) then .next s else .next (s.clipCut c)
  | [] => .next s

/-- CLIP_LINE_TIMEOUT (R274): 2 ms after formation the oldest clip is cut with the lines it has. -/
def execClipLineTimeout (s : State) : Host.Outcome State Fault Refusal := s.clocked fun s =>
  match s.res.clips with
  | c :: _ => if c.at_ + 2 * msTs ≤ s.ts ∧ s.ringOpen (s.rbit rResCtrl 2) then .next (s.clipCut c) else .next s
  | [] => .next s

/-- RECORD_RING_WRITE (R276, R277): queued records enter the ring, then the write-back. -/
def execRecordRingWrite (s : State) : Host.Outcome State Fault Refusal := s.clocked fun s =>
  if s.res.waiting = [] ∨ !s.recRoom then .next s
  else .next ((s.recDrain s.res.waiting.length).writeBack (s.rbit rResCtrl 1))

/-- The interrupt of a ring falls due IRQ_T after its first unsignalled entry (R278). -/
def Ring.timer (r : Ring) (ts irqT : Nat) : Ring :=
  if r.unsig ≠ 0 ∧ r.firstTs + irqT * usTs ≤ ts then { r with unsig := 0, due := true } else r

/-- RING_IRQ_TIMER (R278). IRQ_T of RES_REC_CFG serves both rings (DEDUCED, log 12). -/
def execRingIrqTimer (s : State) : Host.Outcome State Fault Refusal := s.clocked fun s =>
  let t := s.rf rResRecCfg 15 8
  .next { s with res.recR := s.res.recR.timer s.ts t, res.clipR := s.res.clipR.timer s.ts t }

/-- TOKEN_RECEIVE (R280): markings for TOKMK, and the record into the ring with REMOTE. -/
def execTokenReceive (s : State) : Host.Outcome State Fault Refusal := s.clocked fun s =>
  match s.takeMsg fun m => m.mtype == 0x01 with
  | none => .next s
  | some (m, s) =>
    let b := m.payload
    let s := s.addWrap rResTokRx 1
    if s.sys.st ≠ .running then .next s
    else
      let rd := bitsN (fieldAt b 1 1) 3 0
      let y := signed 64 (fieldAt b 8 8)
      let ext : Int := (((fieldAt b 30 1 + 1) * s.rcpOpitch (s.frm.recipe.getD 0) : Nat) : Int)
      let (s, _, _) := s.requestMarks (fieldAt b 64 1) y rd ext (some (fieldAt b 4 4))
      let flags := fieldAt b 44 2 ||| 16384
      let rec60 := b.take 44 ++ leBytes 2 flags ++ (b.drop 46).take 14
      .next (s.when (s.rbit rResCtrl 3) fun s => s.recExport (withCrc (fitBytes 60 rec60)))

end Sys2Proof.Machine
end

