-- ==== Sys2Proof/Machine/BootOps.lean ====
section
/-! DEFINITION. The start of the device: reset of the processing die, entry to BOOT, HOLD and WIPED, the scan of the journal, the choice
of the slot (R455, R469, R482, R485, R508, R530). -/
namespace Sys2Proof.Machine

/-- Whether the register at `o` lies on the processing die and is reset with it. SYS, CFG, SEC, JNL, IOX and CLK lie on the Lagg die, and
the PCIe endpoint is not reset with the processing die (R545). DEDUCED (log 16). -/
def pdReg (o : Nat) : Bool :=
  (decide (0x10000 ≤ o) && decide (o < 0x40000)) || (decide (0x60000 ≤ o) && decide (o < 0x80000)) || decide (0x100000 ≤ o)

/-- The units that are off in HOLD (R482): fabric, lanes, GDDR7 ports, array and sequencer; the control core in reset. -/
def State.unitsOff (s : State) : State :=
  { s with lane := Vector.replicate 32 Lane.init,
           heads := Vector.replicate 32 [],
           orphans := Vector.replicate 32 [],
           slice := Vector.replicate 32 Slice.init,
           tile := Vector.replicate 272 Tile.init,
           frm := Frm.init,
           psq := Psq.init,
           fport := Vector.replicate 4 FabPort.init,
           fab := FabCore.init,
           cw := Vector.replicate 16 Cw.init,
           cen := Census.init,
           ft := FabTime.init,
           gdc := Vector.replicate 8 GdcPort.init,
           core := { Core.init with nmiPin := s.core.nmiPin },
           balls.ccLockup := false,
           img.arr := none }

/-- Reset of the processing die by the Lagg die (R469, R485): units, registers and error unit at their reset values. Scratchpad, mailbox
and GDDR7 keep their bytes (DEDUCED, log 16); a wipe of the secure window that was ordered goes on. -/
def State.pdReset (s : State) : State :=
  let s := s.unitsOff
  { s with regs := s.regs.filter fun e => !pdReg e.1,
           shadow := [],
           hiLatch := [],
           eru := Eru.init,
           pos := { Pos.init with enc := s.pos.enc },
           mrk := Vector.replicate 8 MarkOut.init,
           res := { Res.init with gpi := s.res.gpi, gpiQuiet := s.res.gpiQuiet },
           mtx := { s.mtx with dma := Vector.replicate 4 DmaCh.init, testLine := 0, shadow := none, cdc := [], late := [], owed := [] } }

/-- A fresh number for a key; its value is drawn from random bits and never seen. -/
def State.draw (s : State) : Nat × State := (s.sec.drawn, { s with sec.drawn := s.sec.drawn + 1 })

/-- A requester's session closes (R506). -/
def State.closeSession (s : State) (who : Nat) : State :=
  { s with sec.host := if who = 0x200 then none else s.sec.host,
           sec.fabs := s.sec.fabs.filter fun x => x.req != who }

/-- Every session closes. -/
def State.closeAll (s : State) : State := { s with sec.host := none, sec.fabs := [] }

/-- The volatile items are cleared (R496, R514): KWRAP, the DRBG's state, sessions, claim and challenges, and a GO that waits. -/
def State.volatileClear (s : State) : State :=
  { s.closeAll with sec.kwrap := none, sec.drbg := false, sec.claim := none, sec.goWait := none }

/-- The volatile items of a BOOT (R494 to R496, R506, R512): cleared, no test passed yet; the tests bring KWRAP and the DRBG up. -/
def State.secBoot (s : State) : State :=
  { s.volatileClear with sec.busy := false, sec.approved := false, sec.entropyFail := false, sec.selftest := 0, sec.testFail := false,
                         sec.answered := false, sec.envAt := none, sec.undo := none }

/-- What the secure partition holds wrapped can be unwrapped: KWRAP stands (R496). -/
def State.unwraps (s : State) : Bool := s.sec.kwrap.isSome

/-- KWRAP from the device seed and the partition salt (R496). -/
def State.deriveKwrap (s : State) : State := { s with sec.kwrap := some (fitBytes 32 (Config.shake256 (s.otp.seed ++ s.sec.salt))) }

/-- A new partition salt, 32 random bytes (R496). -/
def State.newSalt (s : State) : State := ({ s with sec.salt := s.freeBytes 32 } : State).tick 32

/-- The life-cycle record as it stands. -/
def Sec.record (c : Sec) : LcRec :=
  { lc := c.lc, transitions := c.transitions, tampers := c.tampers, debugOpened := c.debugOpened, scope := c.scope }

/-- The second copy of the life-cycle record follows the first (R496). -/
def State.recordCopy (s : State) : State := { s with sec.copy := s.sec.record }

/-- Entry to BOOT by a restart (R455, R485): safe outputs, the processing die reset. TS 0 of the new start for SYS_T_ARMED is the entry
(DEDUCED, log 17). -/
def State.bootEnter (s : State) (cause : Nat) (hold : Bool) : State :=
  let s := s.raise evCfgRestart 0 0 0
  let s := (({ s with sys.resetCause := cause, sys.holdCause := 0 } : State).goState .boot).pdReset.secBoot
  let keep := s.img.sel
  { s with sys := { s.sys with resetCause := cause, holdCause := 0, releaseTs := s.ts, tArmed := 0, pdReleased := false, dieLink := true, laggLost := false,
                               mrkLive := false, fatalPend := false, noDispatch := false, cenStop := false, restartHold := hold,
                               starts := s.sys.starts + 1 },
           balls := { s.balls with trg := Vector.replicate 16 .low, mrk := Vector.replicate 8 .hiZ },
           img := { Img.init with sel := keep },
           jnl := { s.jnl with queue := [], wait := [], fw := none, run := none } } |>.gpoRefresh

/-- A command whose entry completes at the next ARMED, HOLD or WIPED (R485, R530). -/
def JEntry.restarts (e : JEntry) : Bool := e.code == 0x08 || (e.code == 0x06 && e.state == 7)

/-- An entry that the scan of the journal completes (R530). -/
def JEntry.unsettled (e : JEntry) : Bool := e.acrcOk && !e.restarts && (!e.ocrcOk || decide (e.ostat = 0))

/-- LIFECYCLE_ADVANCE and OPEN_DEBUG: their outcome is what the transition count shows (R530). -/
def JEntry.transits (e : JEntry) : Bool := e.code == 0x0E || e.code == 0x0F

/-- The scan of the journal at BOOT (R528, R530): every entry it completes sets JNL_EVT.DONE. -/
def State.scanJournal (s : State) : State :=
  let fix := fun (e : JEntry) =>
    if !e.unsettled then e
    else
      let made := e.transits && e.made
      { e with ostat := if made then 1 else if e.transits ∨ e.ostat = 0 then 4 else 6, ocode := 0,
               odata := if made ∧ e.code = 0x0F then s.sec.lc.code else 0,
               dur := sat 32 ((s.ts - e.at_) / usTs), ocrcOk := true, doneAt := s.ts }
  let t : State := { s with jnl.entries := s.jnl.entries.map fix, jnl.queue := [], jnl.wait := [], jnl.fw := none, jnl.run := none }
  t.when (s.jnl.entries.any JEntry.unsettled) fun t => t.orReg rJnlEvt 2

/-- The entries of restarts complete with the state reached, the slot loaded and the codes of the slots (R485, R521, R530). A restart that
still waits in the queue is not yet such. -/
def State.endRestarts (s : State) : State :=
  let odata := s.sys.st.code + 16 * s.img.slot + 2 ^ 8 * s.img.aCode + 2 ^ 16 * s.img.bCode
  let es := s.jnl.entries.filter fun e =>
    e.acrcOk && e.restarts && (decide (e.ostat = 0) || !e.ocrcOk) && !(s.jnl.queue.any fun q => q.seq == e.seq)
  es.foldl (fun s e => s.complete e.seq 1 0 odata) s

/-- Enter HOLD (R455, R482). -/
def State.toHold (s : State) (cause : Nat) : State :=
  let s := { s with sys.holdCause := cause, sys.restartHold := false, img.valid := false }
  let s := ((s.goState .hold).unitsOff).endRestarts
  s.when (cause = 1 ∨ cause = 2) fun s => s.raise evCfgHold 0 0 0

/-- Enter WIPED (R455, R506, R509). With debug opened the control core is held halted at its reset state (R511). -/
def State.toWiped (s : State) : State :=
  let s := { s with sys.restartHold := false, img.valid := false }
  let s := ((s.goState .wiped).unitsOff.closeAll).endRestarts
  if s.sec.debugOpened ∧ !s.sec.zeroising then { s with core.st := 4 } else s

/-- Full zeroisation (R496, R497, R514): the volatile items cleared, a new salt, the keys gone. The device seed and KFAM stand; with the new
salt the seed no longer gives the KWRAP of before. -/
def State.zeroise (s : State) : State :=
  { s.volatileClear.newSalt with sec.idKey := none, sec.transient := false, sec.slots := Vector.replicate 4 .empty, sec.imgFloor := 0 }

/-- The Lagg die orders a wipe of the secure window (R422): the buffered core stores to it are discarded. -/
def State.orderWipe (s : State) : State :=
  let keep := fun (e : SbEnt) => decide (e.addr + e.data.length ≤ 0x1C0000) || decide (0x200000 ≤ e.addr)
  { s with mtx.wiping := true, core.sb := s.core.sb.filter keep }

/-- The steps of a transition up to the new record are still going on: free while their longest time has not passed (R508; log 114). -/
def State.transitionCut (s : State) : Bool :=
  match s.sec.undo with
  | some u => decide (s.ts < u.since + u.span) && s.freeNat 1 == 1
  | none => false

/-- A transition whose step 6 was not reached has not happened; the wipes already made stand (R508). Its entry's outcome is given. -/
def State.undoTransition (s : State) (ostat ocode odata : Nat) : State :=
  match s.sec.undo with
  | some u =>
    if !s.transitionCut then ({ s with sec.undo := none } : State).tick 1
    else
      let back := fun (e : JEntry) =>
        if e.seq = u.seq then { e with made := false, ostat := ostat, ocode := ocode, odata := odata, doneAt := s.ts } else e
      (({ s with sec.undo := none, sec.lc := u.old.lc, sec.transitions := u.old.transitions, sec.debugOpened := u.old.debugOpened,
                 sec.scope := u.old.scope, sec.tmpEn := u.tmpEn, sec.slots := Vector.replicate 4 .empty, sec.idKey := u.idKey,
                 otp.scrapped := u.scrapped, jnl.entries := s.jnl.entries.map back } : State).recordCopy).tick 1
  | none => s

/-- The scrub of the secure partition ends (R514): life cycle RETURNED, the pending mark cleared. Not a counted transition (DEDUCED, log 18). -/
def State.scrubEnd (s : State) : State :=
  let old := s.sec.lc.code
  let lc := if s.otp.scrapped then LifeCycle.scrapped else LifeCycle.returned
  let s := ({ s with sec.lc := lc, sec.zeroising := false, sec.pendMark := false, sec.tmpEn := 0 } : State).recordCopy
  s.peatSec 2 0 old lc.code

/-- A transient identity key at BOOT (R517): in BLANK, and after a zeroisation until the next provisioning. Without random bits there is no
key (R495), and one that fails its pairwise test is discarded (R494). -/
def State.transientKey (s : State) : State :=
  if s.sec.idKey = none ∨ s.sec.transient then
    let (n, t) := s.draw
    let good := !s.sec.entropyFail && Config.pairwiseOk n
    { t with sec.idKey := if good then some n else none, sec.transient := good }
  else s

/-- BOOT keeps the processing die in reset: an ENV condition persists (R515), or either die is too warm after a thermal shutdown (R576). -/
def State.bootHeld (s : State) : Bool :=
  s.sec.env || (s.clk.shutdown && (decide (1000 ≤ s.clk.tPd) || decide (1000 ≤ s.clk.tLd)))

/-- The self-tests have passed in this BOOT (R494). -/
def State.testsPassed (s : State) : Bool := decide (s.sec.selftest = 0x1FF)

/-- VERIFY begins with slot `n`. -/
def State.verifySlot (s : State) (n : Nat) : State :=
  ({ s with img := { s.img with slot := n, fallback := false, sects := [], done := 0, staged := [], flags := 0, svn := 0,
                                keySlot := 0, reread := false } } : State).goState .verify

/-- The endpoint trains its link once PERST_N is high and the processing die is released (R545). -/
def State.linkTrain (s : State) : State :=
  if s.pcie.perst ∨ !s.sys.pdReleased ∨ s.pcie.linkUp ∨ s.pcie.train.2 = 0 then s
  else { s with pcie := { s.pcie with linkUp := true, flr := false, speed := s.pcie.train.1, width := s.pcie.train.2 } }

/-- BOOT goes on once the tests have passed and nothing holds it: the processing die is released (R11, R455, R485). KWRAP is that of this BOOT,
a tamper during which cleared it (R496, R514). -/
def State.bootGo (s : State) : State :=
  if s.sys.st ≠ .boot ∨ !s.testsPassed ∨ s.bootHeld then s
  else
    let s := ({ s.deriveKwrap with sys.pdReleased := true, clk.shutdown := false } : State).linkTrain
    if s.otp.scrapped ∨ s.sec.lc = .returned ∨ s.sec.lc = .scrapped ∨ s.sec.debugOpened then s.toWiped
    else if s.sec.lc = .owned then
      if s.sys.restartHold then s.toHold 3 else s.verifySlot s.img.sel
    else s.toHold 2

/-- The code field of a slot. -/
def State.setSlotCode (s : State) (n code : Nat) : State :=
  if n = 0 then { s with img.aCode := code } else { s with img.bCode := code }

def State.slotCode (s : State) (n : Nat) : Nat := if n = 0 then s.img.aCode else s.img.bCode

/-- The slot being tried is bad (R469, R470): its code and the load-error report, then the other slot or HOLD. -/
def State.slotBad (s : State) (code sect rec_ word : Nat) : State :=
  let n := s.img.slot
  let s := (s.setSlotCode n code).setReg rCfgErr (w32 (fldsOr [(31, 24, code), (23, 16, sect), (15, 0, rec_)]))
  let s := s.setReg rCfgErrAux (w32 (fldsOr [(10, 0, word)]))
  let s := if s.sys.st = .load then s.spmClear else s
  let s := { s with img.fallback := false, img.ended := s.img.ended || decide (s.sys.st = DState.load), img.staged := [], img.sets := [], img.tabs := [], img.recipes := [], img.policy := [], img.plan := [], img.valid := false }
  let other := 1 - n
  if s.slotCode other = 0xFF then s.pdReset.verifySlot other
  else s.toHold 1

end Sys2Proof.Machine
end

