-- ==== Sys2Proof/Machine/RegOps.lean ====
section
/-! DEFINITION. Fields of registers: reserved bits, reserved encodings, the values a list of presets may write (R477, R552, R555, R592). -/
namespace Sys2Proof.Machine

/-- The value of a field in word `w`. -/
def RField.val (f : RField) (w : Nat) : Nat := bitsN w f.hi f.lo

/-- A field may hold value `v` in a register whose reset value is `rst` (R592): a value in its range, or its reset value. -/
def RField.allows (f : RField) (rst v : Nat) : Bool :=
  f.ok.isEmpty || (f.ok.any fun r => decide (r.1 ≤ v) && decide (v ≤ r.2)) || v == f.val rst

/-- A bit of `w` is set that belongs to no field of the row. -/
def RSpec.setsReserved (r : RSpec) (w : Nat) : Bool :=
  (List.range 32).any fun i => bitN w i && !r.fields.any fun f => decide (f.lo ≤ i) && decide (i ≤ f.hi)

/-- Fields software can write values into. -/
def RSpec.rwFields (r : RSpec) : List RField := r.fields.filter fun f => f.acc == .rw

/-- Blocks whose registers no preset may name (R477). -/
def presetBarred (o : Nat) : Bool :=
  let b := o / 65536
  b == 0x0 || b == 0x9 || b == 0x5 || b == 0x4 || b == 0x7 || decide (0x100 ≤ b) || (b == 0x3 && o != rEruCtrl)

/-- The multiples a field's value must be of, beside its range: DMA lengths of 4 (R433). -/
def fieldStep (o : Nat) (f : RField) (v : Nat) : Bool :=
  !(decide (rMtxDmaSrc 0 ≤ o) && decide (o < rMtxDmaSrc 4) && o % 16 == 8 && f.lo == 0) || v % 4 == 0

/-- An entry of the preset list is good (R477, R592). -/
def presetOk (o w : Nat) : Bool :=
  match regSpec o with
  | none => false
  | some r => !presetBarred o && decide (r.rwFields ≠ []) && !r.setsReserved w && r.rwFields.all fun f => f.allows r.reset (f.val w) && fieldStep o f (f.val w)

/-- `w` with the fields `fs` taken from `v`. -/
def putFields (fs : List RField) (v : Nat) (w : Word) : Word := fs.foldl (fun w f => putBits w f.hi f.lo (f.val v)) w

/-- A write of a consumer index (R559): past the producer index it is ignored. -/
def State.recCiWrite (s : State) (v : Nat) : State :=
  let r := s.res.recR
  if (r.pi + 2 ^ 32 - r.ci) % 2 ^ 32 < (v + 2 ^ 32 - r.ci) % 2 ^ 32 then s.orReg rPcieEvt 16
  else { s with res.recR := { r with ci := v } }

def State.clipCiWrite (s : State) (v : Nat) : State :=
  let r := s.res.clipR
  if (r.pi + 2 ^ 32 - r.ci) % 2 ^ 32 < (v + 2 ^ 32 - r.ci) % 2 ^ 32 then s.orReg rPcieEvt 16
  else { s with res.clipR := { r with ci := v } }

/-- A preset is written (R467, R477): the RW fields take the value. -/
def State.presetWrite (s : State) (o w : Nat) : State :=
  match regSpec o with
  | some r =>
    if o = rPcieDbRecCi then s.recCiWrite w
    else if o = rPcieDbClipCi then s.clipCiWrite w
    else s.setReg o (putFields r.rwFields w (s.reg o))
  | none => s

/-- A register holds in some field a value outside its stated range: its reset value (R592). -/
def State.outOfRange (s : State) (o : Nat) : Bool :=
  match regSpec o with
  | some r => r.rwFields.any fun f => !f.ok.isEmpty && !f.ok.any fun x => decide (x.1 ≤ f.val (s.reg o).toNat) && decide (f.val (s.reg o).toNat ≤ x.2)
  | none => false

/-- The rules that join registers (R17, R52, R59, R61, R439, R592), on final values of the preset list. -/
def State.jointOk (s : State) : Bool :=
  let gens := (List.range 32).filter s.gEn
  let balls := (gens.filter fun g => s.gOut g % 2 == 1).map s.gBall
  let ph := (gens.filter fun g => s.rbit (rPosTgPhase g) 21).map fun g => s.rf (rPosTgPhase g) 20 16
  let ports := (List.range 8).filter fun p => s.rbit (rGdcPCtrl p) 0
  let z := (List.range 16).all fun d => !(s.dEn d && s.dPsSrc d == 1) || s.rbit (rIoxEncCfg (s.dEncSel d)) 3
  -- one encoder domain for each encoder (R17; DEDUCED, log 82)
  ((List.range 4).all fun n => decide (((List.range 16).filter fun d => s.dEn d && s.dSource d == 0 && s.dEncSel d == n).length ≤ 1)) &&
  balls.eraseDups.length == balls.length &&
  (ph.flatMap fun b => [b, b + 1]).eraseDups.length == 2 * ph.length && z &&
  (ports.all fun p => ports.all fun q => s.rf (rGdcPCtrl p) 5 1 == s.rf (rGdcPCtrl q) 5 1) &&
  ((List.range 32).all fun n => s.rf (rIglLCtrl n) 1 0 == 0 || !s.outOfRange (rIglLLine n)) &&
  ((List.range 32).all fun n => !s.rbit (rLcuSCtrl n) 0 || s.lcuRole n == 2 || (!s.outOfRange (rLcuSOutw n) && !s.outOfRange (rLcuSRlines n))) &&
  ((List.range 32).all fun n => !s.stitchL n || s.lcuRole n == 2 || !s.outOfRange (rLcuSStitchL n)) &&
  (!s.rbit rResCtrl 0 || (!s.outOfRange rResRecCfg && !s.outOfRange rResClipCfg)) &&
  ((List.range 8).all fun n => !s.rbit (rResMkCtrl n) 0 || !s.outOfRange (rResMkTime n)) &&
  ((List.range 8).all fun w => !s.winEn w || !s.outOfRange (rMtxWinCtrl w))

end Sys2Proof.Machine
end

