-- ==== Sys2Proof/Machine/SecOps.lean ====
section
/-! DEFINITION. The security functions of the Lagg die: the claim of the token buffer, the check and the services of tokens, life-cycle
transitions, tamper, attestation (R491 to R519). -/
namespace Sys2Proof.Machine

/-- The field of `k` bytes at offset `o` of the token in SEC_BUF (R500). -/
def State.tokBytes (s : State) (o k : Nat) : List Byte := memGetBytes ramDefault s.sec.buf o k
def State.tok (s : State) (o k : Nat) : Nat := leNat (s.tokBytes o k)

def State.tokType (s : State) : Nat := s.tok 4 1
def State.tokSigner (s : State) : Nat := s.tok 5 1
def State.tokArg (s : State) : Nat := s.tok 6 1
def State.tokPub (s : State) : List Byte := s.tokBytes 48 64
def State.tokPayload (s : State) : List Byte := s.tokBytes 112 64

/-- The signer is an owner slot. -/
def State.tokOwner (s : State) : Bool := decide (s.tokSigner < 4)

/-- The paths of R503: the SEC_SVC register, LIFECYCLE_ADVANCE, OPEN_DEBUG. -/
inductive TokPath where
  | svc | advance | debug
  deriving DecidableEq, Repr

/-- Check 2: MAGIC "KTOK", TYPE, reserved fields, and the fields that are 0 for other types. -/
def State.tokFormat (s : State) : Bool :=
  let t := s.tokType
  decide (s.tok 0 4 = 0x4B4F544B) && decide (1 ≤ t) && decide (t ≤ 9) && decide (s.tok 7 1 = 0) && decide (s.tok 178 14 = 0) &&
  (t == 7 || decide (s.tok 176 2 = 0)) && (t == 2 || t == 8 || decide (s.tok 112 64 = 0)) &&
  (t == 5 || t == 8 || t == 9 || decide (s.tokArg = 0))

/-- Check 5: the life-cycle states and the path of each type (R503, R504). -/
def State.tokAllowed (s : State) (path : TokPath) : Bool :=
  let lc := s.sec.lc
  match s.tokType with
  | 1 => path = .advance && lc = .blank
  | 2 => path = .advance && lc = .provisioned
  | 3 => path = .advance && lc = .owned
  | 4 => path = .advance && lc ≠ .scrapped
  | 5 => path = .debug && lc ≠ .scrapped
  | 6 => path = .advance && lc = .returned
  | 7 | 8 | 9 => path = .svc && lc = .owned
  | _ => false

/-- Check 6: the signer's kind for the type, and that it is who it says. The key of an owner slot is wrapped under KWRAP (R496). -/
def State.tokSignerOk (s : State) : Bool :=
  let owned := decide (s.sec.lc = .owned)
  let kind := match s.tokType with
    | 3 => true
    | 4 | 5 => s.tokOwner == owned
    | 7 | 8 | 9 => s.tokOwner
    | _ => !s.tokOwner
  let g := s.tokSigner
  let good :=
    if g < 4 then s.unwraps && decide (atV s.sec.slots g .empty = .active s.tokPub)
    else if 0x10 ≤ g ∧ g ≤ 0x13 then
      let h := atV s.otp.rootHash (g - 0x10) []
      decide (h ≠ []) && decide (h = fitBytes 32 (Config.shake256 s.tokPub)) && !(atV s.otp.rootRevoked (g - 0x10) true)
    else false
  kind && good

/-- An owner slot is ACTIVE. -/
def State.slotActive (s : State) (i : Nat) : Bool :=
  match atV s.sec.slots i .empty with
  | .active _ => true
  | _ => false

/-- Check 8: the service's own conditions (R505, R506, R510). -/
def State.tokConditions (s : State) (who : Nat) : Bool :=
  let a := s.tokArg
  match s.tokType with
  | 5 => decide (a < 8) && !(bitN a 2 && s.tokOwner)
  | 7 => decide (s.tok 176 2 = who) && decide (who ≠ 0x3FF)
  | 8 => decide (a < 4) && decide (atV s.sec.slots a .revoked = .empty)
  | 9 => decide (a < 4) && s.slotActive a && (List.range 4).any fun i => i != a && s.slotActive i
  | _ => true

/-- Check 9: the random bits of a key generation, and its pairwise test (R494, R495). -/
def State.tokRandom (s : State) : Bool :=
  if s.tokType = 1 ∨ s.tokType = 6 then !s.sec.entropyFail && Config.pairwiseOk s.sec.drawn else true

/-- The result of the checks of R500 for a token submitted by requester `who` over `path`. -/
def State.tokenCheck (s : State) (who : Nat) (path : TokPath) : Nat :=
  match s.sec.claim with
  | none => 1
  | some c =>
    if c.holder ≠ who then 1
    else if !s.tokFormat then 2
    else if s.tok 8 8 ≠ s.otp.serial then 3
    else if c.chal ≠ some (s.tokBytes 16 32) then 4
    else if !s.tokAllowed path then 5
    else if !s.tokSignerOk then 6
    else if !Config.slhVerify s.tokPub (s.tokBytes 0 192) (s.tokBytes 192 29792) then 7
    else if !s.tokConditions who then 8
    else if !s.tokRandom then 9
    else 0

/-- The result of a token stands in SEC_SVC; its claim ends and its challenge is discarded (R500, R501, R518). A token without a claim of
its submitter ends nobody's claim. -/
def State.tokDone (s : State) (r t : Nat) : State :=
  let s := { s with sec := { s.sec with result := r, svcType := t, svcAppr := s.sec.approved, claim := if r = 1 then s.sec.claim else none } }
  (s.orReg rSecEvt 1).when (r ≠ 0) fun s => s.raise evSecTokenFail 0 0 0

/-- SESSION (R506): a session of its requester, in place of an earlier one; a ninth fabric session replaces the one idle longest. -/
def State.openSession (s : State) (who slot : Nat) : State :=
  let x : Session := { req := who, slot := slot, last := s.ts }
  if who = 0x200 then { s with sec.host := some x }
  else
    let l := s.sec.fabs.filter fun y => y.req != who
    let l := if 8 ≤ l.length then
        match l.foldl (fun (b : Option Session) y => match b with
          | none => some y
          | some z => if y.last < z.last then some y else some z) none with
        | some z => l.filter fun y => y.req != z.req
        | none => l
      else l
    { s with sec.fabs := l ++ [x] }

/-- ENROL and REVOKE (R505). -/
def State.enrol (s : State) (i : Nat) (key : List Byte) : State :=
  ({ s with sec.slots := setV s.sec.slots i (.active key) } : State).raise evSecKeyChange 0 0 0

def State.revoke (s : State) (i : Nat) : State :=
  let keep := fun (x : Session) => x.slot != i
  ({ s with sec.slots := setV s.sec.slots i .revoked, sec.host := s.sec.host.filter keep, sec.fabs := s.sec.fabs.filter keep } : State).raise
    evSecKeyChange 0 0 0

/-- The longest that steps 1 to 6 of a transition take: the scrub of a full zeroisation (R514), the generation of the identity key (R499), the
wipe of the secure window (R422). -/
def transitionSpan (t : Nat) : Nat :=
  if t = 3 ∨ t = 4 ∨ t = 5 then 60 * msTs else if t = 1 ∨ t = 6 then 50 * msTs else 15 * usTs

/-- Steps 1 to 7 of R508 for token type `t` with argument `arg` and payload `key`, up to the journal outcome. A full zeroisation leaves the
DRBG to start anew, as a device in WIPED attests (R508; DEDUCED, log 18). -/
def State.transition (s : State) (seq t arg : Nat) (key : List Byte) : State :=
  let old := s.sec.lc.code
  let before := s
  let made := fun (e : JEntry) => if e.seq = seq then { e with made := true } else e
  let s := { s.closeAll with sec.claim := none }
  let s := s.outputsSafe.orderWipe
  let s := { s with sec.slots := Vector.replicate 4 .empty, sec.imgFloor := 0 }
  let s := if t = 3 ∨ t = 4 ∨ t = 5 then s.zeroise else s
  let s := if t = 1 ∨ t = 6 then
      let x := s.draw
      { x.2.newSalt.deriveKwrap with sec.idKey := some x.1, sec.transient := false }
    else s
  let s := if t = 2 then { s.deriveKwrap with sec.slots := setV s.sec.slots 0 (.active key) } else s
  let lc := match t with
    | 1 | 6 => LifeCycle.provisioned
    | 2 => .owned
    | 4 => .scrapped
    | _ => .returned
  let s := { s with otp.scrapped := s.otp.scrapped || t == 4,
                    sec.lc := lc, sec.transitions := s.sec.transitions + 1, sec.tmpEn := 0,
                    sec.debugOpened := if t = 5 then true else if t = 6 then false else s.sec.debugOpened,
                    sec.scope := if t = 5 then arg else if t = 6 then 0 else s.sec.scope,
                    sec.drbg := !s.sec.entropyFail,
                    sec.undo := some { seq := seq, since := s.ts, span := transitionSpan t, old := before.sec.record, tmpEn := before.sec.tmpEn,
                                       scrapped := before.otp.scrapped, idKey := if t = 2 then s.sec.idKey else none,
                                       st := before.sys.st },
                    jnl.entries := s.jnl.entries.map made }
  (s.recordCopy.peatSec 2 0 old lc.code).raise evSecLcChange 0 0 0

/-- The device state after a transition (R509). -/
def State.afterTransition (s : State) (t : Nat) : State :=
  match t with
  | 1 | 6 => s.toHold 2
  | 2 => s.toHold 4
  | _ => s.toWiped

/-- The claimed token is processed as SESSION, ENROL or REVOKE (R503). -/
def State.goService (s : State) (who : Nat) : State :=
  let t := s.tokType
  let r := s.tokenCheck who .svc
  let signer := s.tokSigner
  let arg := s.tokArg
  let key := s.tokPayload
  let s := s.tokDone r t
  if r ≠ 0 then s
  else match t with
    | 7 => s.openSession who signer
    | 8 => s.enrol arg key
    | _ => s.revoke arg

/-- The token commands that were accepted and have not been executed, newest first by number. -/
def State.tokenQueue (s : State) : List Nat := (s.jnl.queue.filter fun q => q.code == 0x0E || q.code == 0x0F).map (·.seq)

/-- A write of GO (R503): the service follows the token commands accepted before it. -/
def State.secGo (s : State) (who : Nat) : State :=
  match s.tokenQueue with
  | [] => s.goService who
  | l => { s with sec.goWait := some (who, l.foldl max 0) }

/-- A GO that waited runs once the token commands accepted before it have been executed (R503). -/
def State.goNext (s : State) : State :=
  match s.sec.goWait with
  | some (who, n) => if s.tokenQueue.any (fun q => decide (q ≤ n)) then s else ({ s with sec.goWait := none } : State).goService who
  | none => s

/-- LIFECYCLE_ADVANCE and OPEN_DEBUG at execution (R508, R511, R521, R529): the outcome, and on success the transition. A key that fails its
pairwise test is discarded (R494). -/
def State.tokenCommand (s : State) (q : QCmd) (path : TokPath) : State :=
  let t := s.tokType
  let r := s.tokenCheck (reqId q.req) path
  let arg := s.tokArg
  let key := s.tokPayload
  let s := s.tokDone r t
  if r ≠ 0 then (s.when (r = 9 ∧ !s.sec.entropyFail) fun s => s.draw.2).endCmd q 2 6 r
  else
    let s := s.transition q.seq t arg key
    (s.endCmd q 1 0 (if path = .debug then 0 else s.sec.lc.code)).afterTransition t

/-- SEC_CLAIM.CLAIM by `who` (R501): a free buffer and a fresh challenge, unless random bits are refused (R495). -/
def State.secClaim (s : State) (who : Nat) : State :=
  if s.sec.claim.isSome ∨ s.sec.entropyFail then s
  else
    let c := s.freeBytes 32
    ({ s with sec.claim := some { holder := who, chal := some c, last := s.ts }, sec.drbg := true } : State).tick 32

/-- SEC_CLAIM.RELEASE by `who`. -/
def State.secRelease (s : State) (who : Nat) : State :=
  match s.sec.claim with
  | some c => if c.holder = who then { s with sec.claim := none } else s
  | none => s

/-- Whether `who` holds the claim, or nobody does. -/
def State.claimOpen (s : State) (who : Nat) : Bool :=
  match s.sec.claim with
  | some c => decide (c.holder = who)
  | none => true

/-- A write of the claim's holder keeps the claim (R501). -/
def State.claimTouch (s : State) (who : Nat) : State :=
  match s.sec.claim with
  | some c => if c.holder = who then { s with sec.claim := some { c with last := s.ts } } else s
  | none => s

/-- A continuous test of the noise source fails: the DRBG stops (R495). -/
def State.entropyFails (s : State) : State :=
  (({ s with sec.entropyFail := true, sec.approved := false, sec.drbg := false } : State).orReg rSecEvt 8).raise evSecEntropyFail 0 0 0

/-- A read of the random window (R501): 32 fresh bits, or none when they are refused. -/
def State.randomRead (s : State) : Option Nat × State :=
  if s.sec.entropyFail then (none, s) else (some (s.freeNat 32), ({ s with sec.drbg := true } : State).tick 1)

/-- A PHYS tamper's full zeroisation, whose scrub is pending (R514). -/
def State.tamperZeroise (s : State) : State := { s.zeroise with sec.pendMark := true, sec.zeroising := true }

/-- A tamper during an ENV response, at most 100 µs long, may be a PHYS one, which then continues as PHYS (R515); whether the response was still
going on is free (log 113). -/
def State.tamperAgain (s : State) (c : Nat) : State :=
  match s.sec.envAt with
  | some t =>
    if 4 ≤ c ∧ s.ts < t + 100 * usTs ∧ s.freeNat 1 = 1 then ({ s with sec.envAt := none } : State).tamperZeroise.tick 1 else s.tick 1
  | none => s

/-- A tamper of sensor `c` (R512 to R515, R518): codes 1 to 3 are ENV, 4 to 9 PHYS. Once one has been answered, those in FAULT_STOP are counted;
a transition still going on is aborted with result 10, and the device is in the state of before. -/
def State.tamper (s : State) (c : Nat) : State :=
  if 6 ≤ c ∧ !bitN s.sec.tmpEn (c - 6) then s
  else
    let cut := s.transitionCut
    let again := s.sec.answered && decide ((if cut then (s.sec.undo.map (·.st)).getD s.sys.st else s.sys.st) = .faultStop)
    let s := ({ s with sec.tampers := s.sec.tampers + 1, sec.lastTamper := c, sec.env := s.sec.env || decide (c ≤ 3) } : State).recordCopy
    if again then s.tamperAgain c
    else
      let st := (s.sec.undo.map (·.st)).getD s.sys.st
      let s := s.undoTransition 2 6 10
      let s := s.when cut fun s => ({ s with sec.result := 10, sys.st := st } : State).raise evSecTokenFail 0 0 0
      let lc := s.sec.lc.code
      let s : State := { s.volatileClear with sec.answered := true, sec.envAt := if c ≤ 3 then some s.ts else none }
      let s := s.outputsSafe.orderWipe
      let s := s.when (4 ≤ c) State.tamperZeroise
      (s.peatSec 1 c lc lc).raise evSecTamper 0 c 0

/-- The report of R516 before its signature. -/
def State.attestReport (s : State) (nonce : List Byte) : List Byte :=
  let w := fun (o : Nat) => (s.viewReg .bridge o).toNat
  let loaded := s.img.valid
  let act := maskOf 4 fun i => s.slotActive i
  let rev := maskOf 4 fun i => decide (atV s.sec.slots i .empty = .revoked)
  let pub := match s.sec.idKey with
    | some k => Config.slhPub k
    | none => []
  leBytes 4 0x5454414B ++ leBytes 2 1 ++ leBytes 1 s.sec.lc.code ++
  leBytes 1 (fldsOr [(0, 0, b2n s.sec.debugOpened), (1, 1, b2n s.sec.approved), (2, 2, b2n s.img.fallback), (3, 3, b2n s.sec.transient)]) ++
  leBytes 8 s.otp.serial ++ leBytes 1 s.sys.st.code ++ leBytes 1 (w rSysGrade) ++ leBytes 2 s.psq.patchVer ++
  leBytes 4 Config.romVersion.toNat ++ leBytes 4 Config.microcodeVersion.toNat ++ leBytes 4 (w rCfgImgSvn) ++
  leBytes 4 (w rCfgImgIdLo) ++ leBytes 4 (w rCfgImgIdHi) ++ leBytes 8 s.jnlHead ++ leBytes 8 s.cen.epoch ++ leBytes 8 s.fabricTime ++
  fitBytes 32 nonce ++
  (if loaded then fitBytes 32 s.configDigest else leBytes 32 0) ++
  (if loaded then (List.range 8).flatMap (fun i => leBytes 4 (w (rCfgManifest i))) else leBytes 32 0) ++
  fitBytes 32 (Config.shake256 (fitBytes 64 pub)) ++ leBytes 1 act ++ leBytes 1 rev ++ leBytes 2 0 ++ leBytes 4 s.sec.tampers ++
  leBytes 56 0

/-- ATTEST at execution (R516, R521, R529): refused without random bits, failed when the report cannot be written. Without an identity
key, or without the KWRAP that unwraps it, between a tamper or a zeroisation and the next BOOT, the signature's bytes are free values (DEDUCED,
log 18). -/
def State.attest (s : State) (q : QCmd) : State :=
  let hAddr := fieldAt q.desc 48 8
  if hAddr % 64 ≠ 0 then s.endCmd q 2 3 0
  else if s.sec.entropyFail then s.endCmd q 2 0x0A 0
  else if !s.busMaster then s.endCmd q 3 0x13 0
  else
    let rep := s.attestReport (bslice q.desc 16 32)
    let sig := match s.sec.idKey.filter fun _ => s.unwraps with
      | some k => fitBytes 49856 (Config.slhSign k rep)
      | none => s.freeBytes 49856
    ((s.tick 49856).send (.hostWrite hAddr (rep ++ sig))).endCmd q 1 0 50112

end Sys2Proof.Machine
end

