-- ==== Sys2Proof/Machine/SetCheck.lean ====
section
/-! DEFINITION. The loader's checks of a schedule set and of a table set that need only the section's own bytes (R127, R145, R146, R158,
R174, R211, R223, R226 to R232, R236). A failed check answers its code, the record index and the move word. -/
namespace Sys2Proof.Machine

/-- Bytes `lo` to `hi` - 1 are all 0. -/
def zerosAt (b : List Byte) (lo hi : Nat) : Bool := (List.range (hi - lo)).all fun i => b.getD (lo + i) 0 == 0

/-- The first failing check of a list of checks. -/
def firstBad {α : Type} (l : List (Option α)) : Option α := l.findSome? id

/-- The failure `c` unless the condition holds. -/
def need {α : Type} (ok : Bool) (c : α) : Option α := if ok then none else some c

/-- Slot `i` of a move word: kind, bits 15:8, bits 7:0 (R142). -/
def mvSlot (w i : Nat) : Nat × Nat × Nat :=
  let v := bitsN w (16 + 18 * i + 17) (16 + 18 * i)
  (bitsN v 17 16, bitsN v 15 8, bitsN v 7 0)

/-- The unit a trigger socket belongs to (R147): two triggers of one unit in one word are refused (R145). -/
def trigUnit (d : Nat) : Option Nat :=
  if inRng 0x02 0x1F d then some 0 else if inRng 0x22 0x3F d then some 1 else if inRng 0x42 0x49 d then some 2
  else if inRng 0x52 0x59 d then some 3 else if inRng 0x63 0x6A d then some 4 else if inRng 0x71 0x73 d then some 5
  else if inRng 0x7A 0x7D d then some 6
  else if inRng 0x84 0x85 d then some 7 else if inRng 0x86 0x87 d then some 8
  else if inRng 0x88 0x89 d then some 9 else if inRng 0x8A 0x8B d then some 10
  else if inRng 0x90 0x93 d then some (d - 0x90 + 11) else if inRng 0x99 0x9A d then some 15 else if d = 0x9C then some 16 else none

/-- A list holds no value twice. -/
def noTwice (l : List Nat) : Bool := l.eraseDups.length == l.length

/-- Destinations of the moves and short immediates of a word. -/
def mvDsts (w : Nat) : List Nat :=
  (List.range 8).filterMap fun i => let v := mvSlot w i; if v.1 = 1 ∨ v.1 = 2 then some v.2.1 else none

/-- The rules of R145 on one word. NULL is taken as a socket like any other (DEDUCED, log 19). -/
def mvWordOk (w : Nat) : Bool :=
  decide (bitsN w 4 0 = 0) &&
  ((List.range 8).all fun i => let v := mvSlot w i; v.1 != 0 || (v.2.1 == 0 && v.2.2 == 0)) &&
  noTwice (mvDsts w) && noTwice ((mvDsts w).filterMap trigUnit) &&
  !(bitN w 7 && (mvDsts w).any fun d => inRng 0x7A 0x7D d)

/-- The rules of R158 on one word: sources of the SEQ sockets, REPEAT of a loop trigger. -/
def mvSeqOk (w : Nat) : Bool :=
  (List.range 8).all fun i =>
    let v := mvSlot w i
    let seq := v.2.1 == 0x9B || v.2.1 == 0x9C
    !(v.1 == 1 && seq && v.2.2 != 0xEC && v.2.2 != 0xED) && !((v.1 == 1 || v.1 == 2) && v.2.1 == 0x9C && bitsN w 15 8 != 0)

/-- The fixed execution path of a program (R144, R157): where it stands. -/
structure PathSt where
  pc : Nat
  cyc : Nat
  hollow : Nat
  k : Nat × Nat
  count : Nat
  /-- active loops, innermost first: first word, last word, iterations left -/
  loops : List (Nat × Nat × Nat)
  deriving DecidableEq, Repr

/-- Close the loops that end at word `pc`: the next word and the loops still active. -/
def loopEnd : Nat → List (Nat × Nat × Nat) → Nat × List (Nat × Nat × Nat)
  | pc, [] => (pc + 1, [])
  | pc, (a, z, left) :: r =>
    if z ≠ pc then (pc + 1, (a, z, left) :: r)
    else if 1 < left then (a, (a, z, left - 1) :: r)
    else loopEnd pc r

/-- A constant of `k` with the constant-lane slots of word `w` written (R142). -/
def mvConsts (w : Nat) (k : Nat × Nat) : Nat × Nat :=
  (List.range 8).foldl (fun k i =>
    let v := mvSlot w i
    if v.1 = 3 then
      let x := v.2.1 * 256 + v.2.2
      if bitN w 5 then (k.1, putBitsN k.2 (16 * i + 15) (16 * i) x) else (putBitsN k.1 (16 * i + 15) (16 * i) x, k.2)
    else k) k

/-- The value a word moves into SEQ socket `d`, lane 0. -/
def mvSeqVal (w d : Nat) (k : Nat × Nat) : Option Nat :=
  (List.range 8).findSome? fun i =>
    let v := mvSlot w i
    if v.2.1 ≠ d then none
    else if v.1 = 1 then some ((if v.2.2 = 0xEC then k.1 else k.2) % 65536)
    else if v.1 = 2 then some (unsigned 16 (signed 8 v.2.2))
    else none

/-- Walk the path of a program over the words of `mv`, at most `budget` cycles: the failure with its code and word, or the hollow
count (R144, R158, R231). K0, K1 and SEQ.o.count begin at 0 (DEDUCED, log 19). -/
def pathWalk (mv : Nat → Nat) (budget : Nat) : Nat → PathSt → (Nat × Nat) ⊕ Nat
  | 0, p => .inl (0x46, p.pc)
  | fuel + 1, p =>
    if 2047 < p.pc then .inl (0x46, 2047)
    else
      let w := mv p.pc
      let n := bitsN w 15 8 + 1
      let cyc := p.cyc + n
      let hollow := p.hollow + if bitN w 7 then n else 0
      if budget < cyc then .inl (0x46, p.pc)
      else
        -- from the second execution of a repeated word on, its own constants are read (R143, R144)
        let count := (mvSeqVal w 0x9B (if 1 < n then mvConsts w p.k else p.k)).getD p.count
        let body := (mvSeqVal w 0x9C p.k).map (· % 2048)
        let k := mvConsts w p.k
        let bad := match body with
          | some b =>
            let z := p.pc + b
            b == 0 || decide (2047 < z) || (match p.loops with
              | (_, e, _) :: _ => decide (e < z)
              | [] => false) || decide (4 ≤ p.loops.length) ||
            (List.range b).any fun i => bitN (mv (p.pc + 1 + i)) 6
          | none => false
        if bad then .inl (0x45, p.pc)
        else if bitN w 6 then (if p.loops = [] then .inr hollow else .inl (0x45, p.pc))
        else
          let (pc, loops) := match body with
            | some b => if count = 0 then loopEnd (p.pc + b) p.loops else (p.pc + 1, (p.pc + 1, p.pc + b, count) :: p.loops)
            | none => loopEnd p.pc p.loops
          pathWalk mv budget fuel { pc := pc, cyc := cyc, hollow := hollow, k := k, count := count, loops := loops }

/-- The path of a program from its descriptor `d` (R146). -/
def pathOf (mv : Nat → Nat) (d : Nat) : (Nat × Nat) ⊕ Nat :=
  let budget := bitsN d 39 16
  pathWalk mv budget (budget + 1) { pc := bitsN d 10 0, cyc := 0, hollow := 0, k := (0, 0), count := 0, loops := [] }

/-- Move word `i` of the record at `o`, unpatched. -/
def ssMove (b : List Byte) (o i : Nat) : Nat := fieldAt b (ssData b o + 64 + 20 * i) 20

/-- Slot table entry `i` of the record at `o`. -/
def ssEntry (b : List Byte) (o i : Nat) : Nat := fieldAt b (ssData b o + 64 + 40960 + 4 * i) 4

/-- Flags of the record at `o`. -/
def ssRouter (b : List Byte) (o : Nat) : Bool := bitN (fieldAt b (o + 2) 1) 0
def ssShared (b : List Byte) (o : Nat) : Bool := bitN (fieldAt b (o + 2) 1) 1

/-- Stream entries of program `p` of the record at `o`, their number. -/
def ssNstr (b : List Byte) (o p : Nat) : Nat := fieldAt b (o + 16 + 2 * p) 2

/-- Length in bytes a record needs, padded to a multiple of 64 (R227). -/
def ssNeed (b : List Byte) (o : Nat) : Nat :=
  let own := if ssShared b o then 0 else 40960 + 2048 + 4096 + 8 * fieldAt b (o + 6) 2
  (64 + own + 8 * sumN ((List.range 4).map (ssNstr b o)) + 63) / 64 * 64

/-- 0x40 for the header. -/
def ssHeadOk (b : List Byte) (index : Nat) : Bool :=
  decide (64 ≤ b.length) && decide (fieldAt b 0 4 = 0x4B53414B) && decide (fieldAt b 4 1 = index) && decide (index < 4) &&
  inRng 1 16 (ssCols b) && inRng 1 16 (ssRows b) && decide (ssModes b < 32) && inRng 1 512 (ssP b) &&
  decide (ssNrec b = ssCols b * ssRows b) && zerosAt b 12 16 && zerosAt b 44 64 &&
  decide (64 ≤ ssIdx b) && decide (ssIdx b + 4 * ssNrec b ≤ b.length)

/-- 0x40 for a record. -/
def ssRecOk (b : List Byte) (i : Nat) : Bool :=
  let o := ssRec b i
  decide (o % 64 = 0) && decide (64 ≤ o) && decide (o + 64 ≤ b.length) && decide (fieldAt b (o + 2) 1 < 4) && zerosAt b (o + 3) (o + 4) &&
  (!ssShared b o || decide (fieldAt b (o + 6) 2 = 0)) &&
  decide (fieldAt b (o + 8) 4 ≤ fieldAt b (o + 12) 4) && ((List.range 4).all fun p => decide (ssNstr b o p ≤ 4096)) &&
  ((List.range 4).all fun p => zerosAt b (o + 25 + 4 * p) (o + 26 + 4 * p)) &&
  decide (fieldAt b (o + 40) 4 = ssNeed b o) && decide (o + fieldAt b (o + 40) 4 ≤ b.length) && zerosAt b (o + 44) (o + 64)

/-- The widths W a set may be placed with (R232): VCOLS, and in ASSURED half of the columns. -/
def ssWidths (b : List Byte) (half : Nat) : List Nat :=
  (if ssModes b = 2 then [] else [ssCols b]) ++ (if bitN (ssModes b) 1 then [half] else [])

/-- The record at a virtual position. -/
def ssAt (b : List Byte) (v row : Nat) : Option Nat := ssRecOf b v row

/-- The neighbour of virtual position (`v`, `row`) in direction `d`: 0 N, 1 E, 2 S, 3 W, inside the grid. -/
def ssNeighbour (b : List Byte) (v row d : Nat) : Option Nat :=
  match d with
  | 0 => if row = 0 then none else ssAt b v (row - 1)
  | 1 => if ssCols b ≤ v + 1 then none else ssAt b (v + 1) row
  | 2 => if ssRows b ≤ row + 1 then none else ssAt b v (row + 1)
  | _ => if v = 0 then none else ssAt b (v - 1) row

/-- 0x47 for entry `c` of the active router at (`v`, `row`) (R174). -/
def slotEntryOk (b : List Byte) (o v row c : Nat) : Bool :=
  let e := ssEntry b o c
  decide (e < 2 ^ 16) && (List.range 4).all fun d =>
    let sel := bitsN e (3 * d + 2) (3 * d)
    let near := ssNeighbour b v row d
    (!bitN e (12 + d) || near.isSome) &&
    (sel == 0 ||
      (decide (sel ≤ 5) && sel != d + 1 && near.isSome && (sel == 5 || (ssNeighbour b v row (sel - 1)).isSome) &&
        match near with
        | some n =>
          let inp := (d + 2) % 4
          let e2 := ssEntry b n ((c + (if d % 2 = 0 then 1 else 2)) % ssP b)
          !ssRouter b n || bitN e2 (12 + inp) || (List.range 4).any fun x => bitsN e2 (3 * x + 2) (3 * x) == inp + 1
        | none => true))

/-- The neighbour in direction `d` stands in the set with its router inactive (R223). -/
def ssIdle (b : List Byte) (v row d : Nat) : Bool :=
  match ssNeighbour b v row d with
  | some n => !ssRouter b n
  | none => false

/-- 0x48 for a record (R223): an active router selects no link, and makes no send move, towards a tile whose router is inactive; a tile
whose own router is inactive makes no send move. The sockets 0x90 to 0x93 send N, E, S, W (R147). -/
def routerOk (b : List Byte) (o v row : Nat) : Option Nat :=
  let sends := fun (bad : Nat → Bool) => (List.range 2044).findSome? fun i =>
    if (mvDsts (ssMove b o (i + 4))).any (fun d => inRng 0x90 0x93 d && bad (d - 0x90)) then some (i + 4) else none
  if ssRouter b o then
    if (List.range (ssP b)).any fun c => (List.range 4).any fun d =>
        bitsN (ssEntry b o c) (3 * d + 2) (3 * d) != 0 && ssIdle b v row d then some 0
    else sends (ssIdle b v row)
  else sends fun _ => true

/-- 0x49: the first bad relocation entry's word. -/
def relocOk (b : List Byte) (o : Nat) : Option Nat :=
  (List.range (fieldAt b (o + 6) 2)).findSome? fun i =>
    let r := fieldAt b (o + 64 + 40960 + 2048 + 4096 + 8 * i) 8
    let w := bitsN r 10 0
    if 4 ≤ w ∧ bitsN r 15 14 = 0 ∧ bitsN r 19 16 ≤ 2 ∧ bitsN r 31 20 = 0 ∧ bitsN r 63 48 = 0 ∧ (mvSlot (ssMove b o w) (bitsN r 13 11)).1 = 3
    then none else some w

/-- Words a program stages for one frame of a tile (R231). -/
def ssStaged (b : List Byte) (o p : Nat) : Nat := sumN ((ssStream b o p).map fun e => bitsN e 39 28 + 1)

/-- The checks of R236 made on the section's own bytes, in the order of their codes. `half`: W of ASSURED, `cols`: columns of the grade. -/
def checkSet (b : List Byte) (index half cols : Nat) : Option (Nat × Nat × Nat) :=
  if !ssHeadOk b index then some (0x40, 0, 0)
  else
    let recs := List.range (ssNrec b)
    let find := fun (f : Nat → Option (Nat × Nat × Nat)) => recs.findSome? f
    let own := fun (i : Nat) => !ssShared b (ssRec b i)
    let words := fun (code i : Nat) (f : Nat → Bool) =>
      if own i then
        (List.range 2044).findSome? fun k => if f (ssMove b (ssRec b i) (k + 4)) then none else some (code, i, k + 4)
      else none
    let pos := fun (i : Nat) => (fieldAt b (ssRec b i) 1, fieldAt b (ssRec b i + 1) 1)
    let paths := fun (i p : Nat) => (ssWidths b half).map fun w =>
      let o := ssRec b i
      let m := ssMoves b o (pos i).1 (pos i).2 w
      pathOf (fun a => (smGet (fun _ => (0 : BitVec 160)) m a).toNat) (ssMove b o p)
    firstBad [
      find fun i => need (ssRecOk b i) (0x40, i, 0),
      need (decide (ssCols b ≤ cols) && (!bitN (ssModes b) 1 || decide (ssCols b ≤ half))) (0x41, 0, 0),
      find fun i => need (decide ((pos i).1 < ssCols b) && decide ((pos i).2 < ssRows b) && (recs.filter fun j => pos j == pos i).length == 1 &&
        decide (fieldAt b (ssRec b i + 4) 2 < ssNrec b) &&
        (if ssShared b (ssRec b i) then own (fieldAt b (ssRec b i + 4) 2) else fieldAt b (ssRec b i + 4) 2 == i)) (0x42, i, 0),
      find fun i => words 0x43 i mvWordOk,
      find fun i => if own i then (List.range 4).findSome? fun p =>
          let d := ssMove b (ssRec b i) p
          let l := bitsN d 39 16
          need (decide (bitsN d 15 11 = 0) && decide (bitsN d 159 45 = 0) && decide (l = ssBudget b p) &&
            (l == 0 || (decide (4 ≤ bitsN d 10 0) && decide (bitsN d 44 40 ≤ 16)))) (0x44, i, p)
        else none,
      find fun i => words 0x45 i mvSeqOk,
      find fun i => (List.range 4).findSome? fun p =>
        if ssBudget b p = 0 then none
        else (paths i p).findSome? fun r => match r with
          | .inl (c, w) => some (c, i, w)
          | .inr _ => none,
      find fun i =>
        let o := ssRec b i
        need (!ssRouter b o || (List.range (ssP b)).all fun c => slotEntryOk b o (pos i).1 (pos i).2 c) (0x47, i, 0),
      find fun i => (routerOk b (ssRec b i) (pos i).1 (pos i).2).map fun w => (0x48, i, w),
      find fun i => if own i then (relocOk b (ssRec b i)).map fun w => (0x49, i, w) else none,
      find fun i => (List.range 4).findSome? fun p =>
        need (inRng 1 2 (fieldAt b (ssRec b i + 24 + 4 * p) 1) &&
          (ssStream b (ssRec b i) p).all fun e => bitsN e 15 14 == 0 && bitsN e 47 47 == 0 && bitsN e 63 55 == 0) (0x4A, i, 0),
      find fun i => (List.range 4).findSome? fun p =>
        if ssBudget b p = 0 then none
        else (paths i p).findSome? fun r => match r with
          | .inl _ => none
          | .inr h => need (decide (ssStaged b (ssRec b i) p ≤ h)) (0x4B, i, p)]

/-- The defect-map entries of a directory entry, by sensor plane (R127). -/
def dirCounts (b : List Byte) (e : Nat) : List Nat := [fieldAt b (e + 2) 2, fieldAt b (e + 24) 2, fieldAt b (e + 26) 2, fieldAt b (e + 28) 2]

/-- A defect map is ascending, without duplicates, reserved bits or reserved METHOD (R119). -/
def defectsOk (b : List Byte) (ofs : Nat) (l : List Nat) : Bool :=
  (List.range 4).all fun sp =>
    let at_ := fun (i : Nat) => fieldAt b (ofs + 4 * (sumN (l.take sp) + i)) 4
    let n := l.getD sp 0
    (List.range n).all fun i =>
      decide (bitsN (at_ i) 31 19 = 0) && !bitN (at_ i) 15 && decide (bitsN (at_ i) 18 16 ≤ 2) &&
      (i == 0 || decide (bitsN (at_ (i - 1)) 14 0 < bitsN (at_ i) 14 0))

/-- The rules of R119 and R127 on a table set's own bytes. -/
def checkTab (b : List Byte) : Bool :=
  decide (1024 ≤ b.length) && (List.range 32).all fun i =>
    let e := 32 * i
    let lead := fieldAt b e 1
    lead == 0xFF ||
      (decide (lead < 32) && inRng 1 4 (fieldAt b (e + 1) 1) && zerosAt b (e + 30) (e + 32) &&
        ([4, 8, 12, 16].all fun o => decide (fieldAt b (e + o) 4 % 64 = 0) && decide (fieldAt b (e + o) 4 < b.length)) &&
        (dirCounts b e).all (fun n => decide (n ≤ 4096)) &&
        (fieldAt b (e + 8) 4 == 0 ||
          (decide (fieldAt b (e + 8) 4 + 4 * sumN (dirCounts b e) ≤ b.length) && defectsOk b (fieldAt b (e + 8) 4) (dirCounts b e))))

end Sys2Proof.Machine
end

