-- ==== Sys2Proof/Machine/LoadOps.lean ====
section
/-! DEFINITION. The loader: header checks of a slot, sections and their own rules, applying the image, the checks that need registers
(R459 to R481). A failure is a code of R470, the section index, the record and the move word of the load-error report. -/
namespace Sys2Proof.Machine

/-- Bytes of the slot being tried. -/
def State.slotBytesAt (s : State) (o k : Nat) : List Byte := memGetBytes flashDefault s.flash.mem (s.img.slot * 0x08000000 + o) k
def State.hdr (s : State) (o k : Nat) : Nat := leNat (s.slotBytesAt o k)

/-- A section table entry (R463). -/
def State.sectEntry (s : State) (i : Nat) : Sect :=
  let o := 128 + 64 * i
  { type := s.hdr o 1, index := s.hdr (o + 1) 1, offset := s.hdr (o + 4) 4, length := s.hdr (o + 8) 4, digest := s.slotBytesAt (o + 32) 32 }

/-- INDEX of an entry: schedule set, table set, 0 for the other types (R463). -/
def Sect.indexOk (e : Sect) : Bool := decide (e.index < if e.type = 3 then 4 else if e.type = 4 then 8 else 1)

/-- Fields of R463 of entry `i`, and its place after the entry before it (R464). -/
def State.sectOk (s : State) (i : Nat) : Bool :=
  let e := s.sectEntry i
  let prev := s.sectEntry (i - 1)
  let o := 128 + 64 * i
  decide (s.hdr (o + 2) 2 = 0) && decide (s.hdr (o + 12) 20 = 0) && decide (0x9000 ≤ e.offset) && decide (e.offset % 4096 = 0) &&
  decide (1 ≤ e.length) && decide (e.offset + e.length ≤ s.hdr 8 4) && e.indexOk &&
  (i == 0 || (decide (prev.offset < e.offset) && decide (prev.offset + prev.length ≤ e.offset)))

/-- Greatest length of a section type (R464). -/
def sectMax (t : Nat) : Nat :=
  [0, 1048576, 32784, 16777216, 16777216, 40960, 65552, 1835040, 8208, 11296].getD t 0

/-- Type and length of an entry (R464). -/
def Sect.typeOk (e : Sect) : Bool :=
  inRng 1 9 e.type && decide (e.length ≤ sectMax e.type) && (e.type != 5 || e.length == 40960)

/-- The counts of R464. -/
def sectCounts (l : List Sect) : Bool :=
  let of := fun (t : Nat) => l.filter fun e => e.type == t
  let one := fun (t : Nat) => decide ((of t).length ≤ 1)
  one 1 && one 2 && one 6 && one 7 && one 8 && one 9 && (of 5).length == 1 &&
  inRng 1 4 (of 3).length && inRng 1 8 (of 4).length && noTwice ((of 3).map (·.index)) && noTwice ((of 4).map (·.index))

/-- The owner key a header names, wrapped under KWRAP (R496). -/
def State.slotKey (s : State) (i : Nat) : Option (List Byte) :=
  match atV s.sec.slots i .empty with
  | .active k => if i < 4 ∧ s.unwraps then some k else none
  | _ => none

/-- The header checks of R465 up to the signature: the failure, or the entries. A commit word that is not exact is code 0x03 whatever the
rest holds, as in erased flash (R462; DEDUCED, log 66). -/
def State.headerCheck (s : State) : (Nat × Nat) ⊕ List Sect :=
  let n := s.hdr 25 1
  let es := (List.range n).map s.sectEntry
  if s.hdr 4088 8 ≠ 0x454E4F444943544B then .inl (3, 0xFF)
  else if s.hdr 0 4 ≠ 0x4943544B then .inl (1, 0xFF)
  else if s.hdr 4 2 ≠ 1 then .inl (2, 0xFF)
  else if 134217728 < s.hdr 8 4 ∨ !inRng 1 30 n then .inl (4, 0xFF)
  else match (List.range n).find? fun i => !s.sectOk i with
    | some i => .inl (4, i)
    | none =>
      match (List.range n).find? fun i => !(s.sectEntry i).typeOk with
      | some i => .inl (0x0A, i)
      | none =>
        if !sectCounts es then .inl (0x0A, 0xFF)
        else if (s.slotKey (s.hdr 24 1)).isNone then .inl (5, 0xFF)
        else .inr es

/-- The checks of R465 after the manifest digest is formed: 0, or the code. -/
def State.manifestCheck (s : State) : Nat :=
  let key := (s.slotKey (s.hdr 24 1)).getD []
  if !Config.slhVerify key (s.slotBytesAt 0 2048) (s.slotBytesAt 0x1000 29792) then 6
  else if s.hdr 12 4 < s.sec.imgFloor then 7
  else if !bitN (s.hdr 28 1) s.otp.grade then 8
  else if s.img.slot != s.img.sel && !bitN (s.hdr 6 2) 0 then 0x0B
  else 0

/-- No flash, or one of another density than R459 allows. -/
def State.flashBad (s : State) : Bool := decide (1 < s.flash.density)

/-- VERIFY of the slot being tried (R465). -/
def State.verify (s : State) : State :=
  if s.flashBad then s.slotBad 0x30 0xFF 0 0
  else match s.headerCheck with
    | .inl (c, i) => s.slotBad c i 0 0
    | .inr es =>
      let man := fitBytes 32 (Config.shake256 (s.slotBytesAt 0 2048))
      let s := s.each 8 fun i s => s.setReg (rCfgManifest i) (w32 (fieldAt man (4 * i) 4))
      let c := s.manifestCheck
      if c ≠ 0 then s.slotBad c 0xFF 0 0
      else
        let flags := s.hdr 6 2
        let svn := s.hdr 12 4
        let slot := s.hdr 24 1
        let s := ((s.setReg64 rCfgImgIdLo (s.hdr 16 8)).setReg rCfgImgSvn (w32 svn)).setReg rCfgImgFmt (w32 (slot * 65536 + s.hdr 4 2))
        ({ s with img := { s.img with sects := es, flags := flags, svn := svn, keySlot := slot, done := 0, staged := [] } } : State).goState .load

/-- Parts of a patch section (R261, R498). The spec names the parts and lays down no byte places: DESIGN CHOICE (log 20). -/
def patchHead (b : List Byte) : List Byte := bslice b 0 72
def patchVersion (b : List Byte) : Nat := fieldAt b 0 2
def patchRaises (b : List Byte) : Bool := bitN (fieldAt b 2 1) 0

/-- The words of a decrypted patch: address and word. -/
def patchWords (p : List Byte) : List (Nat × Nat) :=
  (List.range (p.length / 20)).map fun i => (fieldAt p (20 * i) 4, fieldAt p (20 * i + 4) 16)

/-- The patch of R261: its words, or `none` when a step fails. -/
def State.openPatch (s : State) (b : List Byte) : Option (List (Nat × Nat)) :=
  if b.length < 29892 then none
  else
    let text := b.drop 29892
    match Config.gcmOpen (bslice b 72 12) (patchHead b) text (bslice b 84 16) with
    | none => none
    | some p =>
      let key := bslice b 8 64
      let h := fitBytes 32 (Config.shake256 key)
      let known := (List.range 4).any fun i => decide (atV s.otp.rootHash i [] = h) && !(atV s.otp.rootRevoked i true)
      if known ∧ Config.slhVerify key (bslice b 0 100 ++ text) (bslice b 100 29792) ∧ s.sec.patchFloor ≤ patchVersion b then
        some ((patchWords p).filter fun x => decide (x.1 < 0x1800))
      else none

/-- Words of customer page `p` in a page section (R244, R479). -/
def pageWord (b : List Byte) (p i : Nat) : Nat :=
  let pres := fieldAt b 1 1
  let o := 16 + (if p = 1 ∧ bitN pres 0 then 16384 else 0) + 16 * i
  fieldAt b o 15

def pagesOk (b : List Byte) : Bool :=
  let act := fieldAt b 0 1
  let pres := fieldAt b 1 1
  decide (16 ≤ b.length) && decide (pres ≤ 3) && zerosAt b 2 16 && decide (b.length = 16 + 16384 * popcount 2 pres) &&
  decide (act ≤ 1) && (bitN pres act || (act == 0 && pres == 0)) &&
  (List.range 2).all fun p => !bitN pres p || (List.range 1024).all fun i => mwReason (mwStore (pageWord b p i)) == 0

/-- The first bad preset entry (R477): `some 0` for a bad header too. -/
def presetsBad (b : List Byte) : Option Nat :=
  let n := fieldAt b 0 4
  if b.length < 16 ∨ !zerosAt b 4 16 ∨ 8192 < n ∨ b.length < 16 + 8 * n then some 0
  else (List.range n).find? fun i => !presetOk (fieldAt b (16 + 8 * i) 4) (fieldAt b (20 + 8 * i) 4)

def firmwareOk (b : List Byte) : Bool :=
  let load := fieldAt b 0 4
  let entry := fieldAt b 4 4
  let len := fieldAt b 8 4
  decide (32 + len ≤ b.length) && zerosAt b 12 32 && decide (load % 4 = 0) && decide (entry % 4 = 0) && decide (load + len ≤ 0x1C0000) &&
  decide (load ≤ entry) && decide (entry + 4 ≤ load + len)

def planOk (b : List Byte) : Bool :=
  let use := fun (p : Nat) => fieldAt b 1 1 / 4 ^ p % 4
  let n := fieldAt b 4 2
  let mir := ((List.range 4).filter fun p => use p == 2).length
  decide (16 + 16 * n ≤ b.length) && decide (n ≤ 512) && zerosAt b 3 4 && zerosAt b 6 8 && ((List.range 4).all fun p => use p != 3) &&
  (fieldAt b 2 1 == 0 || (decide (fieldAt b 2 1 ≤ 2) && mir == 2 && fieldAt b 8 8 != 0)) &&
  (List.range n).all fun i => decide (fieldAt b (24 + 16 * i) 2 < 512) && zerosAt b (26 + 16 * i) (32 + 16 * i)

def policyOk (b : List Byte) : Bool :=
  let g := fieldAt b 6 2
  let n := fieldAt b 8 2
  decide (32 + 16 * g + 48 * n ≤ b.length) && inRng 10 10000 (fieldAt b 0 4) && decide (fieldAt b 4 1 ≤ 1) && decide (fieldAt b 5 1 ≤ 1) &&
  decide (g ≤ 512) && decide (n ≤ 64) && zerosAt b 10 16 && zerosAt b 24 32 &&
  ((List.range g).all fun i => decide (fieldAt b (40 + 16 * i) 1 ≤ 15) && zerosAt b (41 + 16 * i) (48 + 16 * i)) &&
  (List.range n).all fun i =>
    let o := 32 + 16 * g + 48 * i
    decide (fieldAt b o 1 ≤ 15) && zerosAt b (o + 1) (o + 8)

/-- Ranges and reserved fields of one result rule (R266). -/
def ruleOk (b : List Byte) : Bool :=
  !bitN (fieldAt b 0 1) 3 && bitsN (fieldAt b 4 2) 14 9 == 0 && decide (fieldAt b 6 1 < 16) && zerosAt b 7 8 && zerosAt b 12 16 &&
  (!bitN (fieldAt b 0 1) 1 ||
    (inRng 8 1024 (fieldAt b 8 2) && decide (fieldAt b 8 2 % 8 = 0) && inRng 8 256 (fieldAt b 10 2)))

/-- The speeds of the present overspeed bands ascend (R473). -/
def ascends : List Nat → Bool
  | a :: b :: r => decide (a < b) && ascends (b :: r)
  | _ => true

/-- The rules of R473 on one valid entry that need only the table itself and the section table. -/
def recipeOk (tab : List Byte) (sects : List Sect) (n : Nat) : Bool :=
  let b := bslice tab (640 * n) 640
  let f := fieldAt b
  let mode := f 1 1
  let fb := f 10 1
  decide (f 0 1 < 4) && decide (mode ≤ 4) && decide (f 4 1 < 16) && [8, 16, 32, 64, 128].contains (f 5 1) && decide (f 6 1 < 4) &&
  decide (f 7 1 < 2) && decide (f 8 1 ≤ 16) && decide (f 9 1 ≤ 4) &&
  (fb == 0xFF || (decide (fb < 64) && fb != n && bitN (fieldAt tab (640 * fb) 1) 0)) &&
  (if mode = 2 then inRng 1 40 (f 11 1) else f 11 1 == 0) && inRng 1 1000 (f 12 2) && zerosAt b 14 16 && decide (1 ≤ f 24 4) &&
  zerosAt b 51 64 && zerosAt b 592 640 && ascends (([f 32 4, f 36 4, f 40 4]).filter (· != 0)) &&
  (sects.any fun e => e.type == 3 && e.index == f 2 1) && (sects.any fun e => e.type == 4 && e.index == f 3 1) &&
  (mode != 3 || f 5 1 == 8) && (mode != 4 || decide (3 ≤ f 9 1)) &&
  (List.range 16).all fun r => ruleOk (bslice b (336 + 16 * r) 16)

/-- The first bad entry of a recipe table, 0 when no entry is valid (R473). -/
def recipesBad (tab : List Byte) (sects : List Sect) : Option Nat :=
  let valid := (List.range 64).filter fun n => bitN (fieldAt tab (640 * n) 1) 0
  if valid = [] then some 0 else valid.find? fun n => !recipeOk tab sects n

/-- Columns of the grade, and W of ASSURED (R5, R211). -/
def State.gradeCols (s : State) : Nat := if s.otp.grade = 1 then 12 else 16

/-- The rules of a section's type that need only its own bytes (R466): the failure's code, record and move word. -/
def State.sectRules (s : State) (e : Sect) (b : List Byte) : Option (Nat × Nat × Nat) :=
  match e.type with
  | 1 => need (s.openPatch b).isSome (0x10, 0, 0)
  | 2 => need (pagesOk b) (0x25, 0, 0)
  | 3 => checkSet b e.index s.halfCols s.gradeCols
  | 4 => need (checkTab b) (0x27, 0, 0)
  | 5 => (recipesBad b s.img.sects).map fun r => (0x21, r, 0)
  | 6 => (presetsBad b).map fun r => (0x20, r, 0)
  | 7 => need (firmwareOk b) (0x24, 0, 0)
  | 8 => need (planOk b) (0x22, 0, 0)
  | _ => need (policyOk b) (0x23, 0, 0)

/-- One section streams in, is hashed and checked (R466); firmware goes to the scratchpad at once (R478). -/
def State.loadSection (s : State) : State :=
  match s.img.sects[s.img.done]? with
  | none => s
  | some e =>
    let b := s.slotBytesAt e.offset e.length
    if fitBytes 32 (Config.shake256 b) ≠ e.digest then s.slotBad 9 s.img.done 0 0
    else match s.sectRules e b with
      | some (c, r, w) => s.slotBad c s.img.done r w
      | none =>
        let s := if e.type = 7 then
            s.spmLoad (fieldAt b 0 4) (bslice b 32 (fieldAt b 8 4))
          else s
        { s with img.staged := s.img.staged ++ [{ type := e.type, index := e.index, data := b }], img.done := s.img.done + 1 }

/-- The staged bytes of a section type, empty when the image has none. -/
def State.stagedOf (s : State) (t : Nat) : List Byte := ((s.img.staged.find? fun d => d.type == t).map (·.data)).getD []

/-- Section index of a type, 0xFF when the image has none. -/
def State.sectOf (s : State) (t i : Nat) : Nat :=
  let k := s.img.sects.findIdx fun e => e.type == t && e.index == i
  if k < s.img.sects.length then k else 0xFF

/-- The microcode patch and the customer pages are written (R261, R467, R479). -/
def State.applyCode (s : State) : State :=
  let pb := s.stagedOf 1
  let s := match (if pb = [] then none else s.openPatch pb) with
    | some ws =>
      let cs := ws.foldl (fun m (x : Nat × Nat) => smPut csDefault m x.1 (mwStore x.2)) s.psq.cs
      { s with psq := { s.psq with cs := cs, patched := true, patchVer := patchVersion pb }, img.patchRaise := patchRaises pb }
    | none => { s with psq := { s.psq with patched := false, patchVer := 0 }, img.patchRaise := false }
  let b := s.stagedOf 2
  let pres := fieldAt b 1 1
  let put := fun (p : Nat) (m : SMap (BitVec 128)) =>
    (List.range 1024).foldl (fun m i => smPut csDefault m (pageAddr p i) (if bitN pres p then mwStore (pageWord b p i) else 0)) m
  { s with psq := { s.psq with cs := put 1 (put 0 s.psq.cs), page := fieldAt b 0 1 } }

/-- The registers of ganged slices that writes do not change stand at their reset values (R114). -/
def State.muteGanged (s : State) : State :=
  s.each 32 fun n s => s.when (s.lcuRole n == 2) fun s =>
    [rLcuSCtrl n, rLcuSOutw n, rLcuSStitchL n, rLcuSStitchR n, rLcuSPhofs01 n, rLcuSPhofs23 n, rLcuSRing n, rLcuSRlines n].foldl
      (fun s o => s.setReg o (regReset o)) s

/-- The preset list and the fabric plan are written (R467, R477, R480). -/
def State.applyRegs (s : State) : State :=
  let b := s.stagedOf 6
  let s := (s.each (fieldAt b 0 4) fun i s => s.presetWrite (fieldAt b (16 + 8 * i) 4) (fieldAt b (20 + 8 * i) 4)).muteGanged
  let p := s.stagedOf 8
  if p = [] then s.setRf rFabCtrl 0 0 0
  else
    let s := (s.setRf rFabCtrl 31 24 (fieldAt p 0 1)).setRf rFabCtrl 0 0 1
    s.each 4 fun i s => s.setRf (rFabPCtrl i) 1 0 (fieldAt p 1 1 / 4 ^ i % 4)

/-- From now on the first level that passes the filter of each input sets its accepted level silently (R34, R288). -/
def State.quietInputs (s : State) : State :=
  { s with pos := { s.pos with enc := s.pos.enc.map fun (e : Encoder) => { e with quietA := true, quietB := true, quietZ := true } },
           res := { s.res with gpiQuiet := Vector.replicate 16 true } }

/-- The image applied in the order of R467. -/
def State.applied (s : State) : State :=
  let s := s.applyCode.applyRegs
  let pol := s.stagedOf 9
  let of := fun (t : Nat) => s.img.staged.filter fun d => d.type == t
  let s := { s with img := { s.img with sets := of 3, tabs := of 4, recipes := s.stagedOf 5, policy := pol, plan := s.stagedOf 8 },
                    cen.epoch := fieldAt pol 16 8 }
  (s.takeOffsets s.startRecipe).quietInputs

/-- Lanes that are configured, and heads whose slice is enabled. -/
def State.lanesOn (s : State) : List Nat := (List.range 32).filter fun n => s.rf (rIglLCtrl n) 1 0 != 0
def State.sliceHeads (s : State) : List Nat := s.leadLanes.filter fun n => s.rbit (rLcuSCtrl n) 0

/-- The lanes of the head that lane `n` belongs to. -/
def State.headLanes (s : State) (n : Nat) : List Nat := s.lanesOn.filter fun k => s.headGen k == s.headGen n

/-- R107 and R115 for lane `n`. -/
def State.laneRules (s : State) (n : Nat) : Bool :=
  let lead := s.gLane (s.headGen n)
  let same := fun (k : Nat) => s.rf (rIglLHead k) 20 8 == s.rf (rIglLHead n) 20 8 && s.headPixels k == s.headPixels n &&
    s.rf (rIglLCtrl k) 1 0 == s.rf (rIglLCtrl n) 1 0 && s.rf (rIglLCtrl k) 9 8 == s.rf (rIglLCtrl n) 9 8
  (s.headLanes n).contains lead && s.rf (rIglLHead lead) 23 21 == 0 && (s.headLanes n).all same && decide (s.headNopl n ≤ 4)

/-- R5 on lanes and ports of the TRS-632. -/
def State.gradeRules (s : State) : Bool :=
  s.otp.grade != 1 || (s.lanesOn.all (fun n => decide (n < 24)) && s.sliceHeads.all fun n => decide (s.slotPort n < 6))

/-- Bytes that the tables of head `h` take under table set `ts` (R127, R128). -/
def State.tabNeed (s : State) (ts h : Nat) : Nat :=
  let b := s.tabBytes ts
  match dirEntry b h with
  | none => 0
  | some e =>
    let has := fun (o n : Nat) => if fieldAt b (e + o) 4 = 0 then 0 else n
    has 4 (s.headNopl h * s.headPixels h * 4) + has 8 (4 * sumN (dirCounts b e)) +
      has 12 (s.headPlanes h * s.outPixels h * 4) + has 16 (s.rf (rLcuSStitchL h) 10 0 * 2)

/-- The table of `n` bytes named at directory offset `o` lies within its set. -/
def tabFits (b : List Byte) (e o n : Nat) : Bool :=
  let a := fieldAt b (e + o) 4
  a == 0 || decide (a + n ≤ b.length)

/-- The table-set rules of head `h` under table set `ts` that need registers (R119, R120, R127, R128). -/
def State.tabRules (s : State) (ts h : Nat) : Bool :=
  let b := s.tabBytes ts
  let c := rLcuSCtrl h
  match dirEntry b h with
  | none => !s.rbit c 11 && !s.rbit c 12 && !s.rbit c 13 && !s.stitchL h
  | some e =>
    let has := fun (o : Nat) => fieldAt b (e + o) 4 != 0
    let np := s.headPlanes h
    let op := s.outPixels h
    let npix := s.headPixels h
    (!s.rbit c 11 || has 4) && (!s.rbit c 12 || has 8) && (!s.rbit c 13 || has 12) && (!s.stitchL h || has 16) &&
    fieldAt b (e + 1) 1 == s.headNopl h && decide (s.tabNeed ts h ≤ (s.headLanes h).length * 262144) &&
    tabFits b e 4 (s.headNopl h * npix * 4) && tabFits b e 12 (np * op * 4) && tabFits b e 16 (s.rf (rLcuSStitchL h) 10 0 * 2) &&
    ((List.range (sumN (dirCounts b e))).all fun i => !has 8 || decide (bitsN (fieldAt b (fieldAt b (e + 8) 4 + 4 * i) 4) 14 0 < npix)) &&
    ((List.range (np * op)).all fun i => !has 12 || decide (bitsN (fieldAt b (fieldAt b (e + 12) 4 + 4 * i) 4) 31 17 < npix))

/-- The extent of a ring within its port. -/
def State.ringSpan (s : State) (h q : Nat) : Nat × Nat × Nat :=
  (s.slotPort h, s.slotAddr h q 0, s.slotAddr h q 0 + s.ringLines h * slotBytes (s.outPixels h))

/-- Ring rules of head `h` (R131, R451), and the width of R120 without an x-map. -/
def State.ringRules (s : State) (h : Nat) : Bool :=
  let rs := (List.range 64).filter fun r => s.rcpValid r && s.rcpHead r h
  let bmax := rs.foldl (fun a r => max a (s.rcpB r)) 0
  let kmax := rs.foldl (fun a r => max a (s.rcpK r)) 0
  let p := s.slotPort h
  let top := s.gdcBytes p - (if p < 2 then 0x10000000 else 0)
  let mine := (List.range (s.headNopl h)).map fun q => s.ringSpan h q
  let others := (s.sliceHeads.filter (· != h)).flatMap fun k => (List.range (s.headNopl k)).map fun q => s.ringSpan k q
  (rs == [] || decide (bmax * (kmax + 3) ≤ s.ringLines h)) && (mine.all fun x => decide (x.2.2 ≤ top)) &&
  mine.all fun x => others.all fun y => x.1 != y.1 || decide (x.2.2 ≤ y.2.1) || decide (y.2.2 ≤ x.2.1)

/-- A stitching register names a head of this device: its DEV is the address the plan pins for this device, or there is no plan. -/
def State.sameDev (s : State) (r : Nat) : Bool :=
  let p := s.img.plan
  p.isEmpty || (List.range (fieldAt p 4 2)).any fun i => fieldAt p (16 + 16 * i) 8 == s.otp.serial && fieldAt p (24 + 16 * i) 2 == s.rf r 30 22

/-- Left head `l` and right head `r` of this device fit each other (R124). -/
def State.pairFits (s : State) (l r : Nat) : Bool :=
  decide (s.outPixels l = s.ownHi l + s.ownLo r) && s.headDom l == s.headDom r && s.opitch l == s.opitch r &&
  s.headNopl l == s.headNopl r && (List.range (s.headNopl l)).all fun q => decide (s.phOfs l q = s.phOfs r q)

/-- The pairing rule of R124 for head `h`, with its neighbours on this device. -/
def State.pairRules (s : State) (h : Nat) : Bool :=
  (!s.stitchL h || !s.sameDev (rLcuSStitchL h) || s.pairFits (s.rf (rLcuSStitchL h) 21 17) h) &&
  (!s.stitchR h || !s.sameDev (rLcuSStitchR h) || s.pairFits h (s.rf (rLcuSStitchR h) 21 17))

/-- A tracked domain with `f` as its entry domain (R66): by an enabled table of this device; the entry domain of one whose table another device
holds (R69) does not show in this image, and is taken to agree (log 98). -/
def State.tracksFrom (s : State) (d f : Nat) : Bool :=
  s.rbit (rPosDCtrl d) 0 && s.rf (rPosDCtrl d) 2 1 == 2 &&
    match (List.range 4).find? fun t => s.rbit (rPosTtCtrl t) 0 && s.rf (rPosTtCtrl t) 15 12 == d with
    | some t => s.rf (rPosTtCtrl t) 7 4 == f
    | none => true

/-- Rules of recipe `r` that need registers or the plan (R183, R211, R266, R473). -/
def State.recipeRules (s : State) (r : Nat) : Bool :=
  let f := s.rcpFdom r
  let hs := s.rcpHeads r
  (hs.all fun h => s.lcuRole h == 1 && s.headDom h == f && s.opitch h == s.rcpOpitch r) &&
  (s.rcpMode r != 2 || s.twinRole != 0) &&
  (List.range 16).all fun k =>
    (k != 0 && s.ruleInert r k) ||
      ((s.ruleRdom r k == f || s.tracksFrom (s.ruleRdom r k) f) &&
        (List.range 8).all fun m => !bitN (s.ruleMkmask r k) m || s.rf (rResMkCtrl m) 15 12 == s.ruleRdom r k)

/-- R191 for recipe `r` and its default program. -/
def State.budgetOk (s : State) (r : Nat) : Bool :=
  let l : Int := (ssBudget (s.setBytes (s.rcpSS r)) (s.rcpProg r) : Int)
  let v : Int := (s.rcpVMax r : Int)
  let t : Int := ((s.rcpB r * s.rcpOpitch r * 1000 : Nat) : Int) - 2 * v
  s.rcpHeads r == [] || l == 0 || decide (l + 256 ≤ (aclkMHz (s.rcpThrFloor r) : Int) * t / v)

/-- The stream entries of a set, with their records. -/
def setStreams (b : List Byte) : List (Nat × Nat) :=
  (List.range (ssNrec b)).flatMap fun i => (List.range 4).flatMap fun p => (ssStream b (ssRec b i) p).map fun e => (i, e)

/-- 0x4A for a schedule-set section, where it needs registers (R229, R236): HEAD is a lead lane, and the words lie within its lines. Answers
the first record that fails. -/
def State.streamRules (s : State) (b : List Byte) : Option Nat :=
  ((setStreams b).find? fun x => s.lcuRole (bitsN x.2 54 50) != 1 ||
    decide ((s.outPixels (bitsN x.2 54 50) + 7) / 8 ≤ bitsN x.2 27 16 + bitsN x.2 39 28)).map (·.1)

/-- 0x4C for recipe `r` and its set (R191, R236): the record that fails, 0 for the set as a whole. -/
def State.setRules (s : State) (r : Nat) : Option Nat :=
  let b := s.setBytes (s.rcpSS r)
  if !bitN (ssModes b) (s.rcpMode r) ∨ !s.budgetOk r then some 0
  else ((setStreams b).find? fun x =>
    decide (s.rcpB r ≤ bitsN x.2 46 40) || !s.rcpHead r (bitsN x.2 54 50) ||
      decide (s.headNopl (bitsN x.2 54 50) ≤ bitsN x.2 49 48)).map (·.1)

/-- The rules of R81 and R124 that join registers of lanes and heads (R477; DEDUCED, log 90). -/
def State.headsFit (s : State) : Bool :=
  (s.lanesOn.all fun n => s.headPixels n % (s.rf (rIglLHead n) 20 18 + 1) == 0) && s.sliceHeads.all s.pairRules

/-- The rules of R428 that join the registers of a window: BASE and TADDR are multiples of its size; a window in use lies in its range. -/
def State.windowsFit (s : State) : Bool :=
  (List.range 8).all fun w =>
    s.winBase w % s.winSize w == 0 && s.reg64 (rMtxWinTaddrLo w) % s.winSize w == 0 &&
      (!s.winEn w || (decide (0x80000000 ≤ s.winBase w) && decide (s.winBase w + s.winSize w ≤ 2 ^ 32)))

/-- The checks made on the registers that result (R467): the failure's code, section, record and word. -/
def State.loadChecks (s : State) : Option (Nat × Nat × Nat × Nat) :=
  let pre := s.sectOf 6 0
  let valid := (List.range 64).filter s.rcpValid
  firstBad [
    need (s.jointOk && s.headsFit && s.windowsFit) (0x20, pre, 0, 0),
    need s.gradeRules (0x08, pre, 0, 0),   -- R5 names neither: DESIGN CHOICE (log 81)
    (s.lanesOn.find? fun n => !s.laneRules n).map fun n => (0x26, pre, s.gLane (s.headGen n), 0),
    (s.img.tabs.findSome? fun d => (s.sliceHeads.find? fun h => !s.tabRules d.index h).map fun h => (0x27, s.sectOf 4 d.index, h, 0)),
    (s.sliceHeads.find? fun h => !s.rbit (rLcuSCtrl h) 13 && s.outPixels h != s.headPixels h).map fun h => (0x27, pre, h, 0),
    (s.sliceHeads.find? fun h => !s.ringRules h).map fun h => (0x27, pre, h, 0),
    (valid.find? fun r => !s.recipeRules r).map fun r => (0x21, s.sectOf 5 0, r, 0),
    (s.img.sets.findSome? fun d => (s.streamRules d.data).map fun i => (0x4A, s.sectOf 3 d.index, i, 0)),
    valid.findSome? fun r => (s.setRules r).map fun i => (0x4C, s.sectOf 3 (s.rcpSS r), i, 0)]

/-- The control core leaves reset at its entry address (R387, R478). -/
def State.coreStart (s : State) (entry : Word) : State :=
  { s with core := { Core.init with st := 1, pc := entry, entry := some entry, nmiPin := s.core.nmiPin, cycFrom := s.ts,
                                    nmiLevel := (s.slotAt 6).valid || (s.slotAt 7).valid || s.core.nmiPin } }

/-- Entry to TRAIN with the image applied (R442, R458, R467, R469, R478, R541, R569, R572). -/
def State.enterTrain (s : State) : State :=
  let s := s.setSlotCode s.img.slot 0
  let fb := decide (s.img.slot ≠ s.img.sel)
  let s := { s with img := { s.img with staged := [], valid := true, ended := true, reread := false, fallback := fb },
                    sys.mrkLive := true, cen.stale := true }
  let s := { s with balls.mrk := Vector.ofFn fun (n : Fin 8) => s.mrkOff n }
  let s := s.gpoRefresh.when s.img.fallback fun s => (s.orReg rCfgEvt 4).raise evCfgFallback 0 0 0
  let s := s.goState .train
  let s := { s with frm.step := s.stepLimit }
  let s := s.avsTarget s.frm.step
  let s := s.each 8 fun p s =>
    let st := if s.portDisabled p then 4 else if s.rbit (rGdcPCtrl p) 0 then 1 else 0
    { s with gdc := setV s.gdc p { GdcPort.init with st := st } }
  let s := s.lanesOn.foldl (fun s n => s.laneAttempt n false 0) s
  let s := s.discStart.cwStart.each 16 fun d s => s.domEnable d
  let s := if s.img.sects.any fun e => e.type == 7 then
      let h := s.slotBytesAt (((s.img.sects.find? fun e => e.type == 7).map (·.offset)).getD 0) 32
      (s.setReg rCfgFwEntry (w32 (fieldAt h 4 4))).coreStart (w32 (fieldAt h 4 4))
    else s
  if s.sys.fatalPend then ({ s with sys.fatalPend := false } : State).enterFaultStop else s

/-- LOAD ends (R467): the image applied, or its failure with nothing applied. -/
def State.loadEnd (s : State) : State :=
  let t := s.applied
  match t.loadChecks with
  | some (c, i, r, w) => s.slotBad c i r w
  | none => t.enterTrain

/-- A section read a second time has another digest than the manifest gives (R468). -/
def State.rereadBad (s : State) : Option Nat :=
  (List.range s.img.sects.length).find? fun i =>
    match s.img.sects[i]? with
    | some e => (e.type == 3 || e.type == 4) && fitBytes 32 (Config.shake256 (s.slotBytesAt e.offset e.length)) != e.digest
    | none => false

/-- The copies of the system area (R234, R450, R468) on a port that is UP. -/
def State.sysCopy (s : State) (p : Nat) : State :=
  if (s.gdcAt p).st ≠ 2 then s
  else
    let base := gddrKey p (s.gdcBytes p - 0x10000000)
    let put := fun (a : Nat) (m : Memory) (d : SectData) => memPutBytes ramDefault m (base + a + d.index * 0x1000000) d.data
    let g := s.img.tabs.foldl (put 0x04000000) (s.img.sets.foldl (put 0) s.gddr)
    { s with gddr := g, gdc := updV s.gdc p fun x => { x with syscopy := true } }

/-- The second read ends well (R128, R233, R234, R468): copies written, tiles and table banks loaded. -/
def State.rereadEnd (s : State) : State :=
  let s := (s.sysCopy 0).sysCopy 1
  let r := s.startRecipe
  let s := { s with tile := s.tile.map fun (t : Tile) => { t with mem := [], bad := [], scrubFix := none } }
  let s := s.loadArray (s.rcpSS r) (s.rcpMode r) (s.setBytes (s.rcpSS r))
  let banks := setV (Vector.replicate 2 { ts := none, ready := false }) 0 { ts := some (s.rcpTS r), ready := true }
  { s with slice := s.slice.map fun (c : Slice) => { c with bank := 0, banks := banks, loads := [] }, img.reread := true }

/-- The end conditions of TRAIN hold (R458). -/
def State.trainOver (s : State) : Bool :=
  s.img.reread && (s.lanesOn.all fun n => (s.laneAt n).phase = .up || (s.laneAt n).phase = .failed) && s.fab.discDone &&
  (!s.fabEn || s.ft.tstate = .locked || decide (s.fab.discAt + 50 * msTs ≤ s.ts))

/-- Floors raised at ARMED (R471, R498). -/
def State.raiseFloors (s : State) : State :=
  let s := if bitN s.img.flags 1 ∧ s.sec.imgFloor < s.img.svn then { s with sec.imgFloor := s.img.svn } else s
  if s.img.patchRaise ∧ s.sec.patchFloor < s.psq.patchVer then { s with sec.patchFloor := s.psq.patchVer } else s

/-- Entry to ARMED from TRAIN, and RUNNING by autostart (R242, R458, R474, R485). -/
def State.arm (s : State) : State :=
  let r := s.startRecipe
  let auto := s.rcpAuto r && !s.img.fallback
  let s := s.goState .armed
  let s := { s with sys.tArmed := (s.ts - s.sys.releaseTs) / msTs, frm.recipe := some r, frm.mode := s.rcpMode r, cen.stale := true }
  let s := s.enterMode
  let s := (s.setReg rCfgStart (w32 (b2n auto * 256 + r))).startContexts.raiseFloors.endRestarts
  if auto && !s.sys.cenStop then s.enableOutputs else s

end Sys2Proof.Machine
end

