-- ==== Sys2Proof/Machine/JnlRun.lean ====
section
/-! DEFINITION. Submission and execution of commands: command buffers, checks, acceptance, the state check, and what each command does
(R456, R457, R483 to R485, R520 to R529). -/
namespace Sys2Proof.Machine

/-- The device bytes of a command descriptor (R520): code, version 1, intent, argument bytes. -/
def descOf (code intent : Nat) (args : List Byte) : List Byte :=
  leBytes 1 code ++ leBytes 1 1 ++ leBytes 6 0 ++ leBytes 8 intent ++ fitBytes 48 args

/-- Argument byte `i` is used by command `code` (R521, R483, R485, R516). -/
def argUsed (code i : Nat) : Bool :=
  if 0x80 ≤ code then true
  else if code = 0x03 ∨ code = 0x04 then i == 0 || i == 1 || (decide (8 ≤ i) && decide (i < 16))
  else if code = 0x08 then i == 0 || i == 1
  else if code = 0x09 then i == 0 || i == 1 || (decide (4 ≤ i) && decide (i < 20))
  else if code = 0x0A then decide (i < 40)
  else if code = 0x0C then i == 0
  else if code = 0x0D then i == 1 || (decide (8 ≤ i) && decide (i < 24))
  else false

/-- Check 2 of R523. A firmware code comes from anyone but the control core and its DMA channels. -/
def descFormat (who : Requester) (desc : List Byte) : Bool :=
  let code := fieldAt desc 0 1
  decide (fieldAt desc 1 1 = 1) && ((decide (1 ≤ code) && decide (code ≤ 0x0F)) || decide (0x80 ≤ code)) &&
  decide (fieldAt desc 2 6 = 0) && ((List.range 48).all fun i => argUsed code i || decide (fieldAt desc (16 + i) 1 = 0)) &&
  (code != 0x08 || decide (fieldAt desc 17 1 ≤ 1)) &&
  (decide (code < 0x80) || decide (reqId who ≠ 0x3FF))

/-- A session of requester `id` is open (R506). -/
def State.sessionOpen (s : State) (id : Nat) : Bool :=
  if id = 0x3FF then true
  else if id = 0x200 then s.sec.host.isSome
  else s.sec.fabs.any fun x => x.req == id

/-- An applied P-view write keeps its writer's session and claim open (R501, R506). -/
def State.touch (s : State) (id : Nat) : State :=
  ({ s with sec.host := if id = 0x200 then s.sec.host.map fun x => { x with last := s.ts } else s.sec.host,
            sec.fabs := s.sec.fabs.map fun (x : Session) => if x.req = id then { x with last := s.ts } else x } : State).claimTouch id

/-- A command that needs no session (R507). -/
def sessionFree (code : Nat) : Bool := code == 0x0A || code == 0x0E || code == 0x0F

/-- The requester has a command buffer or can get one (R522). -/
def State.bufOpen (s : State) (who : Requester) : Bool :=
  match who with
  | .fabric a => (s.jnl.fab.any fun b => b.1 == a.toNat) || decide (s.jnl.fab.length < 8)
  | _ => true

/-- Change a requester's command buffer; a fabric requester's first write allocates it (R522). -/
def State.updBuf (s : State) (who : Requester) (f : CmdBuf → CmdBuf) : State :=
  match who with
  | .host => { s with jnl.host := f s.jnl.host }
  | .core | .dma | .bridge => { s with jnl.core := f s.jnl.core }
  | .fabric a =>
    { s with jnl.fab := (s.jnl.fab.filter fun b => b.1 != a.toNat) ++ [(a.toNat, f (s.cmdBuf (.fabric a)))] }

/-- Change a requester's read selectors (R542). -/
def State.updSel (s : State) (who : Requester) (f : ReadSel → ReadSel) : State :=
  { s with jnl.sels := (s.jnl.sels.filter fun x => x.1 != reqId who) ++ [(reqId who, f (s.selOf who))] }

/-- The 64 bytes a buffer holds. -/
def CmdBuf.desc (b : CmdBuf) : List Byte := b.words.toList.flatMap fun w => leBytes 4 w.toNat

/-- The entry whose intent the submission repeats, among the 1,024 newest (R524). -/
def State.tagged (s : State) (desc : List Byte) : Option JEntry :=
  let tag := fieldAt desc 8 8
  if tag = 0 then none
  else (s.jnl.entries.take 1024).find? fun e => e.acrcOk && e.intent == tag

/-- The checks of R523 before the duplicate check: 0 when they pass. In HOLD, RESTART_FROM_NVM and NVM_WRITE need an open host session
(R482). -/
def State.submitGate (s : State) (who : Requester) (desc : List Byte) : Nat :=
  if s.sys.st.code < 4 then 1
  else if !descFormat who desc then 2
  else if !sessionFree (fieldAt desc 0 1) ∧ !s.sessionOpen (reqId who) then 3
  else if s.sys.st = .hold ∧ (fieldAt desc 0 1 = 8 ∨ fieldAt desc 0 1 = 9) ∧ !s.sessionOpen 0x200 then 3
  else 0

/-- Commands accepted in the last second (R523). -/
def State.recent (s : State) : List Nat := s.jnl.accepts.filter fun t => decide (s.ts < t + 1000 * msTs)

/-- A submission is rejected (R523). -/
def State.reject (s : State) (who : Requester) (rej : Nat) : State :=
  ((s.updBuf who fun b => { b with disp := 3, rej := rej, ocode := 0, ostat := 0, seq := 0 }).addSat rJnlCnt 31 16 1).orReg rJnlEvt 4

/-- From its acceptance the page of a SWAP_CUSTOMER_PAGE is pending; one accepted while another is pending will be refused (R259). -/
def State.swapPend (s : State) (code seq : Nat) : State :=
  if code ≠ 5 then s
  else if s.psq.swap.isNone then { s with psq.swap := some { seq := seq, checked := false } }
  else { s with psq.swapTwice := s.psq.swapTwice ++ [seq] }

/-- The submission that `who`'s buffer holds is decided (R523 to R525). -/
def State.submit (s : State) (who : Requester) : State :=
  let desc := (s.cmdBuf who).desc
  let g := s.submitGate who desc
  if g ≠ 0 then s.reject who g
  else match s.tagged desc with
    | some e =>
      if e.code = fieldAt desc 0 1 ∧ e.argdig = argDigest desc then
        (s.updBuf who fun b => { b with disp := 2, rej := 0, ocode := e.ocode, ostat := e.ostat, seq := e.seq }).addSat rJnlCnt 15 0 1
      else s.reject who 4
    | none =>
      if 10000 ≤ s.recent.length then s.reject who 5
      else if 32 ≤ s.jnl.queue.length then s.reject who 6
      else
        let (s, n) := s.journalAdd (reqId who) desc 0
        let q : QCmd := { seq := n, req := who, desc := desc, at_ := s.ts }
        let s := ({ s with jnl := { s.jnl with queue := s.jnl.queue ++ [q], accepts := s.ts :: s.recent } } : State).swapPend q.code n
        (s.updBuf who fun b => { b with disp := 1, rej := 0, ocode := 0, ostat := 0, seq := n }).orReg rJnlEvt 1

/-- A write of command word `i` (R522): the last one submits. A ninth fabric requester's write is dropped. -/
def State.cmdWordWrite (s : State) (who : Requester) (i : Nat) (w : Word) : State :=
  if !s.bufOpen who then s.orReg rJnlEvt 0x20
  else
    let s := s.updBuf who fun b => { b with words := setV b.words i w, last := s.ts }
    s.when (i = 15) fun s => s.submit who

/-- The sixteen words of a descriptor are written, and it is submitted. -/
def State.submitDesc (s : State) (who : Requester) (desc : List Byte) : State :=
  let t := (List.range 16).foldl (fun s i => s.cmdWordWrite who i (w32 (fieldAt desc (4 * i) 4))) s
  if s.bufOpen who then t.touch (reqId who) else t

/-- The states in which a command executes (R457, R505, R508, R511). -/
def stateAllows (code : Nat) (st : DState) : Bool :=
  let live := st == .armed || st == .running
  if code = 0x01 then st == .armed
  else if code = 0x02 then st == .running
  else if code = 0x03 ∨ code = 0x04 ∨ code = 0x05 ∨ code = 0x0B ∨ code = 0x0C ∨ code = 0x0D then live
  else if code = 0x06 then live || st == .faultStop
  else if code = 0x08 then live || st == .hold || st == .faultStop
  else if code = 0x09 then st == .hold
  else decide (4 ≤ st.code)

/-- A command leaves for the wait list, or is refused FULL (R526). -/
def State.toWait (s : State) (q : QCmd) (f : State → State) : State :=
  if 16 ≤ s.jnl.wait.length then s.endCmd q 2 8 0
  else f { s with jnl.wait := s.jnl.wait ++ [q] }

/-- An argument field of a queued command. -/
def QCmd.arg (q : QCmd) (i k : Nat) : Nat := fieldAt q.desc (16 + i) k

/-- START_OUTPUTS (R341, R456). With the die link lost no dispatch gap comes, and it waits (R31). -/
def State.doStart (s : State) (q : QCmd) : State :=
  if s.sys.cenStop then s.endCmd q 2 7 0
  else
    let l := (s.dom (s.fdom.getD 0)).lock
    if l = .locked ∨ l = .coast ∨ !s.sys.dieLink then s.toWait q id
    else s.enableOutputs.endCmd q 1 0 0

/-- STOP_OUTPUTS (R456). -/
def State.doStop (s : State) (q : QCmd) : State := s.stopOutputs.endCmd q 1 0 0

/-- SELECT_RECIPE (R28, R30, R206). -/
def State.doSelect (s : State) (q : QCmd) : State :=
  let r := q.arg 0 1
  let d := q.arg 1 1
  if !s.rcpValid r ∨ 16 ≤ d then s.endCmd q 2 3 0
  else if !bitN (ssModes (s.setBytes (s.rcpSS r))) (s.rcpMode r) then s.endCmd q 2 2 0
  else s.toWait q fun s => s.acceptSwitch q.seq r (s.rcpMode r) false d (signed 64 (q.arg 8 8))

/-- SET_MODE (R210). -/
def State.doMode (s : State) (q : QCmd) : State :=
  let m := q.arg 0 1
  let d := q.arg 1 1
  if 5 ≤ m ∨ 16 ≤ d then s.endCmd q 2 3 0
  else if s.modeRefused (s.frm.recipe.getD 0) m then s.endCmd q 2 2 0
  else s.toWait q fun s => s.acceptSwitch q.seq (s.frm.recipe.getD 0) m true d (signed 64 (q.arg 8 8))

/-- SWAP_CUSTOMER_PAGE (R259): refused when another's page was pending at its acceptance, or is now. -/
def State.doSwap (s : State) (q : QCmd) : State :=
  if s.psq.swapTwice.contains q.seq then s.endCmd q 2 4 0
  else match s.psq.swap with
  | some x => if x.seq = q.seq then s.toWait q id else s.endCmd q 2 4 0
  | none => s.toWait q fun s => { s with psq.swap := some { seq := q.seq, checked := false } }

/-- CLEAR_FAULT (R179, R455, R530). -/
def State.doClear (s : State) (q : QCmd) : State :=
  if s.sys.st = .faultStop then s.bootEnter 3 false
  else
    let ts := s.mappedTiles.filter fun t => decide ((s.tileAt t).st = .halted)
    (ts.foldl (fun s t => s.tileRestart t) s).endCmd q 1 0 ts.length

/-- FREEZE_RECORD (R535). -/
def State.doFreeze (s : State) (q : QCmd) : State :=
  let (s, k, pseq) := s.freeze 2
  s.endCmd q 1 0 (k + 2 ^ 32 * pseq)

/-- RESTART_FROM_NVM (R485). -/
def State.doRestart (s : State) (q : QCmd) : State :=
  let k := q.arg 0 1
  if 3 ≤ k then s.endCmd q 2 3 0
  else
    let s := if k = 2 then s else { s with img.sel := k }
    s.bootEnter 2 (bitN (q.arg 1 1) 0)

/-- The limits of R483. -/
def QCmd.nvmOk (q : QCmd) : Bool :=
  let op := q.arg 0 1
  let o := q.arg 4 4
  let n := q.arg 8 4
  decide (op ≤ 1) && decide (q.arg 1 1 ≤ 1) && decide (o + n ≤ 134217728) &&
  if op = 0 then o % 65536 == 0 && n % 65536 == 0
  else o % 256 == 0 && n % 256 == 0 && decide (256 ≤ n) && decide (n ≤ 1048576)

/-- An NVM_WRITE ends: CFG_NVM and CFG_EVT (R484, R490). -/
def State.nvmEnd (s : State) (q : QCmd) (ostat ocode n : Nat) : State :=
  ((s.setReg rCfgNvm (w32 (fldsOr [(23, 0, n / 256)]))).orReg rCfgEvt (if ostat = 1 then 8 else 16)).endCmd q ostat ocode n

/-- NVM_WRITE (R483, R484), with what the host's memory gave and what the flash cells hold after programming. -/
def State.doNvm (s : State) (q : QCmd) (env : NvmEnv) : State :=
  if !q.nvmOk then s.endCmd q 2 3 0
  else
    let a := q.arg 1 1 * 0x08000000 + q.arg 4 4
    let n := q.arg 8 4
    if q.arg 0 1 = 0 then
      let s := { s with flash.mem := smClearRange s.flash.mem a (a + n) }
      (s.send (.flash "erase" a n)).nvmEnd q 1 0 n
    else if (memGetBytes flashDefault s.flash.mem a n).any fun b => b != 0xFF then s.nvmEnd q 3 0x10 0
    else match (if s.busMaster then env.fetch else none) with
      | none => s.nvmEnd q 3 0x11 0
      | some d =>
        let data := fitBytes n d
        let held := fitBytes n (env.cells.getD data)
        let s := ({ s with flash.mem := memPutBytes flashDefault s.flash.mem a held } : State).send (.flash "program" a n)
        if held = data then s.nvmEnd q 1 0 n else s.nvmEnd q 3 0x12 n

/-- CENSUS_NOW (R342): the queue waits for the round. -/
def State.doCensus (s : State) (q : QCmd) : State := ({ s with jnl.run := some q } : State).cenNow

/-- SET_MARKER_ENABLE (R287). -/
def State.doMarkers (s : State) (q : QCmd) : State := (s.setMarkerEnable (q.arg 0 1)).endCmd q 1 0 (q.arg 0 1)

/-- EPOCH_SWITCH (R343). -/
def State.doEpoch (s : State) (q : QCmd) : State :=
  if 16 ≤ q.arg 1 1 then s.endCmd q 2 3 0 else s.toWait q fun s => s.epochStart q

/-- A firmware command is handed to the control core (R527). -/
def State.doFirmware (s : State) (q : QCmd) : State :=
  if s.core.st = 0 then s.endCmd q 2 9 0 else { s with jnl.fw := some (q, s.ts) }

/-- What a command does once its state check has passed (R521). -/
def State.doCmd (s : State) (q : QCmd) (env : NvmEnv) : State :=
  let c := q.code
  if c = 0x01 then s.doStart q
  else if c = 0x02 then s.doStop q
  else if c = 0x03 then s.doSelect q
  else if c = 0x04 then s.doMode q
  else if c = 0x05 then s.doSwap q
  else if c = 0x06 then s.doClear q
  else if c = 0x07 then s.doFreeze q
  else if c = 0x08 then s.doRestart q
  else if c = 0x09 then s.doNvm q env
  else if c = 0x0A then s.attest q
  else if c = 0x0B then s.doCensus q
  else if c = 0x0C then s.doMarkers q
  else if c = 0x0D then s.doEpoch q
  else if c = 0x0E then s.tokenCommand q .debug
  else if c = 0x0F then s.tokenCommand q .advance
  else s.doFirmware q

/-- The next command may be executed (R526, R527). -/
def State.cmdFree (s : State) : Bool := s.jnl.fw.isNone && s.jnl.run.isNone

/-- A command that would change the device state waits at the head of the queue while the state stands under a FATAL event (R541; DEDUCED,
log 118). -/
def State.cmdStands (s : State) (code : Nat) : Bool := s.fatalStands && [0x01, 0x02, 0x08, 0x0E, 0x0F].contains code

/-- Execute the command at the head of the queue, with the state check of R457. -/
def State.execHead (s : State) (env : NvmEnv) : State :=
  match s.jnl.queue with
  | [] => s
  | q :: r =>
    if !s.cmdFree || s.cmdStands q.code then s
    else
      let s := { s with jnl.queue := r }
      (if stateAllows q.code s.sys.st then s.doCmd q env else s.endCmd q 2 1 0).goNext

/-- Submit a command and, when nothing is before it in the queue, execute it with `f` in place of the general choice (R526). A submission that
cannot reach the registers waits (R432). -/
def State.command (s : State) (who : Requester) (code intent : Nat) (args : List Byte) (f : State → QCmd → State) : State :=
  let t := if s.busHeld who then s else s.submitDesc who (descOf code intent args)
  match s.jnl.queue, t.jnl.queue with
  | [], [q] =>
    if !t.cmdFree || t.cmdStands q.code then t
    else
      let t := { t with jnl.queue := [] }
      (if stateAllows q.code t.sys.st then f t q else t.endCmd q 2 1 0).goNext
  | _, _ => t

/-- An open firmware command completes (R527). -/
def State.fwDone (s : State) (ostat ocode odata : Nat) : State :=
  match s.jnl.fw with
  | some (q, _) => ({ s with jnl.fw := none } : State).complete q.seq ostat ocode odata
  | none => s

end Sys2Proof.Machine
end

