-- ==== Sys2Proof/Machine/LoadCmd.lean ====
section
/-! DEFINITION. Meanings of power, reset and start-up events (R455 to R474, R565 to R569, R581). -/
namespace Sys2Proof.Machine

/-- A rail came up monotonically within R567's times, inside its range of R566 (`lo` to `hi` mV). -/
def railOk (r : RailUp) (lo hi : Nat) : Bool :=
  inRng 100 10000 r.rise && decide (r.start ≤ r.inRange) && decide (lo ≤ r.mv) && decide (r.mv ≤ hi)

/-- The power-up of R567 was kept, with every rail inside R566. VDD_ARR comes up at 0.75 V. -/
def powerOk (p : PowerUp) : Bool :=
  let one := max p.ld33.inRange (max p.mram.inRange p.ld.inRange)
  let first := min p.ld33.start (min p.mram.start p.ld.start)
  let two := max p.sram.inRange p.core.inRange
  let four := fun (r : RailUp) => decide (two ≤ r.start)
  railOk p.ld33 3135 3465 && railOk p.mram 1710 1890 && railOk p.ld 855 945 && railOk p.sram 776 824 && railOk p.core 728 773 &&
  railOk p.arr 735 765 && railOk p.sdsL 825 875 && railOk p.sdsH 1164 1236 && railOk p.gdq 1164 1236 && railOk p.io18 1710 1890 &&
  decide (one ≤ first + 20000) && decide (one ≤ p.sram.start) && decide (one ≤ p.core.start) && decide (p.sram.inRange ≤ p.core.inRange) &&
  decide (p.core.inRange ≤ p.arr.start) && four p.sdsL && four p.sdsH && four p.gdq && four p.io18

/-- The device in reset (R569, R581, R582): every register at its reset value, what OTP, eMRAM and flash hold standing, the balls at high
impedance, FAULT_N low. Bytes of the RAMs stand unless power was lost (log 16). -/
def State.inReset (s : State) (cause : Nat) (powerLost : Bool) : State :=
  let z := State.reset
  let encs := z.pos.enc.mapIdx fun i e => { e with a := (s.enc i).a, b := (s.enc i).b, z := (s.enc i).z }
  let s' : State :=
    { z with otp := s.otp, flash := s.flash, pending := s.pending, sent := s.sent, fresh := s.fresh,
             clk.warn := s.clk.warn, peat := { s.peat with queue := [], wroteAt := none, fwLast := none, drop := 0, fwWords := Vector.replicate 4 0 }, sec := s.sec, img.sel := s.img.sel, pcie.perst := s.pcie.perst,
             pcie.train := s.pcie.train,
             jnl.entries := s.jnl.entries, res.gpi := s.res.gpi, pos.enc := encs, core.nmiPin := s.core.nmiPin,
             sys.starts := s.sys.starts, sys.resetCause := cause, sys.resetN := false, sys.resetFall := s.ts, sys.powered := true,
             sys.faultN := true, ts := s.ts,
             balls := { z.balls with trg := Vector.replicate 16 .hiZ, mrk := Vector.replicate 8 .hiZ, gpo := Vector.replicate 16 .hiZ } }
  let s' : State := { s'.secBoot with sec.buf := [], sec.result := 0, sec.svcType := 0, sec.svcAppr := false }
  if powerLost then s' else { s' with gddr := s.gddr, mtx.spm := s.mtx.spm, mtx.mbox := s.mtx.mbox, mtx.spmBad := s.mtx.spmBad }

/-- POWER_ON (R565 to R567): the device begins in reset; outside the ratings and the sequence no operation is implied. -/
def execPowerOn (p : PowerUp) (s : State) : Host.Outcome State Fault Refusal :=
  if s.sys.powered then .next s
  else if powerOk p then .next (s.inReset 0 true)
  else .fault .outOfRating

/-- Whether a low level of 1 µs to 10 µs on RESET_N resets the device: R578 ignores below 1 µs, R581 needs 10 µs (log 21). -/
def State.shortReset (s : State) : Bool := s.freeNat 1 == 1

/-- RESET_N_ASSERT (R578, R581): RESET_N has been low for `ns` nanoseconds. -/
def execResetNAssert (ns : Nat) (s : State) : Host.Outcome State Fault Refusal :=
  if !s.sys.powered ∨ !s.sys.resetN ∨ ns < 1000 then .next s
  else if 10000 ≤ ns ∨ s.shortReset then .next ((s.tick 1).inReset 1 false)
  else .next (s.tick 1)

/-- RESET_N_RELEASE (R569, R581): the Lagg die starts BOOT; a release sooner than 10 ms after power-up breaks R567. -/
def execResetNRelease (s : State) : Host.Outcome State Fault Refusal :=
  if !s.sys.powered ∨ s.sys.resetN then .next s
  else if s.sys.resetCause = 0 ∧ s.ts < s.sys.resetFall + 10 * msTs then .fault .outOfRating
  else
    let s : State :=
      { s with ts := 0, sys.resetN := true, sys.faultN := false, sys.starts := s.sys.starts + 1, sys.releaseTs := 0, sys.stAt := 0,
               balls.trg := Vector.replicate 16 .low }
    .next (s.goState .boot).gpoRefresh

/-- The xSPI port is set up at BOOT: XSPI_RST_N is pulsed, the flash identified (R459, R490). -/
def State.setupFlash (s : State) : State :=
  let mode := if !s.flash.present then 2 else if s.flash.octal then 0 else 1
  (({ s with img.xspiMode := mode } : State).send (.flash "XSPI_RST_N" 0 0)).setReg rCfgXspiDev (w32 (s.flash.density * 2 ^ 24 + s.flash.jedec % 2 ^ 24))

/-- BOOT_SELFTEST_DONE (R455, R494 to R496, R514, R530): the tests of SEC_SELFTEST's bits in their order; `fail` names the one that failed. After
the ROM's own test a pending scrub is completed. -/
def execBootSelftestDone (fail : Option (Fin 9)) (s : State) : Host.Outcome State Fault Refusal :=
  if s.sys.st ≠ .boot ∨ !s.sys.resetN ∨ !s.sys.powered ∨ s.sec.selftest ≠ 0 ∨ s.sec.testFail then .next s
  else match fail with
    | some i =>
      let s := s.when (i ≠ 0 ∧ s.sec.pendMark) State.scrubEnd
      .next (({ s with sec.selftest := 2 ^ i.val - 1, sec.testFail := true } : State).peatSec 3 i s.sec.lc.code s.sec.lc.code)
    | none =>
      let s := s.when s.sec.pendMark State.scrubEnd
      let s : State := { s.deriveKwrap with sec.selftest := 0x1FF, sec.approved := !s.sec.entropyFail, sec.drbg := !s.sec.entropyFail }
      .next s.setupFlash.scanJournal.transientKey.bootGo

/-- IMAGE_VERIFY_DONE (R465). -/
def execImageVerifyDone (s : State) : Host.Outcome State Fault Refusal :=
  if s.sys.st = .verify then .next s.verify else .next s

/-- LOAD_SECTION_DONE (R466). -/
def execLoadSectionDone (s : State) : Host.Outcome State Fault Refusal :=
  if s.sys.st = .load then .next s.loadSection else .next s

/-- LOAD_DONE (R467). -/
def execLoadDone (s : State) : Host.Outcome State Fault Refusal :=
  if s.sys.st = .load ∧ s.img.done = s.img.sects.length then .next s.loadEnd else .next s

/-- The section that the second read was reading: a schedule set or a table set; which is free, as the row does not say (log 112). -/
def State.rereadSect (s : State) : Nat :=
  let l := (List.range s.img.sects.length).filter fun i => match s.img.sects[i]? with
    | some e => e.type == 3 || e.type == 4
    | none => false
  l.getD (s.freeNat 8 % max 1 l.length) 0xFF

/-- FLASH_READ_TIMEOUT (R459, R468): a read of VERIFY, LOAD or the second read of TRAIN without response. -/
def execFlashReadTimeout (s : State) : Host.Outcome State Fault Refusal :=
  match s.sys.st with
  | .verify => .next (s.slotBad 0x30 0xFF 0 0)
  | .load => if s.img.done < s.img.sects.length then .next (s.slotBad 0x30 s.img.done 0 0) else .next s
  | .train => if s.img.reread ∨ s.fatalStands then .next s else .next ((s.tick 1).slotBad 0x30 s.rereadSect 0 0)
  | _ => .next s

/-- TRAIN_REREAD_DONE (R468): once GDDR7 training has ended. -/
def execTrainRereadDone (s : State) : Host.Outcome State Fault Refusal :=
  if s.sys.st ≠ .train ∨ s.fatalStands ∨ s.img.reread ∨ s.gdc.toList.any (fun g => g.st == 1) then .next s
  else match s.rereadBad with
    | some i => .next (s.slotBad 0x31 i 0 0)
    | none => .next s.rereadEnd

/-- TRAIN_END (R458). -/
def execTrainEnd (s : State) : Host.Outcome State Fault Refusal :=
  if s.sys.st = .train ∧ !s.fatalStands ∧ s.trainOver then .next s.arm else .next s

end Sys2Proof.Machine
end

