-- ==== Sys2Proof/Machine/ClkOps.lean ====
section
/-! DEFINITION. Supplies, adaptive voltage and thermal control (R197, R570 to R572, R575, R576). -/
namespace Sys2Proof.Machine

/-- Request ACLK step `n` (R197, R571) in place of one that is still open: a slower one waits for the gap; a faster one waits for its voltage
when AVS is in use. -/
def State.requestStep (s : State) (n : Nat) : State :=
  if n < s.frm.step ∧ s.rbit rClkAvsCtrl 7 then
    let s := s.avsTarget n
    { s with frm.stepReq := none, clk.avsStep := some n, clk.avsAt := s.ts, clk.avsRetry := none }
  else { s with frm.stepReq := some n, clk.avsStep := none, clk.avsRetry := none }

/-- A request for the next slower step (R575); at 0.9 GHz there is none. -/
def State.stepDown (s : State) : State :=
  if s.frm.step < 4 then (({ s with clk.permit := s.frm.step + 1 } : State).addSat rClkTherm 31 16 1).requestStep (s.frm.step + 1) else s

/-- A request for the next faster step (R575). -/
def State.stepUp (s : State) : State :=
  if s.frm.step = 0 then s
  else
    let s := { s with clk.permit := min s.clk.permit (s.frm.step - 1) }
    if s.fastest ≤ s.frm.step - 1 then s.requestStep (s.frm.step - 1) else s

/-- STEP_CAP was written: requests for a step faster than it end, and a faster step in force is given up (R575; DEDUCED, log 23). -/
def State.capStep (s : State) : State :=
  let lim := s.rf rClkCtrl 2 0
  let s := s.limitSteps lim
  if s.frm.step < lim then s.requestStep lim else s

/-- Thermal shutdown (R31, R576). -/
def State.thermShutdown (s : State) : State :=
  (({ s with clk.shutdown := true } : State).outputsSafe).raise evThermShutdown 0 0 0

/-- A sample at or above 100 °C is counted (R591). -/
def State.hotCount (s : State) : State :=
  let s := { s with clk.hotMs := s.clk.hotMs + 1 }
  s.setRf rClkTherm 15 0 (sat 16 (s.clk.hotMs / 1000))

/-- The control at or above 100 °C (R575): a request at once and every 10 ms; the first of an episode raises THERM_HIGH. -/
def State.hotSample (s : State) : State :=
  let s := { s with clk.coolFrom := none }
  match s.clk.hotReq with
  | none => ((({ s with clk.hotReq := some s.ts } : State).stepDown).orReg rClkEvt 2).raise evThermHigh 0 0 0
  | some t => if t + 10 * msTs ≤ s.ts then ({ s with clk.hotReq := some s.ts } : State).stepDown else s

/-- The control below 95 °C (R575): a faster step after 100 ms. -/
def State.coolSample (s : State) : State :=
  match s.clk.coolFrom with
  | none => { s with clk.coolFrom := some s.ts }
  | some t => if t + 100 * msTs ≤ s.ts then ({ s with clk.coolFrom := some s.ts } : State).stepUp else s

/-- The Lagg die runs: supplied, and out of reset. -/
def State.laggOn (s : State) : Bool := s.sys.powered && s.sys.resetN

/-- One sample of the sensors (R575, R576), in 0.1 °C. A BOOT held by the heat goes on once neither die is too warm. -/
def State.thermal (s : State) (pd ld : Int) : State :=
  let s := { s with clk.tPd := pd, clk.tLd := ld, clk.thermAt := some s.ts }
  let s := s.when (1000 ≤ pd) State.hotCount
  let s := if (1150 ≤ pd ∨ 1150 ≤ ld) ∧ !s.clk.shutdown then s.thermShutdown else s
  if s.clk.shutdown then s.bootGo
  else if 1000 ≤ pd then s.hotSample
  else
    let s := { s with clk.hotReq := none }
    if pd < 950 then s.coolSample else { s with clk.coolFrom := none }

/-- A PMBus transaction was not acknowledged, or a target was not reached (R571, R590). -/
def State.avsFault (s : State) : State := (s.orReg rClkEvt 4).raise evAvsFault 0 0 0

/-- The addresses on the PMBus (R570): those of CLK_PMB_ADDR that are not 0. -/
def State.pmbAddrs (s : State) : List Nat :=
  [s.rf rClkPmbAddr 6 0, s.rf rClkPmbAddr 14 8, s.rf rClkPmbAddr 22 16, s.rf rClkPmbAddr 30 24].filter fun a => a != 0

/-- The limits of R566 for the rails the device watches, in mV: VDD_ARR, VDD_CORE, VDD_LD, VDD_MRAM. Where no target was written and the array is
not in use, VDD_ARR may stand where R567 brings it up, at 0.75 V, or where R572 has a board without AVS hold it, at 0.80 V (DEDUCED, log 119). -/
def State.railRange (s : State) (i : Nat) : Nat × Nat :=
  match i with
  | 0 => if s.rbit rClkAvsCtrl 7 ∧ s.clk.target ≠ 0 then (s.clk.target - 15, s.clk.target + 15)
    else if s.sys.st == .train || s.live then (785, 815) else (735, 815)
  | 1 => (728, 773)
  | 2 => (855, 945)
  | _ => (1710, 1890)

/-- Completions of the last 10 µs may not be written whole when power fails (R528, R529): whether each was is free (log 114). -/
def State.cutOutcomes (s : State) : State :=
  let cut := fun (i : Nat) (e : JEntry) =>
    if e.ostat ≠ 0 ∧ s.ts < e.doneAt + 10 * usTs ∧ bitN (s.freeNat 32) (i % 32) then { e with ocrcOk := false } else e
  ({ s with jnl.entries := s.jnl.entries.mapIdx cut } : State).tick 1

/-- The device without supplies (R15, R508, R568): what eMRAM, OTP and flash hold stands; a transition whose step 6 was not reached has not
happened. -/
def State.unpowered (s : State) : State :=
  let s := (s.undoTransition 0 0 0).cutOutcomes
  let t := s.inReset 0 true
  { t with sys.powered := false, sys.faultN := false }

end Sys2Proof.Machine
end

