-- ==== Sys2Proof/Machine/ClkCmd.lean ====
section
/-! DEFINITION. Meanings of the supply, clock and thermal events (R565 to R576, R590, R591) and of the Lagg die's own timers (R534, R541). -/
namespace Sys2Proof.Machine

/-- THERMAL_SAMPLE (R575, R576), every 1 ms: the eight sensors of the processing die and the one of the Lagg die, in 0.1 °C. -/
def execThermalSample (pd : Vector (BitVec 16) 8) (ld : BitVec 16) (s : State) : Host.Outcome State Fault Refusal :=
  if !s.laggOn ∨ !past s.clk.thermAt msTs s.ts then .next s
  else .next (s.thermal ((pd.toList.map fun t => t.toInt).foldl max (-32768)) ld.toInt)

/-- AVS_VOUT_SETTLED (R570, R571, R590): READ_VOUT is sent and answers in mV; within 10 mV of the target, and within 500 µs, the faster step may
be applied. `none`: it, or the VOUT_COMMAND before it, was not acknowledged (log 125). -/
def execAvsVoutSettled (reply : Option (BitVec 16)) (s : State) : Host.Outcome State Fault Refusal :=
  if !s.laggOn ∨ !s.rbit rClkAvsCtrl 7 then .next s
  else
    let s := s.send (.pmbus (s.rf rClkAvsCtrl 6 0) "READ_VOUT" 0)
    match reply with
    | none => .next s.avsFault
    | some mv =>
      let s := { s with clk.vout := mv.toNat }
      match s.clk.avsStep with
      | some n =>
        if s.clk.target ≤ mv.toNat + 10 ∧ mv.toNat ≤ s.clk.target + 10 ∧ s.ts ≤ s.clk.avsAt + 500 * usTs then
          .next { s with clk.avsStep := none, frm.stepReq := some n }
        else .next s
      | none => .next s

/-- AVS_TIMEOUT (R571): 500 µs after a faster step's target was written. -/
def execAvsTimeout (s : State) : Host.Outcome State Fault Refusal :=
  match s.clk.avsStep with
  | some n =>
    if s.clk.avsAt + 500 * usTs ≤ s.ts then
      .next ({ s with clk.avsStep := none, clk.avsRetry := some (n, s.ts + 100 * msTs) } : State).avsFault
    else .next s
  | none => .next s

/-- AVS_RETRY (R571): 100 ms after a step was not taken; the limits of R575 still hold. -/
def execAvsRetry (s : State) : Host.Outcome State Fault Refusal :=
  match s.clk.avsRetry with
  | some (n, t) =>
    if t ≤ s.ts then
      let s := { s with clk.avsRetry := none }
      if n < s.frm.step ∧ s.fastest ≤ n then .next (s.requestStep n) else .next s
    else .next s
  | none => .next s

/-- PMB_ALERT_INPUT (R570, R590): `acked`, every transaction was acknowledged. -/
def execPmbAlertInput (acked : Bool) (s : State) : Host.Outcome State Fault Refusal :=
  if !s.laggOn then .next s
  else
    let avs := s.rf rClkAvsCtrl 6 0
    let all := if avs = 0 then s.pmbAddrs else s.pmbAddrs ++ [avs]
    let s := all.foldl (fun s a => s.send (.pmbus a "STATUS_WORD" 0)) s
    let s := all.foldl (fun s a => s.send (.pmbus a "CLEAR_FAULTS" 0)) s
    let s := (s.orReg rClkEvt 8).raise evPmbAlert 0 0 0
    .next (if acked then s else s.avsFault)

/-- SUPPLY_WARN_TIMER (R590): VDD_ARR, VDD_CORE, VDD_LD and VDD_MRAM as they have stood for more than 100 µs, in mV. A rail that was
outside already raises nothing. -/
def execSupplyWarnTimer (mv : Vector (BitVec 16) 4) (s : State) : Host.Outcome State Fault Refusal :=
  if !s.laggOn then .next s
  else
    let v := fun i => (atV mv i 0).toNat
    let out := maskOf 4 fun i => decide (v i < (s.railRange i).1) || decide ((s.railRange i).2 < v i)
    let new := (List.range 4).any fun i => bitN out i && !bitN s.clk.warn i
    let s := (s.setReg rClkMon0 (w32 (v 1 * 65536 + v 0))).setReg rClkMon1 (w32 (v 3 * 65536 + v 2))
    let s := { s with clk.warn := out }
    .next (if new then (s.orReg rClkEvt 16).raise evSupplyWarn 0 out 0 else s)

/-- POWER_SAMPLE (R591), every 100 ms: READ_POUT of each address in use, in 0.1 W; `none`: not acknowledged (R590). -/
def execPowerSample (pout : Vector (Option (BitVec 16)) 4) (s : State) : Host.Outcome State Fault Refusal :=
  if !s.laggOn ∨ !past s.clk.powerAt (100 * msTs) s.ts then .next s
  else
    let as := s.pmbAddrs
    let got := (List.range as.length).map fun i => atV pout i none
    let s := as.foldl (fun s a => s.send (.pmbus a "READ_POUT" 0)) s
    let s := { s with clk.power := sumN (got.map fun p => (p.getD 0).toNat), clk.powerAt := some s.ts }
    .next (if got.any Option.isNone then s.avsFault else s)

/-- POWER_LOSS (R15, R514, R534, R568): the supplies fall; queued peat entries and every volatile value are lost. -/
def execPowerLoss (s : State) : Host.Outcome State Fault Refusal := if s.sys.powered then .next s.unpowered else .next s

/-- HEALTH_SAMPLE (R533, R534, R591), every 100 ms. -/
def execHealthSample (s : State) : Host.Outcome State Fault Refusal :=
  let t := s.reg rClkMon0
  let u := s.reg rClkMon1
  if !s.laggOn ∨ !past s.clk.healthAt (100 * msTs) s.ts then .next s
  else .next (({ s with clk.healthAt := some s.ts } : State).peatPush 0x07 s.frm.step (leBytes 2 (unsigned 16 s.clk.tPd) ++ leBytes 2 (unsigned 16 s.clk.tLd) ++
    leBytes 2 (bits t 15 0) ++ leBytes 2 (bits t 31 16) ++ leBytes 2 (bits u 15 0) ++ leBytes 2 (bits u 31 16) ++
    leBytes 2 (sat 16 s.clk.power)))

/-- PEAT_ENTRY_WRITE (R534, R535): the entry that has waited longest is written, past the frozen regions; entries follow each other 5 µs
apart, 200,000 in a second (DEDUCED, log 102). -/
def execPeatEntryWrite (s : State) : Host.Outcome State Fault Refusal :=
  match s.peat.queue with
  | r :: q =>
    if !s.laggOn ∨ !past s.peat.wroteAt (5 * usTs) s.ts then .next s
    else .next (({ s with peat := { s.peat with queue := q, wroteAt := some s.ts } } : State).peatWrite r)
  | [] => .next s

/-- FATAL_TIMEOUT (R541): FATAL_TO after the FATAL event. -/
def execFatalTimeout (s : State) : Host.Outcome State Fault Refusal :=
  if s.fatalStands ∧ s.eru.fatalDue ≤ s.ts then
    .next s.enterFaultStop
  else .next s

end Sys2Proof.Machine
end

