-- ==== Sys2Proof/Machine/Gddr.lean ====
section
/-! DEFINITION. GDDR7 ports: training, tracking, refresh, retries, on-die ECC, loss of a port (R439 to R454); errors that the matrix
records (R429). -/
namespace Sys2Proof.Machine

def State.updGdc (s : State) (p : Nat) (f : GdcPort → GdcPort) : State := { s with gdc := updV s.gdc p f }

/-- Port `p` enters LOST (R31, R442, R448, R475). -/
def State.gdcLost (s : State) (p : Nat) : State :=
  { ((s.updGdc p fun g => { g with st := 3, syscopy := false }).orReg (rGdcPEvt p) 8) with frm.fallbackReq := true }

/-- A slice write that exhausted its retries (R447): its slot's header carries an M no reader expects. -/
def State.slotDead (s : State) (h q : Nat) (m : Int) : State :=
  let a := gddrKey (s.slotPort h) (s.slotAddr h q m)
  { s with gddr := memPutBytes ramDefault s.gddr (a + 8) (leBytes 8 0x8000000000000000) }

/-- A clip that waits reads line `m` of plane `q` of head `h`: the head owns a column of it (R124, R274). -/
def State.clipReads (s : State) (c : ClipJob) (h q : Nat) (m : Int) : Bool :=
  bitN c.planes q && decide (c.m ≤ m) && decide (m < c.m + (c.h : Int)) &&
    (List.range c.w).any fun i => s.ownerOf c (c.x + (i : Int)) == some h

/-- A clip read failed: it is one of the first waiting clip that reads that line, as clips are read one after the other (R274, R447). -/
def State.clipDead (s : State) (h q : Nat) (m : Int) : State :=
  let i := s.res.clips.findIdx fun c => s.clipReads c h q m
  { s with res.clips := s.res.clips.modify i fun c => { c with dead := (h, q, m) :: c.dead.filter fun x => x != (h, q, m) } }

/-- What a requester does with a request that exhausted its retries (R447). -/
def State.reqDead (s : State) (write : Bool) : GddrReq → State
  | .slot h q m => s.slotDead h q m
  | .stream h q j => s.stage h q j true
  | .clip h q m => s.clipDead h q m
  | .window m a => match s.owedTo m write a.toNat with
    | some k => s.owedDrop k
    | none => (s.mtxError 2 m 2 write a.toNat).endedBy m 2 write a.toNat
  | .own => s

/-- A request that succeeds: a response owed to a master that was reset is dropped (R449). -/
def State.reqLives (s : State) (write : Bool) : GddrReq → State
  | .window m a => match s.owedTo m write a.toNat with
    | some k => s.owedDrop k
    | none => s
  | _ => s

/-- A request exhausted its retries, or read an uncorrectable word (R445 to R448). -/
def State.gdcExhausted (s : State) (r : GddrDone) : State :=
  let p := r.port.val
  let s := ((s.addSat (rGdcPRetryFail p) 31 0 1).setReg64 (rGdcPErrAddrLo p) r.addr.toNat).orReg (rGdcPEvt p) 2
  let s := s.raise evGdcRetryFail p 0 r.addr.toNat
  let s := s.reqDead r.write r.req
  let fails := s.ts :: (s.gdcAt p).fails.filter fun t => decide (s.ts < t + msTs)
  let s := s.updGdc p fun g => { g with fails := fails }
  if s.rf (rGdcPCtrl p) 23 16 ≤ fails.length then (s.gdcLost p).raise evGdcPortLost p 0 0 else s

/-- GDDR7_TRAIN_DONE (R442). -/
def execGddr7TrainDone (t : GddrTrain) (s : State) : Host.Outcome State Fault Refusal := s.clocked fun s =>
  let p := t.port.val
  if (s.gdcAt p).st ≠ 1 then .next s
  else
    let s := s.updGdc p fun g => { g with attempts := if t.passed then t.attempts else 3, step := if t.passed then 5 else t.step, trainMs := t.ms.toNat }
    let s := s.each 24 fun i s => s.setReg (rGdcPEye p i) ((t.eyes.getD i 0).setWidth 32)
    if t.passed then .next (s.updGdc p fun g => { g with st := 2 })
    else .next ((s.gdcLost p).raise evGdcTrainFail p 0 0)

/-- GDDR7_TRACKING (R443, R454): with what the controller measured over the last 1 ms. -/
def execGddr7Tracking (p : Fin 8) (temp : BitVec 8) (bwWr bwRd : BitVec 32) (s : State) : Host.Outcome State Fault Refusal := s.clocked fun s =>
  if (s.gdcAt p).st ≠ 2 then .next s
  else .next (((s.setReg (rGdcPTemp p) (temp.setWidth 32)).setReg (rGdcPBwWr p) bwWr).setReg (rGdcPBwRd p) bwRd)

/-- GDDR7_REFRESH (R444): a stall of `stall` × 10 ns, `share` the part of the last 100 µs in 0.01 %. -/
def execGddr7Refresh (p : Fin 8) (stall share : BitVec 16) (s : State) : Host.Outcome State Fault Refusal := s.clocked fun s =>
  if (s.gdcAt p).st ≠ 2 then .next s
  else .next (s.setReg (rGdcPRefresh p) (w32 (max stall.toNat (s.rf (rGdcPRefresh p) 31 16) * 65536 + share.toNat)))

/-- GDDR7_REQUEST_DONE (R445, R446). A request queued for a LOST port is answered as one that exhausted its retries (R448). -/
def execGddr7RequestDone (r : GddrDone) (s : State) : Host.Outcome State Fault Refusal := s.clocked fun s =>
  let p := r.port.val
  if (s.gdcAt p).st = 3 then .next (s.reqDead r.write r.req)
  else if (s.gdcAt p).st ≠ 2 then .next s
  else
    let ce := r.corrected
    let ue := r.uncorrectable && !r.write
    let s := if ce then (s.addSat (rGdcPOdeccCe p) 31 0 1).raise evGdcOdeccCe p 0 r.addr.toNat else s
    let s := if ue then (s.addSat (rGdcPOdeccUe p) 31 0 1).orReg (rGdcPEvt p) 4 else s
    if ue ∨ s.rf (rGdcPCtrl p) 11 8 < r.bad then .next (s.gdcExhausted r)
    else if 0 < r.bad then
      .next ((((s.reqLives r.write r.req).addSat (if r.write then rGdcPWrRetry p else rGdcPRdRetry p) 31 0 1).orReg (rGdcPEvt p) 1).raise evGdcRetry p 0 r.addr.toNat)
    else .next (s.reqLives r.write r.req)

end Sys2Proof.Machine
end

