-- ==== Sys2Proof/Machine/RegAcc.lean ====
section
/-! DEFINITION. Register accesses: which offsets a state holds off, the view and session gates, fields by access code, encoding and class,
the actions that writes start and the side effects of reads (R430, R482, R486 to R488, R501, R502, R506, R507, R542, R545, R551 to R555,
R592). -/
namespace Sys2Proof.Machine

/-- The customer control-store window of R244. -/
def csWindow (o : Nat) : Bool := decide (0x100000 ≤ o) && decide (o < 0x120000)

/-- The registers of blocks that a state holds off read 0 and ignore writes (R482, R545): in HOLD and WIPED the sequencer, lanes, slices,
GDDR7 ports, fabric and tiles. -/
def heldOff (st : DState) (o : Nat) : Bool :=
  (st == .hold || st == .wiped) &&
    (decide (o / 65536 = 2) || (decide (0x100000 ≤ o) && decide (o < 0x800000)) || decide (0x1000000 ≤ o))

/-- What a state holds off of an offset, but for what an open debug gate opens: the registers of the contexts and the customer pages, and the
Kabrimor region of the window (R482, R510; DEDUCED, log 115). -/
def State.shut (s : State) (o : Nat) : Bool :=
  heldOff s.sys.st o &&
    !(s.debugGate 1 && (decide (0x20000 ≤ o ∧ o < 0x20400) || decide (0x118000 ≤ o ∧ o < 0x120000))) &&
    !(s.debugGate 2 && decide (0x100000 ≤ o ∧ o < 0x118000))

/-- In LOAD and TRAIN the host reads the SYS and CFG blocks only (R545). -/
def earlyBlock (o : Nat) : Bool := decide (o / 65536 = 0) || decide (o / 65536 = 9)

/-- The session registers of R502. -/
def sessionReg (o : Nat) : Bool :=
  o == rSecClaim || o == rSecSvc || o == rSecSessClose || (decide (rSecChal 0 ≤ o) && decide (o < rSecChal 8)) ||
    (decide (rSecBuf 0 ≤ o) && decide (o < rSecBuf 8192))

/-- Command words, checked at submission instead (R507, R523; DEDUCED, log 24). -/
def cmdReg (o : Nat) : Bool := decide (rJnlCmdW 0 ≤ o) && decide (o < rJnlCmdW 16)

/-- The read selectors of a requester, which need no session (R542). -/
def selReg (o : Nat) : Bool := o == rJnlRdSelLo || o == rJnlRdSelHi || o == rJnlPeatSel

/-- Registers that the P view accepts from a requester without a session. -/
def openReg (o : Nat) : Bool := sessionReg o || cmdReg o || selReg o

/-- Registers kept per requester (R542). -/
def perRequester (o : Nat) : Bool :=
  cmdReg o || selReg o || o == rJnlCmdStat || o == rJnlCmdSeqLo || o == rJnlCmdSeqHi

/-- The key of a latched _HI partner. -/
def latchKey (who : Requester) (o : Nat) : Nat := if perRequester o then o + 2 ^ 32 * (1 + reqId who) else o

/-- Fields that read 0 whatever was written: write-only ones, and set bits without a stated reading (R555). -/
def readMask (o : Nat) (w : Word) : Word :=
  match regSpec o with
  | some r =>
    r.fields.foldl (fun w f => if f.acc = .wo ∨ (f.acc = .w1s ∧ o ≠ rSecTmpEn) then putBits w f.hi f.lo 0 else w) w
  | none => w

/-- A register read's value before latches and side effects (R551, R554). -/
def State.regPeek (s : State) (who : Requester) (v : View) (o : Nat) : Word :=
  if csWindow o then (if v = .p then s.csWindowRead (o - 0x100000) else 0)
  else match regSpec o with
    | none => 0
    | some r => if r.pOnly ∧ v = .u then 0 else readMask o (s.viewReg who o)

/-- A register read: value and state after it. A read of MG_RX, of PSQ_UEVT and of a _LO register has an effect of its own. -/
def State.regRead (s : State) (who : Requester) (v : View) (o : Nat) : Word × State :=
  if who = .host ∧ s.sys.st.code < 4 ∧ !earlyBlock o then (0, s)
  else if s.shut o then (0, s)
  else match s.hiLatch.find? fun x => x.1 == latchKey who o with
    | some (k, w) => if v = .u ∧ perRequester o then (0, s) else (w, { s with hiLatch := s.hiLatch.filter fun x => x.1 != k })
    | none =>
      if o = rPsqUevt then s.uevtPop
      else if rIglLMgRx 0 ≤ o ∧ o < rIglLMgRx 32 ∧ o % 0x1000 = 0x58 then s.mgRxRead ((o - rIglLMgRx 0) / 0x1000)
      else
        let w := s.regPeek who v o
        if isLo o ∧ !(v = .u ∧ perRequester o) then
          let k := latchKey who (o + 4)
          (w, { s with hiLatch := (k, s.regPeek who v (o + 4)) :: s.hiLatch.filter fun x => x.1 != k })
        else (w, s)

/-- A reserved encoding was written (R552, R592). -/
def State.reservedEnc (s : State) : State := (s.orReg rCfgEvt 2).raise evCfgReservedEnc 0 0 0

/-- A write met a static field with another value (R486). -/
def State.staticWrite (s : State) (o : Nat) : State := ((s.setReg rCfgSwAddr (w32 o)).orReg rCfgEvt 1).raise evCfgStaticWrite 0 0 0

/-- A write to an F-class register takes effect at once (R487). -/
def State.shadowNow (s : State) (o : Nat) : Bool :=
  !s.live ||
  (match s.shadowDom o with
    | some d => decide ((s.dom d).lock ≠ .locked) && decide ((s.dom d).lock ≠ .coast)
    | none => true) ||
  (match s.frm.recipe with
    | some r => decide (rLcuSCtrl 0 ≤ o) && decide (o < rLcuSCtrl 32) && !s.rcpHead r ((o - rLcuSCtrl 0) / 0x1000)
    | none => true)

/-- The shadow of an F-class register takes a value (R487); a later write before the same boundary replaces it. -/
def State.shadowPut (s : State) (o hi lo v : Nat) : State :=
  let late := s.frm.running.isNone && decide (0 < s.frm.endTs)
  let old := ((s.shadow.find? fun x => x.1 == o && x.2.2 == late).map (·.2.1)).getD
    (((s.shadow.find? fun x => x.1 == o).map (·.2.1)).getD (s.reg o))
  { s with shadow := (s.shadow.filter fun x => !(x.1 == o && x.2.2 == late)) ++ [(o, putBits old hi lo v, late)] }

/-- A write that takes effect at once stands over older shadows of the register too: the last write stands (R487). -/
def State.shadowMend (s : State) (o hi lo v : Nat) : State :=
  { s with shadow := s.shadow.map fun x => if x.1 = o then (o, putBits x.2.1 hi lo v, x.2.2) else x }

/-- One field of a written word by its access code, encoding and class (R486 to R488, R552, R555, R592). -/
def State.putField (s : State) (o : Nat) (r : RSpec) (f : RField) (w : Nat) : State :=
  let v := f.val w
  match f.acc with
  | .rw =>
    if !f.allows r.reset v || !fieldStep o f v then s.reservedEnc
    else match f.cls with
      | .s => if s.img.ended ∧ v ≠ f.val (s.reg o).toNat then s.staticWrite o else s
      | .f => if s.shadowNow o then (s.shadowMend o f.hi f.lo v).setRf o f.hi f.lo v else s.shadowPut o f.hi f.lo v
      | .l => s.setRf o f.hi f.lo v
  | .w1c => s.setRf o f.hi f.lo (f.val (s.reg o).toNat - (f.val (s.reg o).toNat &&& v))
  | _ => s

/-- Every field of a written word. -/
def State.putWord (s : State) (o : Nat) (w : Word) : State :=
  match regSpec o with
  | some r => r.fields.foldl (fun s f => s.putField o r f w.toNat) s
  | none => s

/-- A capture slot is freed (R539, R541): with the last FATAL slot freed, the device enters FAULT_STOP. -/
def State.eruFree (s : State) (i : Nat) : State :=
  let s := ({ s with eru := { s.eru with slots := updV s.eru.slots i fun x => { x with valid := false } } } : State).nmiEdge
  if 6 ≤ i ∧ s.fatalStands ∧ !(s.slotAt 6).valid ∧ !(s.slotAt 7).valid then s.enterFaultStop
  else s

/-- Frozen regions are released on demand (R535). -/
def State.freezeRelease (s : State) (mask : Nat) : State :=
  let keep := fun (k : Nat) => !bitN mask k
  { s with peat := { s.peat with regions := Vector.ofFn fun (k : Fin 4) => if keep k then s.peat.regions[k] else none,
                                 order := s.peat.order.filter keep } }

/-- TMP_IN inputs are armed for good (R513). -/
def State.tamperArm (s : State) (mask : Nat) : State := { s with sec.tmpEn := s.sec.tmpEn ||| (mask % 16) }

/-- A write of SEC_BUF (R501). -/
def State.secBufWrite (s : State) (o : Nat) (w : Word) : State :=
  { s with sec.buf := memPutBytes ramDefault s.sec.buf (o - rSecBuf 0) (leBytes 4 w.toNat) }

/-- A DMA channel is started (R433): with a length of 0 it does nothing (R592). A running channel goes on. -/
def State.dmaGo (s : State) (c : Nat) : State :=
  if (s.dmaAt c).busy then s
  else if s.rf (rMtxDmaLen c) 23 0 = 0 then s.reservedEnc
  else
    { s with mtx.dma := updV s.mtx.dma c fun d =>
        { d with src := (s.reg (rMtxDmaSrc c)).toNat, dst := (s.reg (rMtxDmaDst c)).toNat, left := s.rf (rMtxDmaLen c) 23 0, busy := true } }

/-- `k`, a master or 7 + c for channel c of the DMA, is reset with `n` transactions open (R432; log 109). -/
def State.masterReset (s : State) (k n : Nat) : State :=
  if n = 0 then s
  else
    let s := (s.orReg rMtxEvt 2).raise evMtxMasterReset 0 (if 7 ≤ k then 2 else k) n
    { s with mtx.owed := (k, n, s.ts) :: s.mtx.owed.filter fun o => o.1 != k }

/-- A port of the core is reset (R414, R432). Of a core that runs, how many transactions are open then, beside those that the matrix has ended,
is free, at most 16 (R427; log 109). -/
def State.portReset (s : State) (m : Nat) : State :=
  let n := (s.mtx.late.filter fun x => x.1 == m).length
  let n := min 16 (n + if s.core.st = 1 then s.freeNat 17 % 17 else 0)
  (({ s with mtx.late := s.mtx.late.filter fun x => x.1 != m } : State).tick 1).masterReset m n

/-- ABORT of a DMA channel (R432, R433): its transactions are dropped, what was written stands. How many of its four are open is free (R427;
log 109). -/
def State.dmaAbort (s : State) (c : Nat) : State :=
  if (s.dmaAt c).busy then
    (({ s with mtx.dma := updV s.mtx.dma c fun d => { d with busy := false, left := 0 } } : State).tick 1).masterReset (7 + c) (s.freeNat 5 % 5)
  else s

/-- Of the crossers with a transfer in progress, and of the entries on their way in the FIFOs, those towards a side that is reset are dropped and
counted (R436). Which crossers lead there, and how many entries there are, is free (log 110). -/
def State.crossDrop (s : State) : State :=
  let kept := (List.range s.mtx.cdc.length).filterMap fun i => if (s.tick i).freeNat 1 = 1 then s.mtx.cdc[i]? else none
  let n := s.mtx.cdc.length - kept.length + (s.tick s.mtx.cdc.length).freeNat 16
  ({ s with mtx.cdc := kept } : State).addSat rMtxCdc 15 0 n |>.tick (s.mtx.cdc.length + 1)

/-- MTX_EVT written: VALID of MTX_ERR_INFO ends with the event of its kind (R438). -/
def State.mtxEvtWrite (s : State) (w : Nat) : State :=
  let bit := [31, 2, 0, 3, 4].getD (s.rf rMtxErrInfo 30 28) 31
  s.when (bitN w bit) fun s => s.setRf rMtxErrInfo 31 31 0

/-- CCD_CTRL.CORE_RST (R414, R432): the core starts again at its firmware entry; in HOLD, or without firmware, it stays in reset. -/
def State.coreReset (s : State) : State :=
  match s.core.entry with
  | some e => if s.core.st = 0 then s else
      ((({ s with balls.ccLockup := false } : State).portReset 0).portReset 1).crossDrop.coreStart e
  | none => s

/-- What a write starts beside its fields: the W1S actions, and registers with a behaviour of their own. -/
def State.regAct (s : State) (who : Requester) (o : Nat) (w : Word) : State :=
  let n := w.toNat
  let id := reqId who
  let b := o / 65536
  if b = 0x3 then
    (if rEruSEvent 0 ≤ o ∧ (o - rEruSEvent 0) % 0x20 = 0 ∧ bitN n 31 then s.eruFree ((o - rEruSEvent 0) / 0x20) else s)
  else if b = 0x4 then
    if cmdReg o then s.cmdWordWrite who ((o - rJnlCmdW 0) / 4) w
    else if selReg o then
      s.updSel who fun c =>
        { rdSelLo := if o = rJnlRdSelLo then w else c.rdSelLo, rdSelHi := if o = rJnlRdSelHi then w else c.rdSelHi,
          peatSel := if o = rJnlPeatSel then w &&& w32 0x3FFFF else c.peatSel }
    else if o = rJnlFrzRel then s.freezeRelease n
    else if o = rJnlFwDone then
      if !bitN n 31 then s
      else if s.rf rJnlFwDone 2 0 = 0 then s.reservedEnc
      else s.fwDone (s.rf rJnlFwDone 2 0) (s.rf rJnlFwDone 15 8) (s.reg64 rJnlFwOdataLo)
    else s
  else if b = 0x5 then
    if rSecBuf 0 ≤ o then s.secBufWrite o w
    else if o = rSecClaim then
      let s := s.when (bitN n 31) fun s => s.secClaim id
      s.when (bitN n 30) fun s => s.secRelease id
    else if o = rSecSvc then s.when (bitN n 31) fun s => s.secGo id
    else if o = rSecSessClose then s.when (bitN n 0) fun s => s.closeSession id
    else if o = rSecTmpEn then s.tamperArm n
    else s
  else if b = 0x6 then
    if o = rMtxEvt then s.mtxEvtWrite n
    else if o = rMtxMbxDbInset then s.orReg rMtxMbxDbIn n
    else if o = rMtxMbxDbOutset then s.orReg rMtxMbxDbOut n
    else if rMtxDmaSrc 0 ≤ o ∧ o < rMtxDmaSrc 4 ∧ o % 16 = 12 then
      let c := (o - rMtxDmaSrc 0) / 16
      let s := { s with mtx.dma := updV s.mtx.dma c fun d => { d with done := d.done && !bitN n 28, err := d.err && !bitN n 27 } }
      let s := s.when (bitN n 30) fun s => s.dmaAbort c
      s.when (bitN n 31) fun s => s.dmaGo c
    else s
  else if o = rCcdCtrl then s.when (bitN n 31) fun s => s.coreReset
  else if o = rPcieDbRecCi then s.recCiWrite n
  else if o = rPcieDbClipCi then s.clipCiWrite n
  else if b = 0xA then
    if o < rIoxEncCfg 4 ∧ o % 16 = 12 then
      s.updEnc ((o - rIoxEncCfg 0) / 16) fun e =>
        { e with zerr := e.zerr && !bitN n 5, qerr := e.qerr && !bitN n 4, ovsp := e.ovsp && !bitN n 3 }
    else if o = rIoxTrgEn then s.trgRefresh
    else if o = rIoxGpoOut then s.gpoRefresh
    else s
  else if o = rClkCtrl then s.capStep
  else if b = 0x2 then
    if rPsqCxCtrl 0 ≤ o ∧ o < rPsqCxCtrl 2 ∧ (o - rPsqCxCtrl 0) % 0x20 = 0 then
      s.when (bitN n 31) fun s => s.cxRestart ((o - rPsqCxCtrl 0) / 0x20)
    else if o = rPsqArrFirst then s.when (bitN n 0) fun s => (s.setReg rPsqArrFirst 0).setReg rPsqArrFirstFrm 0
    else s
  else if rIglLCtrl 0 ≤ o ∧ o < rIglLCtrl 32 then
    let k := (o - rIglLCtrl 0) / 0x1000
    if o = rIglLCtrl k then s.when (bitN n 31) fun s => s.laneRetrain k
    else if o = rIglLMgCtrl k then
      let s := s.when (bitN n 30) fun s => s.mgRxDone k
      s.when (bitN n 31) fun s => if s.rf o 6 0 = 0 then s.reservedEnc else s.mgSend k
    else if o = rIglLMgTx k then s.mgTxWrite k w
    else s
  else if rFabPCtrl 0 ≤ o ∧ o < rFabPCtrl 4 then
    let p := (o - rFabPCtrl 0) / 0x1000
    if o = rFabPCtrl p ∧ bitN n 31 then s.fabDown p else s
  else if o = rFabRaCmd then s.when (bitN n 31) fun s => s.raGo
  else if rTileCtrl 0 ≤ o ∧ o < rTileCtrl 272 then
    let t := (o - rTileCtrl 0) / 0x1000
    if o = rTileCtrl t then
      let s := s.when (bitN n 3) fun s => s.tileHwmClear t
      s.when (bitN n 2) fun s => s.tileRestart t
    else s
  else s

/-- The registers of an open firmware command, written by the control core only (R527). -/
def fwReg (o : Nat) : Bool := o == rJnlFwDone || o == rJnlFwOdataLo || o == rJnlFwOdataHi

/-- A DMA channel's SRC, DST and LEN are not written while it is BUSY (R433). -/
def State.dmaLocked (s : State) (o : Nat) : Bool :=
  decide (rMtxDmaSrc 0 ≤ o) && decide (o < rMtxDmaSrc 4) && o % 16 != 12 && (s.dmaAt ((o - rMtxDmaSrc 0) / 16)).busy

/-- Registers whose fields are not kept in the register file: the actions of `regAct` hold them. -/
def keptElsewhere (o : Nat) : Bool :=
  cmdReg o || selReg o || decide (rSecBuf 0 ≤ o ∧ o < rSecBuf 8192) || o == rPcieDbRecCi || o == rPcieDbClipCi || o == rPsqArrFirst ||
    (decide (rMtxDmaSrc 0 ≤ o ∧ o < rMtxDmaSrc 4) && o % 16 == 12)

/-- A register of a ganged slice other than its event register: writes are accepted and ignored (R114). -/
def State.lcuMute (s : State) (o : Nat) : Bool :=
  decide (rLcuSCtrl 0 ≤ o) && decide (o < rLcuSCtrl 32) && s.lcuRole ((o - rLcuSCtrl 0) / 0x1000) == 2 &&
    o != rLcuSEvt ((o - rLcuSCtrl 0) / 0x1000)

/-- A register of a tile in DISCOL or in the unused spare: writes are ignored (R182). Blocks of the lanes, ports and columns that a TRS-632 has
disabled take writes as those of an unused resource (R4; DESIGN CHOICE, log 103). -/
def State.tileMute (s : State) (o : Nat) : Bool :=
  decide (rTileCtrl 0 ≤ o) && decide (o < rTileCtrl 272) && (s.vcolOf ((o - rTileCtrl 0) / 0x1000 / 16)).isNone

/-- A GO written to FAB_RA_CMD while BUSY is set (R322). -/
def State.raBusy (s : State) (o : Nat) (w : Word) : Bool := o == rFabRaCmd && bitN w.toNat 31 && s.fab.ra.isSome

/-- A write that has passed the view and the gate is applied (R552, steps 4 to 6). A GO of a remote access that is still open is ignored whole
(R322). -/
def State.regApply (s : State) (who : Requester) (o : Nat) (w : Word) : State :=
  if csWindow o then s.csWindowWrite (o - 0x100000) w
  else if fwReg o ∧ reqId who ≠ 0x3FF then s
  else if s.dmaLocked o || s.lcuMute o || s.tileMute o then s
  else if s.raBusy o w then s.orReg rFabEvt 16
  else (if keptElsewhere o then s else s.putWord o w).regAct who o w

/-- The write gate of R507: no session needed by the control core, or for the registers of R502 and R542. -/
def State.gateOpen (s : State) (who : Requester) (o : Nat) : Bool := s.sessionOpen (reqId who) || openReg o

/-- A write that the gate drops (R507). -/
def State.gateDrop (s : State) : State := ((s.addWrap rSecNosess 1).orReg rSecEvt 2).raise evSecWriteRefused 0 0 0

/-- A write that the U view drops (R551). -/
def State.viewDrop (s : State) : State := { s with eru := { s.eru with udrop := (s.eru.udrop + 1) % 2 ^ 32 } }

/-- A register write of a whole word (R552). The Boolean tells that the view or the gate dropped it. A fabric requester's P-view write without
its session is refused as in the U view (R319) and counted by the gate as well (R507; DEDUCED, log 116). -/
def State.regWrite (s : State) (who : Requester) (v : View) (o : Nat) (w : Word) : State × Bool :=
  if !(csWindow o || (regSpec o).isSome) then (s, false)
  else if v = .u then (s.viewDrop, true)
  else if who = .host ∧ s.sys.st.code < 4 then (s, true)
  else if s.shut o then (s, false)
  else if !s.gateOpen who o then (match who with | .fabric _ => s.viewDrop.gateDrop | _ => s.gateDrop, true)
  else if (o = rSecSvc ∨ (rSecBuf 0 ≤ o ∧ o < rSecBuf 8192)) ∧ !s.claimOpen (reqId who) then (s.orReg rSecEvt 4, false)
  else ((s.regApply who o w).touch (reqId who), false)

end Sys2Proof.Machine
end

