-- ==== Sys2Proof/Machine/RegCmd.lean ====
section
/-! DEFINITION. Meanings of the commands that are register accesses (R319, R430, R501 to R511, R542 to R559). -/
namespace Sys2Proof.Machine

/-- A fabric requester's P-view read without its own session is handled in the U view (R319), but for the registers of R502 and R542. -/
def State.effView (s : State) (who : Requester) (v : View) (o : Nat) : View :=
  match who with
  | .fabric a => if v = .p ∧ !s.sessionOpen a.toNat ∧ !openReg o then .u else v
  | _ => v

/-- A write reaches the peripheral bridge (R430): a write with some of its strobes off changes nothing and is a slave error. -/
def State.busWrite (s : State) (who : Requester) (v : View) (o : Nat) (w : Word) (strb : BitVec 4) : State :=
  let o := o / 4 * 4
  if s.busHeld who then s
  else if strb = 0 then s.answer "OK" 0
  else if strb ≠ 15 then
    let s := s.mtxError 2 (masterOf who) 3 true ((if v = .p then 0x40000000 else 0x50000000) + o)
    if who = .host then (s.orReg rPcieEvt 8).inbCa true else s.answer "SLVERR" 0
  else
    let (t, dropped) := s.regWrite who v o w
    match who with
    | .fabric _ => t.answer (if dropped then "REFUSED" else "OK") 0
    | _ => t.answer "OK" 0

/-- A read reaches the peripheral bridge. In BOOT and VERIFY the host is answered with UR (R545). -/
def State.busRead (s : State) (who : Requester) (v : View) (o : Nat) : State :=
  let o := o / 4 * 4
  if s.busHeld who then s
  else if who = .host ∧ s.sys.st.code < 2 then s.inbUr false
  else
    let (w, t) := s.regRead who (s.effView who v o) o
    t.answer "OK" w

/-- A write of a word to a register. -/
def State.wr (s : State) (who : Requester) (v : View) (o n : Nat) : State := s.busWrite who v o (w32 n) 15

/-- A write of a word with bit `i` set. -/
def State.wrBit (s : State) (who : Requester) (v : View) (o i : Nat) (w : Word) : State :=
  s.busWrite who v o (putBits w i i 1) 15

/-- REGISTER_WRITE (R430, R552). -/
def execRegisterWrite (who : Requester) (view : View) (off : BitVec 25) (data : Word) (strb : BitVec 4) (s : State) :
    Host.Outcome State Fault Refusal := .next (s.busWrite who view off.toNat data strb)

/-- LO_REGISTER_READ (R70, R553): a read of any register; one of a _LO register latches its partner. -/
def execLoRegisterRead (who : Requester) (view : View) (off : BitVec 25) (s : State) : Host.Outcome State Fault Refusal :=
  .next (s.busRead who view off.toNat)

/-- LANE_RETRAIN_WRITE (R95). -/
def execLaneRetrainWrite (who : Requester) (view : View) (n : Fin 32) (w : Word) (s : State) : Host.Outcome State Fault Refusal :=
  .next (s.wrBit who view (rIglLCtrl n) 31 w)

/-- MG_SEND (R113). -/
def execMgSend (who : Requester) (view : View) (n : Fin 32) (len : BitVec 7) (s : State) : Host.Outcome State Fault Refusal :=
  .next (s.wr who view (rIglLMgCtrl n) (2 ^ 31 + len.toNat))

/-- MG_TX_WRITE (R113). -/
def execMgTxWrite (who : Requester) (view : View) (n : Fin 32) (w : Word) (s : State) : Host.Outcome State Fault Refusal :=
  .next (s.wr who view (rIglLMgTx n) w.toNat)

/-- MG_RX_READ (R113). -/
def execMgRxRead (who : Requester) (view : View) (n : Fin 32) (s : State) : Host.Outcome State Fault Refusal :=
  .next (s.busRead who view (rIglLMgRx n))

/-- MG_RX_DONE (R113): RX_DONE is written, with `len` in TX_LEN. -/
def execMgRxDone (who : Requester) (view : View) (n : Fin 32) (len : BitVec 7) (s : State) : Host.Outcome State Fault Refusal :=
  .next (s.wr who view (rIglLMgCtrl n) (2 ^ 30 + len.toNat))

/-- TILE_RESTART_WRITE (R179). -/
def execTileRestartWrite (who : Requester) (view : View) (t : Fin 272) (w : Word) (s : State) : Host.Outcome State Fault Refusal :=
  .next (s.wrBit who view (rTileCtrl t) 2 w)

/-- TILE_HWM_CLEAR (R182). -/
def execTileHwmClear (who : Requester) (view : View) (t : Fin 272) (w : Word) (s : State) : Host.Outcome State Fault Refusal :=
  .next (s.wrBit who view (rTileCtrl t) 3 w)

/-- PSQ_CX_RESTART (R246). -/
def execPsqCxRestart (who : Requester) (view : View) (c : Fin 2) (w : Word) (s : State) : Host.Outcome State Fault Refusal :=
  .next (s.wrBit who view (rPsqCxCtrl c) 31 w)

/-- CS_HOLDING_WRITE (R244): offset 0x0, 0x4 or 0x8 of the microword at `a`. -/
def execCsHoldingWrite (who : Requester) (view : View) (a : BitVec 13) (i : Fin 3) (w : Word) (s : State) :
    Host.Outcome State Fault Refusal := .next (s.wr who view (0x100000 + 16 * a.toNat + 4 * i) w.toNat)

/-- CS_WORD_COMMIT (R244, R258). -/
def execCsWordCommit (who : Requester) (view : View) (a : BitVec 13) (w : Word) (s : State) : Host.Outcome State Fault Refusal :=
  .next (s.wr who view (0x100000 + 16 * a.toNat + 12) w.toNat)

/-- PSQ_UEVT_READ (R263). -/
def execPsqUevtRead (who : Requester) (view : View) (s : State) : Host.Outcome State Fault Refusal :=
  .next (s.busRead who view rPsqUevt)

/-- FAB_RETRAIN_WRITE (R294). -/
def execFabRetrainWrite (who : Requester) (view : View) (p : Fin 4) (w : Word) (s : State) : Host.Outcome State Fault Refusal :=
  .next (s.wrBit who view (rFabPCtrl p) 31 w)

/-- REMOTE_ACCESS_GO (R319, R322). -/
def execRemoteAccessGo (who : Requester) (view : View) (w : Word) (s : State) : Host.Outcome State Fault Refusal :=
  .next (s.wrBit who view rFabRaCmd 31 w)

/-- REG_REQ_RECEIVE (R319): the remote agent serves a REG_REQ and answers it. -/
def execRegReqReceive (s : State) : Host.Outcome State Fault Refusal :=
  match s.takeMsg fun m => m.mtype == 0x28 with
  | none => .next s
  | some (m, s) =>
    let who : Requester := .fabric (BitVec.ofNat 9 m.src)
    let op := fieldAt m.payload 0 1
    let o := fieldAt m.payload 4 4
    let v : View := if bitN op 1 then .p else .u
    let known := decide (o < 2 ^ 25)
    let r : Bool × Word × State :=
      if !known then (false, 0, s)
      else if bitN op 0 then
        let (t, dropped) := s.regWrite who v (o / 4 * 4) (w32 (fieldAt m.payload 8 4))
        (dropped, 0, t)
      else
        let (w, t) := s.regRead who (s.effView who v o) (o / 4 * 4)
        (false, w, t)
    let rsp := leBytes 1 (b2n r.1) ++ leBytes 1 0 ++ leBytes 2 (fieldAt m.payload 2 2) ++ leBytes 4 0 ++ leBytes 4 r.2.1.toNat
    if m.nosrc then .next r.2.2 else .next (r.2.2.fabOut 3 0x29 m.src false rsp)

/-- An access through tile space at byte `a` (R164, R166, R168): of tile memory only in a cycle that is free for it, else it waits and is
not yet served; a double-bit error in a word it reads gives a bus error and, to a write in part, no write (DESIGN CHOICE, log 91). -/
def State.spaceAccess (s : State) (who : Requester) (p : TilePort) (a : Nat) (data : Option (List Byte)) (len : Nat) : State :=
  let t := p.tile.val
  let k := (data.map (·.length)).getD len
  let mem := decide (a < 0x40000)
  let bad := fun (s : State) =>
    let s := s.mtxError 2 (masterOf who) 6 data.isSome (tileSpaceBase t a)
    if who = .host then s.inbCa data.isSome else s.answer "SLVERR" 0
  if mem && !s.spaceFree t then s
  else
    let s := (s.spaceTake t data.isSome a k).when mem fun s => s.updTile t fun x => x.upset p.upset (a / 16)
    match data with
    | some d =>
      let (ok, s) := s.tileSpaceWrite t a d
      if ok then s.answer "OK" 0 else bad s
    | none => match s.tileSpaceRead t a k with
      | (some d, s) => s.answer "OK" (w32 (fieldAt d 0 4))
      | (none, s) => bad s

/-- An access of the host to tile space through BAR4 (R548, R549): a write needs its session. -/
def State.tileHost (s : State) (t : TilePort) (a : Nat) (data : Option (List Byte)) (len : Nat) : State :=
  if !(s.live || s.sys.st = .faultStop) then s.inbUr data.isSome
  else if data.isSome && !s.sessionOpen 0x200 then s.gateDrop
  else (s.when data.isSome fun s => s.touch 0x200).spaceAccess .host t a data len

/-- TILE_SPACE_ACCESS (R166, R548, R549): a write of `data`, or a read of `len` bytes, at byte `a` of a tile's region. -/
def execTileSpaceAccess (who : Requester) (t : TilePort) (a : BitVec 19) (data : Option (List Byte)) (len : Fin 65) (s : State) :
    Host.Outcome State Fault Refusal :=
  match who with
  | .fabric _ => .next ((s.mtxError 1 5 6 data.isSome (tileSpaceBase t.tile a.toNat)).answer "DECERR" 0)
  | .host => .next (if s.hostReach then s.tileHost t a.toNat data len else s)
  | _ => .next (s.spaceAccess who t a.toNat data len)

/-- SEC_CLAIM (R501). -/
def execSecClaim (who : Requester) (view : View) (s : State) : Host.Outcome State Fault Refusal :=
  .next (s.wr who view rSecClaim (2 ^ 31))

/-- SEC_RELEASE (R501). -/
def execSecRelease (who : Requester) (view : View) (s : State) : Host.Outcome State Fault Refusal :=
  .next (s.wr who view rSecClaim (2 ^ 30))

/-- GO is written for a token of type `t`; with a token of another type in the buffer the command is not this one. -/
def State.goToken (s : State) (who : Requester) (v : View) (t : Nat) : State :=
  if s.tokType = t then s.wr who v rSecSvc (2 ^ 31) else s

/-- SESSION (R506). -/
def execSession (who : Requester) (view : View) (s : State) : Host.Outcome State Fault Refusal := .next (s.goToken who view 7)

/-- ENROL (R505). -/
def execEnrol (who : Requester) (view : View) (s : State) : Host.Outcome State Fault Refusal := .next (s.goToken who view 8)

/-- REVOKE (R505). -/
def execRevoke (who : Requester) (view : View) (s : State) : Host.Outcome State Fault Refusal := .next (s.goToken who view 9)

/-- SEC_SESS_CLOSE (R506). -/
def execSessionClose (who : Requester) (view : View) (s : State) : Host.Outcome State Fault Refusal :=
  .next (s.wr who view rSecSessClose 1)

/-- A life-cycle or debug command is submitted for a token of type `t` in SEC_BUF. -/
def State.tokenSubmit (s : State) (who : Requester) (intent : BitVec 64) (t : Nat) (path : TokPath) : State :=
  if s.tokType = t then s.command who (if path = .debug then 0x0E else 0x0F) intent.toNat [] fun s q => s.tokenCommand q path else s

/-- PROVISION (R504, R508). -/
def execProvision (who : Requester) (intent : BitVec 64) (s : State) : Host.Outcome State Fault Refusal :=
  .next (s.tokenSubmit who intent 1 .advance)

/-- OWN (R504, R508). -/
def execOwn (who : Requester) (intent : BitVec 64) (s : State) : Host.Outcome State Fault Refusal :=
  .next (s.tokenSubmit who intent 2 .advance)

/-- RETURN (R504, R508). -/
def execReturnToken (who : Requester) (intent : BitVec 64) (s : State) : Host.Outcome State Fault Refusal :=
  .next (s.tokenSubmit who intent 3 .advance)

/-- SCRAP (R504, R508). -/
def execScrap (who : Requester) (intent : BitVec 64) (s : State) : Host.Outcome State Fault Refusal :=
  .next (s.tokenSubmit who intent 4 .advance)

/-- REPROVISION (R504, R508). -/
def execReprovision (who : Requester) (intent : BitVec 64) (s : State) : Host.Outcome State Fault Refusal :=
  .next (s.tokenSubmit who intent 6 .advance)

/-- DEBUG (R510, R511). -/
def execDebug (who : Requester) (intent : BitVec 64) (s : State) : Host.Outcome State Fault Refusal :=
  .next (s.tokenSubmit who intent 5 .debug)

/-- TAMPER_ARM (R513). -/
def execTamperArm (who : Requester) (view : View) (mask : BitVec 4) (s : State) : Host.Outcome State Fault Refusal :=
  .next (s.wr who view rSecTmpEn mask.toNat)

/-- FREEZE_RELEASE (R535). -/
def execFreezeRelease (who : Requester) (view : View) (mask : BitVec 4) (s : State) : Host.Outcome State Fault Refusal :=
  .next (s.wr who view rJnlFrzRel mask.toNat)

/-- ERU_SLOT_FREE (R539, R541). -/
def execEruSlotFree (who : Requester) (view : View) (i : Fin 8) (s : State) : Host.Outcome State Fault Refusal :=
  .next (s.wr who view (rEruSEvent i) (2 ^ 31))

/-- JNL_FW_DONE (R527): firmware writes GO with an outcome. -/
def execJnlFwDone (who : Requester) (view : View) (ocode : BitVec 8) (ostat : BitVec 3) (s : State) : Host.Outcome State Fault Refusal :=
  .next (s.wr who view rJnlFwDone (2 ^ 31 + ocode.toNat * 256 + ostat.toNat))

/-- RECORD_CI_DOORBELL (R549, R559): through the doorbell page of BAR4, without a session, or through its copy in the register space. -/
def execRecordCiDoorbell (page : Bool) (who : Requester) (ci : Word) (s : State) : Host.Outcome State Fault Refusal :=
  if page then .next (if s.hostReach then (s.recCiWrite ci.toNat).answer "OK" 0 else s) else .next (s.wr who .p rPcieDbRecCi ci.toNat)

/-- CLIP_CI_DOORBELL (R549, R559). -/
def execClipCiDoorbell (page : Bool) (who : Requester) (ci : Word) (s : State) : Host.Outcome State Fault Refusal :=
  if page then .next (if s.hostReach then (s.clipCiWrite ci.toNat).answer "OK" 0 else s) else .next (s.wr who .p rPcieDbClipCi ci.toNat)

/-- DMA_GO (R433). -/
def execDmaGo (who : Requester) (view : View) (c : Fin 4) (s : State) : Host.Outcome State Fault Refusal :=
  .next (s.wr who view (rMtxDmaCtrl c) (2 ^ 31))

/-- DMA_ABORT (R432). -/
def execDmaAbort (who : Requester) (view : View) (c : Fin 4) (s : State) : Host.Outcome State Fault Refusal :=
  .next (s.wr who view (rMtxDmaCtrl c) (2 ^ 30))

/-- MBX_DOORBELL_IN_SET (R437). -/
def execMbxDoorbellInSet (who : Requester) (view : View) (w : Word) (s : State) : Host.Outcome State Fault Refusal :=
  .next (s.wr who view rMtxMbxDbInset w.toNat)

/-- MBX_DOORBELL_OUT_SET (R437). -/
def execMbxDoorbellOutSet (who : Requester) (view : View) (w : Word) (s : State) : Host.Outcome State Fault Refusal :=
  .next (s.wr who view rMtxMbxDbOutset w.toNat)

/-- CORE_RESET_WRITE (R414). -/
def execCoreResetWrite (who : Requester) (view : View) (s : State) : Host.Outcome State Fault Refusal :=
  .next (s.wr who view rCcdCtrl (2 ^ 31))

end Sys2Proof.Machine
end

