-- ==== Sys2Proof/Machine/MtxOps.lean ====
section
/-! DEFINITION. The bus matrix (R417, R418, R428 to R430), the scratchpad with its check bits, wipe and background test (R419 to R424), the
Lagg bridge services (R501, R537), and one access of a master to a target. -/
namespace Sys2Proof.Machine

/-- A word with wrong bits is read (R421). -/
def State.spmError (s : State) (w n : Nat) : State :=
  if n = 1 then
    (((s.addSat rMtxSpmEcc 31 16 1).setReg rMtxSpmEccAddr (w32 w)).raise evSpmCe 0 0 w)
  else (s.addSat rMtxSpmEcc 15 0 1).raise evSpmUe 0 0 w

/-- The check bits of the words that hold bytes `a` to `a + k - 1` are looked at; true when none has a double-bit error. -/
def State.spmCheck (s : State) (a k : Nat) : Bool × State :=
  let hit := s.mtx.spmBad.filter fun b => decide (a < b.1 + 4) && decide (b.1 < a + k)
  (hit.all fun b => b.2 == 1, hit.foldl (fun s b => s.spmError b.1 b.2) s)

/-- A read of the scratchpad by any user but the test. -/
def State.spmRead (s : State) (a k : Nat) : Option (List Byte) × State :=
  let s := s.spmReady a k
  let (ok, s) := s.spmCheck a k
  (if ok then some (memGetBytes ramDefault s.mtx.spm a k) else none, s)

/-- A write of the scratchpad. One of less than a word reads the word first (R420); the word written has good check bits, but for a merge
into one with a double-bit error (DEDUCED, log 25). -/
def State.spmWrite (s : State) (a : Nat) (d : List Byte) : State :=
  let s := s.spmReady a d.length
  let whole := decide (a % 4 = 0) && decide (d.length = 4)
  let s := if whole then s else (s.spmCheck a d.length).2
  let keep := fun (b : Nat × Nat) => !(decide (a < b.1 + 4) && decide (b.1 < a + d.length)) || (!whole && b.2 == 2)
  { s with mtx := { s.mtx with spm := memPutBytes ramDefault s.mtx.spm a d, spmBad := s.mtx.spmBad.filter keep } }

/-- The FIRMWARE entry of R537 is committed: SUB in the first byte, then BODY. None comes within 100 µs of the one before. -/
def State.peatCommit (s : State) : Bool × State :=
  let near := match s.peat.fwLast with
    | some t => decide (s.ts < t + 100 * usTs)
    | none => false
  if near then (false, s)
  else
    let b := s.peat.fwWords.toList.flatMap fun w => leBytes 4 w.toNat
    (true, ({ s with peat.fwLast := some s.ts } : State).peatPush 0x0D (fieldAt b 0 1) (bslice b 1 14))

/-- A write to the words of the FIRMWARE entry; word 3 commits it, and a commit that comes too early writes nothing. -/
def State.peatWord (s : State) (o : Nat) (d : List Byte) : Bool × State :=
  let old := s.peat.fwWords
  let i := o / 4
  let merged := memPutBytes ramDefault (memPutBytes ramDefault [] 0 (leBytes 4 (atV old i 0).toNat)) (o % 4) d
  let s := { s with peat.fwWords := setV old i (w32 (leNat (memGetBytes ramDefault merged 0 4))) }
  if i = 3 then
    let (ok, t) := s.peatCommit
    if ok then (true, t) else (false, { s with peat.fwWords := old })
  else (true, s)

/-- Free bytes as the data of a read. -/
def State.freeRead (s : State) (k : Nat) : Nat × List Byte × State := (0, s.freeBytes k, s.tick k)

/-- A read at a region: answer 0 OK, 2 slave error; data; state. The read lies within one word. What a host read returns is free. -/
def State.regionRead (s : State) (who : Requester) (r : Region) (k : Nat) : Nat × List Byte × State :=
  match r with
  | .spm a =>
    match s.spmRead a k with
    | (some d, s) => (0, d, s)
    | (none, s) => (2, [], s)
  | .mbx a => (0, memGetBytes ramDefault s.mtx.mbox a k, s)
  | .gddr p a =>
    match s.gddrRead p a k with
    | some d => (0, d, s)
    | none => (2, [], s)
  | .regs v o =>
    let s := s.busRead who v o
    (0, bslice (leBytes 4 s.rdData.toNat) (o % 4) k, s)
  | .host _ => if s.busMaster then s.freeRead k else (2, [], s)
  | .lagg o =>
    if o < 0x100 then
      match s.randomRead with
      | (some n, s) => (0, bslice (leBytes 4 n) (o % 4) k, s)
      | (none, s) => (2, [], s)
    else if o < 0x110 then s.freeRead k
    else (2, [], s)
  | .tile t a =>
    match s.tileSpaceRead t a k with
    | (some d, s) => (0, d, s)
    | (none, s) => (2, [], s)

/-- A write at a region, within one word. -/
def State.regionWrite (s : State) (who : Requester) (r : Region) (d : List Byte) : Nat × State :=
  match r with
  | .spm a => (0, s.spmWrite a d)
  | .mbx a => (0, { s with mtx.mbox := memPutBytes ramDefault s.mtx.mbox a d })
  | .gddr p a =>
    match s.gddrWrite p a d with
    | some t => (0, t)
    | none => (2, s)
  | .regs v o =>
    if o % 4 = 0 ∧ d.length = 4 then (0, s.busWrite who v o (w32 (fieldAt d 0 4)) 15) else (2, s)
  | .host a => if s.busMaster then (0, s.send (.hostWrite a d)) else (2, s)
  | .lagg o =>
    if 0x100 ≤ o ∧ o < 0x110 then
      let (ok, s) := s.peatWord (o - 0x100) d
      (if ok then 0 else 2, s)
    else (2, s)
  | .tile t a =>
    let (ok, s) := s.tileSpaceWrite t a d
    (if ok then 0 else 2, s)

/-- The requester that a master is (R501, R550). -/
def masterWho (m : Nat) : Requester :=
  match m with
  | 2 => .dma
  | 3 => .host
  | 4 => .bridge
  | _ => .core

/-- The region that master `m` reaches at address `a` (R417, R418, R422, R428). -/
def State.reach (s : State) (m a : Nat) : Option Region :=
  match s.regionOf m a with
  | some r => if reaches m r.target ∧ !(decide (2 ≤ m) && r.target == 0 && inSecure a) then some r else none
  | none => none

/-- An access of master `m` at `a` waits for the port of a tile's memory (R164). -/
def State.tileWaits (s : State) (m a : Nat) : Bool := match s.reach m a with
  | some (.tile t o) => decide (o < 0x40000) && !s.spaceFree t
  | _ => false

/-- A new request of master `m` at `a` waits: for the port of a tile's memory, or for the responses still owed to a port of the core that was
reset (R432). The scratchpad and the mailbox are direct to the core (R418). -/
def State.portWaits (s : State) (m a : Nat) : Bool :=
  s.tileWaits m a || (s.owes m && match s.reach m a with
    | some r => decide (2 ≤ r.target)
    | none => true)

/-- An access of `k` bytes at `a` takes its free cycles of that port (R166). -/
def State.tileTakes (s : State) (m a k : Nat) (write : Bool) : State := match s.reach m a with
  | some (.tile t o) => s.spaceTake t write o k
  | _ => s

/-- A slave error is recorded, but for the core's own ports to the scratchpad and the mailbox, which are no part of the matrix. -/
def State.slaveError (s : State) (m : Nat) (r : Region) (write : Bool) (a : Nat) : State :=
  if m < 2 ∧ r.target < 2 then s else s.mtxError 2 m r.target write a

/-- A read by master `m` within one word: 0 OK, 1 decode error, 2 slave error. -/
def State.portRead (s : State) (m a k : Nat) : Nat × List Byte × State :=
  match s.reach m a with
  | none => (1, [], s.decodeError m false a)
  | some r =>
    if s.mtx.late.contains (m, a / 4 * 4) then (2, [], { s with mtx.late := s.mtx.late.filter fun x => x != (m, a / 4 * 4) })
    else match s.regionRead (masterWho m) r k with
      | (0, d, s) => (0, d, s)
      | (_, _, s) => (2, [], s.slaveError m r false a)

/-- A write by master `m` within one word. -/
def State.portWrite (s : State) (m a : Nat) (d : List Byte) : Nat × State :=
  match s.reach m a with
  | none => (1, s.decodeError m true a)
  | some r =>
    if s.mtx.late.contains (m, a / 4 * 4) then (2, { s with mtx.late := s.mtx.late.filter fun x => x != (m, a / 4 * 4) })
    else match s.regionWrite (masterWho m) r d with
      | (0, s) => (0, s)
      | (_, s) => (2, s.slaveError m r true a)

/-- An access of master `m` within one word (R418, R422, R429). It waits for the port of a tile's memory. -/
def State.masterAccess (s : State) (m a : Nat) (data : Option (List Byte)) : State :=
  let code := fun (n : Nat) => if n = 0 then "OK" else if n = 1 then "DECERR" else "SLVERR"
  if s.portWaits m a then s
  else match data with
    | some d => let (c, s) := (s.tileTakes m a d.length true).portWrite m a d; s.answer (code c) 0
    | none => let (c, d, s) := (s.tileTakes m a 4 false).portRead m a 4; s.answer (code c) (w32 (leNat d))

end Sys2Proof.Machine
end

