-- ==== Sys2Proof/Machine/CoreOps.lean ====
section
/-! DEFINITION. The control core's shared operations: registers, store buffer, fetch, return stack, exception entry and lockup, and the
checks that every word passes (R347 to R350, R359, R363, R368 to R375, R379, R382 to R386, R391 to R396, R402 to R414). -/
namespace Sys2Proof.Machine

/-- An exception that a word raises (R409, R410). -/
structure CoreEx where
  vec : Nat
  far : Option Nat := none
  /-- the first half of a split store was written (R396) -/
  part : Bool := false
  /-- it arose in fetch -/
  fetch : Bool := false
  detail : Nat := 0
  /-- the saved PC is the following word: TRAP -/
  after : Bool := false
  /-- on an access whose address is formed from A7P (R413) -/
  a7p : Bool := false
  /-- no exception: the access waits for the port of a tile's memory (R164) -/
  wait : Bool := false
  deriving DecidableEq, Repr

/-- What a word does: it retires, or raises an exception. -/
inductive CoreRes where
  | ok (s : State)
  | trap (x : CoreEx) (s : State)

/-- STATUS.PRIV (R402). -/
def State.priv (s : State) : Bool := bitN s.core.status.toNat 0

/-- A D register. -/
def State.dr (s : State) (i : BitVec 4) : Word := atV s.core.d i.toNat 0

/-- Write a D register. -/
def State.setDr (s : State) (i : BitVec 4) (w : Word) : State := { s with core.d := setV s.core.d i.toNat w }

/-- An A register; A7 is the bank of the present level (R349). Values 8 to 15 name none. -/
def State.ar (s : State) (i : BitVec 4) : Word :=
  if i = 7 then (if s.priv then s.core.a7p else s.core.a7u) else atV s.core.a i.toNat 0

/-- Write an A register. -/
def State.setAr (s : State) (i : BitVec 4) (w : Word) : State :=
  if i = 7 then
    if s.priv then { s with core.a7p := w } else { s with core.a7u := w }
  else { s with core.a := setV s.core.a i.toNat w }

/-- A field that names an A register (R352). -/
def isA (i : BitVec 4) : Bool := decide (i.toNat < 8)

/-- The division in flight writes its result (R363). -/
def State.divFinish (s : State) : State :=
  match s.core.div with
  | some (d, w) => { s with core := { s.core with d := setV s.core.d d w, div := none } }
  | none => s

/-- The oldest product in flight reaches MPL and MPH (R362). -/
def State.mulWrite (s : State) : State :=
  match s.core.mulQ with
  | (p, _) :: r => { s with core := { s.core with mulQ := r, mpl := p.setWidth 32, mph := (p >>> 32).setWidth 32 } }
  | [] => s

/-- MPH and MPL as a word reads them now: the latest product whose 4 cycles have passed counts, written by its row yet or not (R362). -/
def State.product (s : State) : BitVec 64 :=
  match (s.core.mulQ.filter fun x => decide (x.2 + 4 ≤ s.cycle)).getLast? with
  | some (p, _) => p
  | none => s.core.mph ++ s.core.mpl

/-- Every product in flight reaches them. -/
def State.mulFlush (s : State) : State :=
  match s.core.mulQ.getLast? with
  | some (p, _) => { s with core := { s.core with mulQ := [], mpl := p.setWidth 32, mph := (p >>> 32).setWidth 32 } }
  | none => s

/-- The oldest buffered store is written (R391). -/
def State.sbDrain (s : State) : State :=
  match s.core.sb with
  | e :: r => (({ s with core.sb := r } : State).portWrite 1 e.addr e.data).2
  | [] => s

/-- The store buffer drains, in program order. -/
def State.sbEmpty (s : State) : State :=
  s.core.sb.foldl (fun s e => (s.portWrite 1 e.addr e.data).2) { s with core.sb := [] }

/-- A buffered store and the bytes `a` to `a + k - 1` share a byte; all of those bytes lie in it. -/
def SbEnt.overlaps (e : SbEnt) (a k : Nat) : Bool := decide (e.addr < a + k) && decide (a < e.addr + e.data.length)
def SbEnt.covers (e : SbEnt) (a k : Nat) : Bool := decide (e.addr ≤ a) && decide (a + k ≤ e.addr + e.data.length)

/-- Regions whose stores are buffered (R391). -/
def Region.buffered : Region → Bool
  | .spm _ | .mbx _ => true
  | _ => false

/-- Regions that take unaligned accesses (R394). -/
def Region.unaligned : Region → Bool
  | .spm _ | .mbx _ | .gddr _ _ => true
  | _ => false

/-- Bytes that user mode may not load or store: the return stack's region, the secure window, the P view, the words of the FIRMWARE
entry (R370, R422, R537, R550). -/
def State.barred (s : State) (a k : Nat) : Bool :=
  (decide (a < s.core.rsLimit.toNat) && decide (s.core.rsBase.toNat < a + k)) || inSecure a ||
    (decide (0x40000000 ≤ a) && decide (a < 0x42000000)) || (decide (0x30000100 ≤ a) && decide (a < 0x30000110))

/-- The parts of an access that lies within one word, or crosses one boundary: address and size (R394). -/
def halves (a k : Nat) : List (Nat × Nat) :=
  let n := 4 - a % 4
  if k ≤ n then [(a, k)] else [(a, n), ((a + n) % 2 ^ 32, k - n)]

/-- The alignment and access checks of one part (R394, R396, R410). -/
def State.partCheck (s : State) (whole : Bool) (a k : Nat) : Option Nat :=
  let r := s.regionOf 1 a
  if !whole ∧ !((r.map Region.unaligned).getD false) then some 2
  else if !s.priv ∧ s.barred a k then some 3
  else none

/-- A load of one part: forwarded from one buffered store, or from memory (R392). Code 3: it waits (R164, R432). -/
def State.loadPart (s : State) (a k : Nat) : Nat × List Byte × State :=
  if s.portWaits 1 a then (3, [], s)
  else if ((s.regionOf 1 a).map Region.buffered).getD false then
    match s.core.sb.reverse.find? fun e => e.overlaps a k with
    | none => s.portRead 1 a k
    | some e => if e.covers a k then (0, bslice e.data (a - e.addr) k, s) else s.sbEmpty.portRead 1 a k
  else (s.sbEmpty.tileTakes 1 a k false).portRead 1 a k

/-- Address `a` of the data port goes out to the host: a write there is posted (R388). -/
def State.toHost (s : State) (a : Nat) : Bool := match s.reach 1 a with
  | some (.host _) => true
  | _ => false

/-- A store of one part: buffered, the oldest entry draining first when four wait, or written after all of them (R391). A posted PCIe
write that the endpoint does not take fails without the core: the matrix reports a timeout (R388; DEDUCED, log 111). -/
def State.storePart (s : State) (a : Nat) (d : List Byte) : Nat × State :=
  if s.portWaits 1 a then (3, s)
  else if ((s.regionOf 1 a).map Region.buffered).getD false then
    let s := if s.core.sb.length < 4 then s else s.sbDrain
    (0, { s with core.sb := s.core.sb ++ [{ addr := a, data := d }] })
  else
    let s := s.sbEmpty.tileTakes 1 a d.length true
    if s.toHost a ∧ !s.busMaster then (0, s.mtxError 3 1 4 true a) else s.portWrite 1 a d

/-- The vector of an error answer: 3 decode error, 4 slave error (R429). -/
def errVec (code : Nat) : Nat := if code = 1 then 3 else 4

/-- Load the parts in order. -/
def State.loadParts (a7 whole : Bool) : List (Nat × Nat) → State → Except (CoreEx × State) (List Byte × State)
  | [], s => .ok ([], s)
  | (a, k) :: r, s =>
    match s.partCheck whole a k with
    | some v => .error ({ vec := v, far := some a, a7p := a7 }, s)
    | none =>
      match s.loadPart a k with
      | (0, d, s) =>
        match State.loadParts a7 whole r s with
        | .ok (e, s) => .ok (d ++ e, s)
        | .error x => .error x
      | (c, _, s) => .error ({ vec := errVec c, far := some a, a7p := a7, wait := c == 3 }, s)

/-- A load of `k` bytes at `a` (R394 to R396). -/
def State.load (s : State) (a7 : Bool) (a k : Nat) : Except (CoreEx × State) (List Byte × State) :=
  State.loadParts a7 (decide (a % k = 0)) (halves a k) s

/-- Store the parts in order; `second`: the part before has been written. -/
def State.storeParts (a7 whole second : Bool) : List (Nat × Nat) → List Byte → State → CoreRes
  | [], _, s => .ok s
  | (a, k) :: r, d, s =>
    match s.partCheck whole a k with
    | some v => .trap { vec := v, far := some a, part := second, a7p := a7 } s
    | none =>
      match s.storePart a (d.take k) with
      | (0, s) => State.storeParts a7 whole true r (d.drop k) s
      | (c, s) => .trap { vec := errVec c, far := some a, part := second, a7p := a7, wait := c == 3 } s

/-- A store of bytes at `a`. -/
def State.store (s : State) (a7 : Bool) (a : Nat) (d : List Byte) : CoreRes :=
  State.storeParts a7 (decide (a % d.length = 0)) false (halves a d.length) d s

/-- The line of an address is brought into the I-cache: 4 ways of 128 sets, the least recently used one leaving (R385). -/
def State.linePut (s : State) (l : Nat) (d : List Byte) : State :=
  let rest := s.core.lines.filter fun x => x.1 != l
  let old := ((rest.filter fun x => x.1 % 128 == l % 128).drop 3).map (·.1)
  { s with core.lines := (l, d) :: rest.filter fun x => !old.contains x.1 }

/-- The 16 words of a line are read through the instruction port: code and bytes of the word wanted, and the line when every word came. -/
def State.lineRead (s : State) (l want : Nat) : Nat × List Byte × Option (List Byte) × State :=
  (List.range 16).foldl (fun (x : Nat × List Byte × Option (List Byte) × State) i =>
      let (c, d, s) := x.2.2.2.portRead 0 (64 * l + 4 * i) 4
      let here := decide (4 * i = want)
      (if here then c else x.1, if here then d else x.2.1, if c = 0 then x.2.2.1.map (· ++ d) else none, s)) (0, [], some [], s)

/-- The words at `a` and on that the queue can read ahead, at most `n`. A wrong-path fetch leaves no trace beside them (R385, R401). -/
def State.ahead (s : State) (a : Nat) : Nat → List (Nat × Word)
  | 0 => []
  | n + 1 => match s.portRead 0 a 4 with
    | (0, d, _) => (a, w32 (leNat d)) :: s.ahead (a + 4) n
    | _ => []

/-- The prefetch queue once the word at `a` has left it: those behind it, and words read ahead up to four (R385). How many are read is free
(log 108). -/
def State.queueAfter (s : State) (a : Nat) : List (Nat × Word) :=
  let r := match s.core.pq with
    | (x, _) :: r => if x = a then r else []
    | [] => []
  r ++ s.ahead (a + 4 + 4 * r.length) (min (4 - r.length) (Config.readAhead s.cycle a))

/-- A fetch through the prefetch queue: code as of a read, the word (R385). What the read of a word does beside, an error counted or a
borrowed line restored (R421, R424), falls when the word leaves the queue; of a word that is discarded nothing is seen (DEDUCED, log 108). -/
def State.fetchQueue (s : State) (a : Nat) : Nat × Word × State :=
  let fill := fun (t : State) => ({ t with core.pq := s.queueAfter a } : State)
  match s.core.pq.find? fun x => x.1 == a with
  | some (_, w) => match s.portRead 0 a 4 with
    | (0, _, t) => (0, w, fill t)
    | _ => (0, w, fill s)
  | none => match s.portRead 0 a 4 with
    | (0, d, t) => (0, w32 (leNat d), fill t)
    | (c, _, t) => (c, 0, { t with core.pq := [] })

/-- A fetch through the line buffer and the I-cache (R385). -/
def State.fetchLine (s : State) (a : Nat) : Nat × Word × State :=
  let l := a / 64
  let word := fun (d : List Byte) => w32 (fieldAt d (a % 64) 4)
  match s.core.lineBuf.filter fun x => x.1 == l with
  | some (_, d) => (0, word d, s)
  | none => match s.core.lines.find? fun x => x.1 == l with
    | some (_, d) => (0, word d, { s.linePut l d with core := { (s.linePut l d).core with lineBuf := some (l, d) } })
    | none => match s.lineRead l (a % 64) with
      | (c, _, some d, s) => (c, word d, { s.linePut l d with core := { (s.linePut l d).core with lineBuf := some (l, d) } })
      | (c, b, none, s) => (c, w32 (leNat b), s)

/-- The word at address `a` is fetched: code as of a read, the word (R385). -/
def State.fetchRead (s : State) (a : Nat) : Nat × Word × State := if s.core.icache then s.fetchLine a else s.fetchQueue a

/-- The fetch of the word at the PC, with its faults (R367, R385, R406, R422). A word under REP is fetched once. -/
def State.fetch (s : State) : CoreRes :=
  let a := s.core.pc.toNat
  let got := (s.core.rep.map (·.got)).getD false
  if got then .ok s
  else if a % 4 ≠ 0 then .trap { vec := 2, far := some a, fetch := true } s
  else if !s.priv ∧ inSecure a then .trap { vec := 3, far := some a, fetch := true } s
  else match s.fetchRead a with
    | (0, w, s) => .ok { s with core.rep := s.core.rep.map fun r => { r with got := true, word := w } }
    | (c, _, s) => .trap { vec := errVec c, far := some a, fetch := true } s

/-- The word that a fetch at `a` delivers; `none`: the fetch faults. -/
def State.wordAt (s : State) (a : Nat) : Option Word :=
  if a % 4 ≠ 0 ∨ (!s.priv ∧ inSecure a) then none
  else match s.fetchRead a with
    | (0, w, _) => some w
    | _ => none

/-- The word that the core executes next. -/
def State.codeWord (s : State) : Option Word := match s.core.rep with
  | some r => if r.got then some r.word else s.wordAt s.core.pc.toNat
  | none => s.wordAt s.core.pc.toNat

/-- The 8 bytes of a return stack entry (R368), and the entry of 8 bytes. -/
def RsEnt.bytes (e : RsEnt) : List Byte := leBytes 4 e.value.toNat ++ leBytes 4 (e.kind % 4 + 4 * b2n e.tag)
def rsOf (b : List Byte) : RsEnt :=
  { value := w32 (fieldAt b 0 4), kind := fieldAt b 4 4 % 4, tag := bitN (fieldAt b 4 4) 2 }

/-- The spill area lies in the scratchpad (R370). -/
def spillOk (a : Nat) : Bool := decide (a + 8 ≤ 0x200000)

/-- Buffered stores to 8 bytes at `a` drain before the stack touches them. -/
def State.sbBefore (s : State) (a : Nat) : State := if s.core.sb.any (fun e => e.overlaps a 8) then s.sbEmpty else s

/-- The oldest entry is spilled when 32 are on chip (R370). The Boolean bounds the area for an exception entry (R413). -/
def State.rsSpillOne (s : State) (entry : Bool) : Except CoreEx State :=
  if s.core.rs.length < 32 then .ok s
  else
    let a := s.core.rsSpill.toNat
    if s.core.rsLimit.toNat < a + 8 then .error { vec := 7 }
    else if !spillOk a ∨ (entry ∧ a < s.core.rsBase.toNat) then .error { vec := 9, far := some a }
    else
      match s.core.rs.getLast? with
      | some e =>
        let s := (s.sbBefore a).spmWrite a (e.bytes.take 4)
        let s := s.spmWrite (a + 4) (e.bytes.drop 4)
        .ok { s with core := { s.core with rs := s.core.rs.dropLast, rsSpill := w32 (a + 8) } }
      | none => .ok s

/-- Push an entry (R368, R370). -/
def State.rsPush (s : State) (entry : Bool) (kind : Nat) (tag : Bool) (v : Word) : Except CoreEx State :=
  match s.rsSpillOne entry with
  | .ok s => .ok { s with core.rs := { value := v, kind := kind, tag := tag } :: s.core.rs }
  | .error x => .error x

/-- One entry is filled from the spill area below those on chip (R370). -/
def State.rsFillOne (s : State) : Except (CoreEx × State) State :=
  if s.core.rsSpill.toNat ≤ s.core.rsBase.toNat then .error ({ vec := 8 }, s)
  else
    let a := s.core.rsSpill.toNat - 8
    if !spillOk a then .error ({ vec := 9, far := some a }, s)
    else
      match (s.sbBefore a).spmRead a 8 with
      | (some d, s) => .ok { s with core := { s.core with rs := s.core.rs ++ [rsOf d], rsSpill := w32 a } }
      | (none, s) => .error ({ vec := 9, far := some a }, s)

/-- At least `n` entries, one or two, are brought on chip. -/
def State.rsFill : Nat → State → Except (CoreEx × State) State
  | 0, s => .ok s
  | n + 1, s =>
    match State.rsFill n s with
    | .ok s => if s.core.rs.length ≤ n then s.rsFillOne else .ok s
    | .error x => .error x

/-- Lockup (R414): `pc` the address being entered, `vec` the vector. -/
def State.lockup (s : State) (pc : Word) (vec : Nat) : State :=
  let s := s.divFinish.mulFlush.sbEmpty
  let s := { s with mtx.late := s.mtx.late.filter fun x => x.1 != 1 }
  let s := { s with core := { s.core with st := 3, lockPc := pc, lockCause := vec, nmi := false, rep := none },
                    balls.ccLockup := true }
  s.raise evCcLockup 0 vec pc.toNat

/-- The vector's address (R409). -/
def State.vecPc (s : State) (vec : Nat) : Word := s.core.vbase + w32 (8 * vec)

/-- Exception entry (R409): `saved` is the PC saved; for an interrupt `lvl` is its level, for the NMI `nmi` holds. -/
def State.coreEnter (s : State) (x : CoreEx) (saved : Word) (int : Bool) (lvl : Option Nat) (nmi : Bool) : State :=
  let s := s.divFinish.mulFlush
  let tag := s.priv
  let old := s.core.status
  match s.rsPush true 2 tag old with
  | .error _ => s.lockup (s.vecPc x.vec) x.vec
  | .ok t =>
    match t.rsPush true 1 tag saved with
    | .error _ => t.lockup (t.vecPc x.vec) x.vec
    | .ok s =>
      let st := putBits (putBits old 0 0 1) 31 23 0
      let st := (lvl.map fun l => putBits st 11 9 l).getD st
      let st := if nmi then putBits st 15 15 1 else st
      let cause := fldsOr [(31, 31, b2n int), (30, 30, b2n x.part), (29, 29, b2n x.fetch), (15, 8, x.detail), (7, 0, x.vec)]
      { s with core := { s.core with
          st := 1, status := st, cause := w32 cause, far := (x.far.map w32).getD s.core.far, pc := s.vecPc x.vec, rep := none, pq := [],
          atVector := true } }

/-- A word raises an exception (R409, R413): at the first word of a vector it can lock up the core. -/
def State.coreFault (s : State) (x : CoreEx) : State :=
  let v := bits s.core.cause 7 0
  if s.core.atVector ∧ (x.a7p ∨ (x.fetch ∧ v = 0x10)) then s.lockup s.core.pc v
  else s.coreEnter x ((s.core.rep.map (·.pfx)).getD s.core.pc) false none false

/-- A word retires (R382): the PC moves on, a repeat counts (R374, R375). Its effect follows. -/
def State.retire (s : State) : State :=
  let c := s.core
  let (pc, rep, st) := match c.rep with
    | some r =>
      if 1 < r.left then (c.pc, some { r with left := r.left - 1 }, putBits c.status 31 23 (r.left - 1))
      else (c.pc + 4, none, putBits c.status 31 23 0)
    | none => (c.pc + 4, none, c.status)
  { s with core := { c with pc := pc, rep := rep, status := st, lastPc := c.pc, lastPriv := s.priv, atVector := false } }

/-- After an exception no register has changed (R359, R382); what went out to memory and the units stands. -/
def State.undo (t s : State) : State :=
  { t with core := { s.core with sb := t.core.sb, nmi := t.core.nmi, nmiLevel := t.core.nmiLevel } }

/-- What the core checks of a word before it executes (R379, R363, R374). -/
structure CoreWord where
  /-- not an undefined encoding -/
  legal : Bool := true
  privileged : Bool := false
  /-- D registers it reads or writes -/
  names : List (BitVec 4) := []
  division : Bool := false
  /-- REP may repeat it, and REPI may -/
  underRep : Bool := true
  underRepi : Bool := true

/-- The words wait for a division that they need (R363). -/
def State.divWait (s : State) (w : CoreWord) : State :=
  match s.core.div with
  | some (d, _) => if w.division ∨ w.names.any (fun i => i.toNat = d) then s.divFinish else s
  | none => s

/-- A repeat meets a word it may not repeat (R374): illegal instruction at the repeat word, nothing executed. -/
def State.repBad (s : State) (w : CoreWord) : Bool :=
  match s.core.rep with
  | some r => if r.irq then !w.underRepi else !w.underRep
  | none => false

/-- An interrupt source that may be taken: the level, and the source (R404). -/
def State.irqBest (s : State) : Option (Nat × Nat) :=
  let lvl := fun (n : Nat) => bits (atV s.core.prio (n / 8) 0) (4 * (n % 8) + 2) (4 * (n % 8))
  let cand := (List.range 64).filter fun n =>
    s.irqPend n && bitN s.core.irqEn.toNat n && decide (bits s.core.status 11 9 < lvl n)
  cand.foldl (fun best n => match best with
    | some (l, m) => if l < lvl n then some (lvl n, n) else some (l, m)
    | none => some (lvl n, n)) none

/-- A repeat that admits no interrupt is running (R375). -/
def State.repHolds (s : State) : Bool :=
  match s.core.rep with
  | some r => !r.irq
  | none => false

/-- The NMI may be taken at this boundary (R405). -/
def State.nmiReady (s : State) : Bool := s.core.nmi && !s.repHolds && !bitN s.core.status.toNat 15

/-- An interrupt may be taken at this boundary (R404, R406). -/
def State.irqReady (s : State) : Bool := bitN s.core.status.toNat 8 && !s.repHolds && !s.nmiReady && s.irqBest.isSome

/-- A word executes at the PC: fetch, the checks in the order of R406 and R379, and its effect on the state in which it has retired. None
executes at a boundary where the NMI or an interrupt is to be taken (R406, R407), nor while its fetch or its access waits (R164, R432), nor with
the clocks of the processing die stopped (R576). -/
def State.coreRun (s : State) (w : CoreWord) (body : State → CoreRes) : State :=
  if s.core.st ≠ 1 ∨ s.clk.shutdown ∨ s.nmiReady ∨ s.irqReady ∨ s.portWaits 0 s.core.pc.toNat then s
  else if s.repBad w then
    let c := s.core
    ({ s with core := { c with pc := (c.rep.map (·.pfx)).getD c.pc, rep := none, status := putBits c.status 31 23 0 } } : State).coreFault
      { vec := 0 }
  else match s.fetch with
    | .trap x s => s.coreFault x
    | .ok f =>
      if !w.legal then f.coreFault { vec := 0 }
      else if w.privileged && !f.priv then f.coreFault { vec := 1 }
      else
        let u := f.divWait w
        match body u.retire with
        | .ok t => t
        | .trap x t => if x.wait then s else if x.after then t.coreFault x else (t.undo u).coreFault x

/-- A branch retires (R399, R401): counts, counters of the predictor. `kind`: 0 conditional, 1 direct, 2 indirect. The word is the one retired. -/
def State.branch (s : State) (kind : Nat) (taken : Bool) (target : Word) : State :=
  let c := s.core
  let pc := c.lastPc
  let on := c.icache && !c.bar
  let i := bits pc 9 2
  let j := bits pc 11 2
  let ent := if on then smGet (fun _ => (none : Option BtbEnt)) c.btb i else none
  let cnt := smGet (fun _ => 1) c.dir j
  let miss := match kind with
    | 0 => taken != (match ent with
        | some e => e.kind == 0 && decide (2 ≤ cnt)
        | none => false)
    | 1 => false
    | _ => match ent with
        | some e => !(e.kind == 2 && e.target == target)
        | none => true
  let dir := if on ∧ kind = 0 then smPut (fun _ => 1) c.dir j (if taken then min 3 (cnt + 1) else cnt - 1) else c.dir
  let btb := if on ∧ taken then smPut (fun _ => none) c.btb i (some { target := target, kind := kind }) else c.btb
  { s with core := { c with pc := if taken then target else c.pc, pq := if taken then [] else c.pq, dir := dir, btb := btb, brCnt := c.brCnt + 1,
                            mispCnt := if miss then c.mispCnt + 1 else c.mispCnt } }

/-- PC that an interrupt saves: the next word, or the repeat word. -/
def State.nextPc (s : State) : Word := (s.core.rep.map (·.pfx)).getD s.core.pc

end Sys2Proof.Machine
end

