-- ==== Sys2Proof/Machine/CoreAlu.lean ====
section
/-! DEFINITION. Arithmetic, logic, immediates and MOV of the control core (R348, R352 to R356, R378). -/
namespace Sys2Proof.Machine

/-- Shifts and the rotate by an amount of 0 to 255 (R354, R378). -/
def shlW (a : Word) (n : Nat) : Word := if 32 ≤ n then 0 else a <<< n
def shrW (a : Word) (n : Nat) : Word := if 32 ≤ n then 0 else a >>> n
def sarW (a : Word) (n : Nat) : Word := a.sshiftRight (min n 31)
def rolW (a : Word) (n : Nat) : Word := a.rotateLeft (n % 32)

/-- The amount of a register shift: bits [7:0] (R354). -/
def amtW (b : Word) : Nat := bits b 7 0

/-- Absolute value, signed minimum and maximum, leading zeros (R354, R378). -/
def absW (a : Word) : Word := if a.msb then 0 - a else a
def minW (a b : Word) : Word := if a.slt b then a else b
def maxW (a b : Word) : Word := if a.slt b then b else a
def clzW (a : Word) : Word := w32 (((List.range 32).find? fun i => bitN a.toNat (31 - i)).getD 32)

/-- A register form of layout RRR: Dd from Da and Db; `z` is the unused field (R352, R354). -/
def State.rrr (s : State) (f : Word → Word → Word) (d a b z : BitVec 4) : State :=
  s.coreRun { legal := z == 0, names := [d, a, b] } fun s => .ok (s.setDr d (f (s.dr a) (s.dr b)))

/-- A one-operand form: field b must be 0 as well. -/
def State.rr (s : State) (f : Word → Word) (d a b z : BitVec 4) : State :=
  s.coreRun { legal := z == 0 && b == 0, names := [d, a] } fun s => .ok (s.setDr d (f (s.dr a)))

/-- A form with an immediate (R355). -/
def State.rri (s : State) (f : Word → Word) (d a : BitVec 4) : State :=
  s.coreRun { names := [d, a] } fun s => .ok (s.setDr d (f (s.dr a)))

/-- A shift by an immediate; `z` is the unused field (R352, R355). -/
def State.shi (s : State) (f : Word → Nat → Word) (d a : BitVec 4) (z : BitVec 6) (amt : BitVec 8) : State :=
  s.coreRun { legal := z == 0, names := [d, a] } fun s => .ok (s.setDr d (f (s.dr a) amt.toNat))

/-- ADD (R354). -/
def execAdd (d a b z : BitVec 4) (s : State) : Host.Outcome State Fault Refusal :=
  .next (s.rrr (fun a b => a + b) d a b z)

/-- SUB (R354). -/
def execSub (d a b z : BitVec 4) (s : State) : Host.Outcome State Fault Refusal :=
  .next (s.rrr (fun a b => a - b) d a b z)

/-- AND (R354). -/
def execAnd (d a b z : BitVec 4) (s : State) : Host.Outcome State Fault Refusal :=
  .next (s.rrr (fun a b => a &&& b) d a b z)

/-- OR (R354). -/
def execOr (d a b z : BitVec 4) (s : State) : Host.Outcome State Fault Refusal :=
  .next (s.rrr (fun a b => a ||| b) d a b z)

/-- XOR (R354). -/
def execXor (d a b z : BitVec 4) (s : State) : Host.Outcome State Fault Refusal :=
  .next (s.rrr (fun a b => a ^^^ b) d a b z)

/-- SHL (R354). -/
def execShl (d a b z : BitVec 4) (s : State) : Host.Outcome State Fault Refusal :=
  .next (s.rrr (fun a b => shlW a (amtW b)) d a b z)

/-- SHR (R354). -/
def execShr (d a b z : BitVec 4) (s : State) : Host.Outcome State Fault Refusal :=
  .next (s.rrr (fun a b => shrW a (amtW b)) d a b z)

/-- SAR (R354). -/
def execSar (d a b z : BitVec 4) (s : State) : Host.Outcome State Fault Refusal :=
  .next (s.rrr (fun a b => sarW a (amtW b)) d a b z)

/-- ROL (R354). -/
def execRol (d a b z : BitVec 4) (s : State) : Host.Outcome State Fault Refusal :=
  .next (s.rrr (fun a b => rolW a (amtW b)) d a b z)

/-- NEG (R354, R378). -/
def execNeg (d a b z : BitVec 4) (s : State) : Host.Outcome State Fault Refusal :=
  .next (s.rr (fun a => 0 - a) d a b z)

/-- ABS (R354, R378). -/
def execAbs (d a b z : BitVec 4) (s : State) : Host.Outcome State Fault Refusal :=
  .next (s.rr absW d a b z)

/-- MIN (R354). -/
def execMin (d a b z : BitVec 4) (s : State) : Host.Outcome State Fault Refusal :=
  .next (s.rrr minW d a b z)

/-- MAX (R354). -/
def execMax (d a b z : BitVec 4) (s : State) : Host.Outcome State Fault Refusal :=
  .next (s.rrr maxW d a b z)

/-- CLZ (R354, R378). -/
def execClz (d a b z : BitVec 4) (s : State) : Host.Outcome State Fault Refusal :=
  .next (s.rr clzW d a b z)

/-- ADD_IMM (R355). -/
def execAddImm (d a : BitVec 4) (imm : BitVec 16) (s : State) : Host.Outcome State Fault Refusal :=
  .next (s.rri (fun a => a + imm.signExtend 32) d a)

/-- AND_IMM (R355). -/
def execAndImm (d a : BitVec 4) (imm : BitVec 16) (s : State) : Host.Outcome State Fault Refusal :=
  .next (s.rri (fun a => a &&& imm.setWidth 32) d a)

/-- OR_IMM (R355). -/
def execOrImm (d a : BitVec 4) (imm : BitVec 16) (s : State) : Host.Outcome State Fault Refusal :=
  .next (s.rri (fun a => a ||| imm.setWidth 32) d a)

/-- XOR_IMM (R355). -/
def execXorImm (d a : BitVec 4) (imm : BitVec 16) (s : State) : Host.Outcome State Fault Refusal :=
  .next (s.rri (fun a => a ^^^ imm.setWidth 32) d a)

/-- SHL_IMM (R355, R378). -/
def execShlImm (d a : BitVec 4) (z : BitVec 6) (amt : BitVec 8) (s : State) : Host.Outcome State Fault Refusal :=
  .next (s.shi shlW d a z amt)

/-- SHR_IMM (R355, R378). -/
def execShrImm (d a : BitVec 4) (z : BitVec 6) (amt : BitVec 8) (s : State) : Host.Outcome State Fault Refusal :=
  .next (s.shi shrW d a z amt)

/-- SAR_IMM (R355, R378). -/
def execSarImm (d a : BitVec 4) (z : BitVec 6) (amt : BitVec 8) (s : State) : Host.Outcome State Fault Refusal :=
  .next (s.shi sarW d a z amt)

/-- ROL_IMM (R355, R378). -/
def execRolImm (d a : BitVec 4) (z : BitVec 6) (amt : BitVec 8) (s : State) : Host.Outcome State Fault Refusal :=
  .next (s.shi rolW d a z amt)

/-- MOVI (R355). -/
def execMovi (d : BitVec 4) (imm : BitVec 20) (s : State) : Host.Outcome State Fault Refusal :=
  .next (s.coreRun { names := [d] } fun s => .ok (s.setDr d (imm.signExtend 32)))

/-- MOVHI (R355). -/
def execMovhi (d z : BitVec 4) (imm : BitVec 16) (s : State) : Host.Outcome State Fault Refusal :=
  .next (s.coreRun { legal := z == 0, names := [d] } fun s =>
    .ok (s.setDr d (putBits (s.dr d) 31 16 imm.toNat)))

/-- The encodings of MOV that are defined (R352, R356). -/
def movLegal (d src kind : BitVec 4) : Bool :=
  match kind.toNat with
  | 0 => true
  | 1 => isA src
  | 2 => isA d
  | 3 => isA d && isA src
  | 4 | 5 => src == 0
  | _ => false

/-- D registers a MOV names. -/
def movNames (d src kind : BitVec 4) : List (BitVec 4) :=
  match kind.toNat with
  | 0 => [d, src]
  | 2 => [src]
  | 3 => []
  | _ => [d]

/-- The copy of a MOV (R356). -/
def State.movCopy (s : State) (d src kind : BitVec 4) : State :=
  match kind.toNat with
  | 0 => s.setDr d (s.dr src)
  | 1 => s.setDr d (s.ar src)
  | 2 => s.setAr d (s.dr src)
  | 3 => s.setAr d (s.ar src)
  | 4 => s.setDr d (s.product.setWidth 32)
  | _ => s.setDr d ((s.product >>> 32).setWidth 32)

/-- MOV (R356). -/
def execMov (d src kind : BitVec 4) (z : BitVec 12) (s : State) : Host.Outcome State Fault Refusal :=
  .next (s.coreRun { legal := movLegal d src kind && z == 0, names := movNames d src kind } fun s =>
    .ok (s.movCopy d src kind))

end Sys2Proof.Machine
end

