-- ==== Sys2Proof/Machine/CoreMem.lean ====
section
/-! DEFINITION. Loads, stores, addressing, PUSH and POP of the control core (R357 to R360, R371, R394 to R396). -/
namespace Sys2Proof.Machine

/-- The encodings of layout MEM that are defined: Ab an A register; in MODE 3 bits [7:0] are 0 (R352). -/
def memLegal (ab : BitVec 4) (mode : BitVec 2) (ofs : BitVec 14) : Bool :=
  isA ab && (mode != 3 || ofs.extractLsb' 0 8 == 0)

/-- The D register that MODE 3 names. -/
def memDx (ofs : BitVec 14) : BitVec 4 := ofs.extractLsb' 10 4

def memNames (mode : BitVec 2) (ofs : BitVec 14) : List (BitVec 4) := if mode = 3 then [memDx ofs] else []

/-- The effective address (R357). -/
def State.memEa (s : State) (ab : BitVec 4) (mode : BitVec 2) (ofs : BitVec 14) : Word :=
  let base := s.ar ab
  match mode.toNat with
  | 2 => base
  | 3 => base + (s.dr (memDx ofs) <<< (bitsN ofs.toNat 9 8))
  | _ => base + ofs.signExtend 32

/-- Ab afterwards (R357). -/
def State.memUpdate (s : State) (ab : BitVec 4) (mode : BitVec 2) (ofs : BitVec 14) : State :=
  match mode.toNat with
  | 1 | 2 => s.setAr ab (s.ar ab + ofs.signExtend 32)
  | _ => s

/-- An address formed from A7P (R413). -/
def State.usesA7p (s : State) (ab : BitVec 4) : Bool := ab == 7 && s.priv

/-- The value of loaded bytes, sign-extended or zero-extended (R358). -/
def loadVal (sg : Bool) (d : List Byte) : Word :=
  if sg then w32i (signed (8 * d.length) (leNat d)) else w32 (leNat d)

/-- A load of `k` bytes; `put` writes the register (R357 to R359). -/
def State.coreLoad (s : State) (sg : Bool) (k : Nat) (put : State → Word → State) (ab : BitVec 4) (mode : BitVec 2)
    (ofs : BitVec 14) : CoreRes :=
  match s.load (s.usesA7p ab) (s.memEa ab mode ofs).toNat k with
  | .ok (d, s) => .ok (put (s.memUpdate ab mode ofs) (loadVal sg d))
  | .error (x, s) => .trap x s

/-- A store of the low `k` bytes of `v` (R357 to R359). -/
def State.coreStore (s : State) (k : Nat) (v : Word) (ab : BitVec 4) (mode : BitVec 2) (ofs : BitVec 14) : CoreRes :=
  (s.memUpdate ab mode ofs).store (s.usesA7p ab) (s.memEa ab mode ofs).toNat (leBytes k v.toNat)

/-- A load into Dr. -/
def State.loadD (s : State) (sg : Bool) (k : Nat) (r ab : BitVec 4) (mode : BitVec 2) (ofs : BitVec 14) : State :=
  s.coreRun { legal := memLegal ab mode ofs, names := r :: memNames mode ofs } fun s =>
    s.coreLoad sg k (fun s w => s.setDr r w) ab mode ofs

/-- A store of Dr. -/
def State.storeD (s : State) (k : Nat) (r ab : BitVec 4) (mode : BitVec 2) (ofs : BitVec 14) : State :=
  s.coreRun { legal := memLegal ab mode ofs, names := r :: memNames mode ofs } fun s => s.coreStore k (s.dr r) ab mode ofs

/-- LD_B (R358). -/
def execLdB (r ab : BitVec 4) (mode : BitVec 2) (ofs : BitVec 14) (s : State) : Host.Outcome State Fault Refusal :=
  .next (s.loadD true 1 r ab mode ofs)

/-- LD_BU (R358). -/
def execLdBu (r ab : BitVec 4) (mode : BitVec 2) (ofs : BitVec 14) (s : State) : Host.Outcome State Fault Refusal :=
  .next (s.loadD false 1 r ab mode ofs)

/-- LD_H (R358). -/
def execLdH (r ab : BitVec 4) (mode : BitVec 2) (ofs : BitVec 14) (s : State) : Host.Outcome State Fault Refusal :=
  .next (s.loadD true 2 r ab mode ofs)

/-- LD_HU (R358). -/
def execLdHu (r ab : BitVec 4) (mode : BitVec 2) (ofs : BitVec 14) (s : State) : Host.Outcome State Fault Refusal :=
  .next (s.loadD false 2 r ab mode ofs)

/-- LD_W (R358). -/
def execLdW (r ab : BitVec 4) (mode : BitVec 2) (ofs : BitVec 14) (s : State) : Host.Outcome State Fault Refusal :=
  .next (s.loadD false 4 r ab mode ofs)

/-- ST_B (R358). -/
def execStB (r ab : BitVec 4) (mode : BitVec 2) (ofs : BitVec 14) (s : State) : Host.Outcome State Fault Refusal :=
  .next (s.storeD 1 r ab mode ofs)

/-- ST_H (R358). -/
def execStH (r ab : BitVec 4) (mode : BitVec 2) (ofs : BitVec 14) (s : State) : Host.Outcome State Fault Refusal :=
  .next (s.storeD 2 r ab mode ofs)

/-- ST_W (R358). -/
def execStW (r ab : BitVec 4) (mode : BitVec 2) (ofs : BitVec 14) (s : State) : Host.Outcome State Fault Refusal :=
  .next (s.storeD 4 r ab mode ofs)

/-- LDA (R358). -/
def execLda (r ab : BitVec 4) (mode : BitVec 2) (ofs : BitVec 14) (s : State) : Host.Outcome State Fault Refusal :=
  .next (s.coreRun { legal := memLegal ab mode ofs && isA r && !((mode == 1 || mode == 2) && r == ab), names := memNames mode ofs } fun s =>
    s.coreLoad false 4 (fun s w => s.setAr r w) ab mode ofs)

/-- STA (R358). -/
def execSta (r ab : BitVec 4) (mode : BitVec 2) (ofs : BitVec 14) (s : State) : Host.Outcome State Fault Refusal :=
  .next (s.coreRun { legal := memLegal ab mode ofs && isA r, names := memNames mode ofs } fun s => s.coreStore 4 (s.ar r) ab mode ofs)

/-- ADDA (R360). -/
def execAdda (d b : BitVec 4) (imm : BitVec 16) (s : State) : Host.Outcome State Fault Refusal :=
  .next (s.coreRun { legal := isA d && isA b } fun s => .ok (s.setAr d (s.ar b + imm.signExtend 32)))

/-- LEA (R358). -/
def execLea (r ab : BitVec 4) (mode : BitVec 2) (ofs : BitVec 14) (s : State) : Host.Outcome State Fault Refusal :=
  .next (s.coreRun { legal := memLegal ab mode ofs && isA r && (mode == 0 || mode == 3), names := memNames mode ofs } fun s =>
    .ok (s.setAr r (s.memEa ab mode ofs)))

/-- A register of class D or A (R352). -/
def stkLegal (r cls : BitVec 4) (z : BitVec 16) : Bool := z == 0 && (cls == 0 || (cls == 1 && isA r))
def State.stkReg (s : State) (r cls : BitVec 4) : Word := if cls = 0 then s.dr r else s.ar r

/-- A push on the memory stack: A7 moves down, the value stored is from before (R371). -/
def State.corePush (s : State) (r cls : BitVec 4) : CoreRes :=
  let a := s.ar 7 - 4
  if bits (s.ar 7) 1 0 ≠ 0 then .trap { vec := 2, far := some a.toNat, a7p := s.priv } s
  else (s.setAr 7 a).store s.priv a.toNat (leBytes 4 (s.stkReg r cls).toNat)

/-- A pop: A7 moves up, then the register takes the value (R371). -/
def State.corePop (s : State) (r cls : BitVec 4) : CoreRes :=
  let a := s.ar 7
  if bits a 1 0 ≠ 0 then .trap { vec := 2, far := some a.toNat, a7p := s.priv } s
  else match s.load s.priv a.toNat 4 with
    | .ok (d, s) =>
      let s := s.setAr 7 (a + 4)
      let w := w32 (leNat d)
      .ok (if cls = 0 then s.setDr r w else s.setAr r w)
    | .error (x, s) => .trap x s

/-- PUSH (R371). -/
def execPush (r cls : BitVec 4) (z : BitVec 16) (s : State) : Host.Outcome State Fault Refusal :=
  .next (s.coreRun { legal := stkLegal r cls z, names := if cls = 0 then [r] else [] } fun s => s.corePush r cls)

/-- POP (R371). -/
def execPop (r cls : BitVec 4) (z : BitVec 16) (s : State) : Host.Outcome State Fault Refusal :=
  .next (s.coreRun { legal := stkLegal r cls z, names := if cls = 0 then [r] else [] } fun s => s.corePop r cls)

end Sys2Proof.Machine
end

