-- ==== Sys2Proof/Machine/CoreMul.lean ====
section
/-! DEFINITION. Multiply, accumulate and divide of the control core (R361 to R364, R378). -/
namespace Sys2Proof.Machine

/-- The 64-bit products (R361). -/
def mulS (a b : Word) : BitVec 64 := a.signExtend 64 * b.signExtend 64
def mulU (a b : Word) : BitVec 64 := a.setWidth 64 * b.setWidth 64

/-- MUL or MULU issues: its product reaches MPL and MPH 4 cycles later (R362). -/
def State.mulIssue (s : State) (p : BitVec 64) : State := { s with core.mulQ := s.core.mulQ ++ [(p, s.cycle)] }

/-- An accumulator. -/
def State.acc (s : State) (n : BitVec 2) : BitVec 72 := atV s.core.acc n.toNat 0
def State.setAcc (s : State) (n : BitVec 2) (v : BitVec 72) : State := { s with core.acc := setV s.core.acc n.toNat v }

/-- ACCR MODE 0 (R361): rounded, shifted, and before saturation. -/
def accRound (v : BitVec 72) (sh : Nat) : Int :=
  (BitVec.sshiftRight (v + BitVec.ofNat 72 (if 0 < sh then 2 ^ (sh - 1) else 0)) sh).toInt

/-- ACCR (R361, R365): MODE 0 saturates and sets ACCST.SAT. -/
def State.accRead (s : State) (d : BitVec 4) (mode n : BitVec 2) (sh : Nat) : State :=
  let v := s.acc n
  match mode.toNat with
  | 0 =>
    let t := accRound v sh
    let r := satS 32 t
    let s := s.setDr d (w32i r)
    if r = t then s else { s with core.accst := s.core.accst ||| 2 }
  | 1 => s.setDr d (v.extractLsb' 0 32)
  | 2 => s.setDr d (v.extractLsb' 32 32)
  | _ => s.setDr d ((v.extractLsb' 64 8).signExtend 32)

/-- The results of the DIV group for a divisor of 0, and for any other (R363, R378). -/
def divS (a b : Word) : Word := if b = 0 then (if a = 0 then 0 else if a.msb then 0x80000000 else 0x7FFFFFFF) else w32i (Int.tdiv a.toInt b.toInt)
def divU (a b : Word) : Word := if b = 0 then 0xFFFFFFFF else w32 (a.toNat / b.toNat)
def remS (a b : Word) : Word := if b = 0 then a else w32i (Int.tmod a.toInt b.toInt)
def remU (a b : Word) : Word := if b = 0 then a else w32 (a.toNat % b.toNat)

/-- A division issues (R363, R364): its result is in flight until it is written. -/
def State.divIssue (s : State) (f : Word → Word → Word) (d a b : BitVec 4) : CoreRes :=
  let x := s.dr a
  let y := s.dr b
  if y = 0 ∧ bitN s.core.accst.toNat 2 then .trap { vec := 5 } s
  else
    let s := if y = 0 then { s with core.accst := s.core.accst ||| 1 } else s
    .ok { s with core.div := some (d.toNat, f x y), core.divAt := s.cycle }

/-- A word of the DIV group. -/
def State.divOp (s : State) (f : Word → Word → Word) (d a b z : BitVec 4) : State :=
  s.coreRun { legal := z == 0, names := [d, a, b], division := true, underRep := false } fun s => s.divIssue f d a b

/-- MUL (R361, R362). -/
def execMul (z1 a b z2 : BitVec 4) (s : State) : Host.Outcome State Fault Refusal :=
  .next (s.coreRun { legal := z1 == 0 && z2 == 0, names := [a, b] } fun s => .ok (s.mulIssue (mulS (s.dr a) (s.dr b))))

/-- MULU (R361, R362). -/
def execMulu (z1 a b z2 : BitVec 4) (s : State) : Host.Outcome State Fault Refusal :=
  .next (s.coreRun { legal := z1 == 0 && z2 == 0, names := [a, b] } fun s => .ok (s.mulIssue (mulU (s.dr a) (s.dr b))))

/-- MUL_PRODUCT_WRITE (R362): 4 cycles after the issue. -/
def execMulProductWrite (s : State) : Host.Outcome State Fault Refusal := s.clocked fun s =>
  match s.core.mulQ with
  | (_, t) :: _ => .next (if t + 4 ≤ s.cycle then s.mulWrite else s)
  | [] => .next s

/-- MAC (R361). -/
def execMac (z1 n : BitVec 2) (a b z2 : BitVec 4) (s : State) : Host.Outcome State Fault Refusal :=
  .next (s.coreRun { legal := z1 == 0 && z2 == 0, names := [a, b] } fun s =>
    .ok (s.setAcc n (s.acc n + (mulS (s.dr a) (s.dr b)).signExtend 72)))

/-- MACS (R361). -/
def execMacs (z1 n : BitVec 2) (a b z2 : BitVec 4) (s : State) : Host.Outcome State Fault Refusal :=
  .next (s.coreRun { legal := z1 == 0 && z2 == 0, names := [a, b] } fun s =>
    .ok (s.setAcc n (s.acc n - (mulS (s.dr a) (s.dr b)).signExtend 72)))

/-- ACCR (R361). -/
def execAccr (d : BitVec 4) (mode n : BitVec 2) (sh : BitVec 8) (s : State) : Host.Outcome State Fault Refusal :=
  .next (s.coreRun { legal := if mode = 0 then decide (sh.toNat < 64) else sh == 0, names := [d] } fun s =>
    .ok (s.accRead d mode n sh.toNat))

/-- ACCZ (R361). -/
def execAccz (z : BitVec 6) (n : BitVec 2) (sh : BitVec 8) (s : State) : Host.Outcome State Fault Refusal :=
  .next (s.coreRun { legal := z == 0 && sh == 0 } fun s => .ok (s.setAcc n 0))

/-- ACCZ_LONG (R361). -/
def execAcczLong (g : BitVec 4) (z n : BitVec 2) (lo hi : BitVec 4) (s : State) : Host.Outcome State Fault Refusal :=
  .next (s.coreRun { legal := z == 0, names := [g, lo, hi] } fun s =>
    .ok (s.setAcc n ((s.dr g).setWidth 8 ++ s.dr hi ++ s.dr lo)))

/-- DIV (R363, R364). -/
def execDiv (d a b z : BitVec 4) (s : State) : Host.Outcome State Fault Refusal :=
  .next (s.divOp divS d a b z)

/-- DIVU (R363, R364). -/
def execDivu (d a b z : BitVec 4) (s : State) : Host.Outcome State Fault Refusal :=
  .next (s.divOp divU d a b z)

/-- REM (R363, R364). -/
def execRem (d a b z : BitVec 4) (s : State) : Host.Outcome State Fault Refusal :=
  .next (s.divOp remS d a b z)

/-- REMU (R363, R364). -/
def execRemu (d a b z : BitVec 4) (s : State) : Host.Outcome State Fault Refusal :=
  .next (s.divOp remU d a b z)

/-- DIV_COMPLETE (R363): 34 cycles after the issue. -/
def execDivComplete (s : State) : Host.Outcome State Fault Refusal := s.clocked fun s =>
  .next (if s.core.divAt + 34 ≤ s.cycle then s.divFinish else s)

end Sys2Proof.Machine
end

