-- ==== Sys2Proof/Machine/CoreFlow.lean ====
section
/-! DEFINITION. Branches, jumps, calls and returns of the control core (R366 to R370, R397 to R401, R411). -/
namespace Sys2Proof.Machine

/-- Branches and jumps are not repeated (R374). -/
def flowWord (legal : Bool) (names : List (BitVec 4)) : CoreWord :=
  { legal := legal, names := names, underRep := false, underRepi := false }

/-- The target of a branch: its own address + DISP16 × 4 (R366). The word is the one retired. -/
def State.rel16 (s : State) (disp : BitVec 16) : Word := s.core.lastPc + disp.signExtend 32 * 4

/-- The target of J and CALL (R367). -/
def State.rel24 (s : State) (disp : BitVec 24) : Word := s.core.lastPc + disp.signExtend 32 * 4

/-- CB.cond (R366). -/
def State.cb (s : State) (f : Word → Word → Bool) (a b : BitVec 4) (disp : BitVec 16) : State :=
  s.coreRun (flowWord true [a, b]) fun s => .ok (s.branch 0 (f (s.dr a) (s.dr b)) (s.rel16 disp))

/-- CBZ.cond (R366). -/
def State.cbz (s : State) (f : Int → Bool) (a : BitVec 4) (disp : BitVec 16) : State :=
  s.coreRun (flowWord true [a]) fun s => .ok (s.branch 0 (f (s.dr a).toInt) (s.rel16 disp))

/-- A call: the address of the following word is pushed (R367, R370). -/
def State.coreCall (s : State) (kind : Nat) (target : Word) : CoreRes :=
  match s.rsPush false 0 s.priv s.core.pc with
  | .ok s => .ok (s.branch kind true target)
  | .error x => .trap x s

/-- RET (R369, R370). -/
def State.coreRet (s : State) : CoreRes :=
  match s.rsFill 1 with
  | .error (x, s) => .trap x s
  | .ok s =>
    match s.core.rs with
    | e :: r =>
      if e.kind = 0 ∧ e.tag = s.priv then .ok { s with core := { s.core with rs := r, pc := e.value, pq := [] } }
      else .trap { vec := 6 } s
    | [] => .trap { vec := 8 } s

/-- The bits of STATUS that are no reserved field. -/
def statusMask : Word := 0xFF808F01

/-- RETE: every check before anything changes (R369, R411). -/
def State.coreRete (s : State) : CoreRes :=
  match s.rsFill 1 with
  | .error (x, s) => .trap x s
  | .ok s =>
    match s.core.rs with
    | [] => .trap { vec := 8 } s
    | e :: _ =>
      if e.kind ≠ 1 then .trap { vec := 6 } s
      else match s.rsFill 2 with
        | .error (x, s) => .trap x s
        | .ok s =>
          match s.core.rs with
          | p :: q :: r =>
            if q.kind ≠ 2 then .trap { vec := 6 } s
            else if p.tag ≠ q.tag ∨ (bitN q.value.toNat 0 ∧ !p.tag) then .trap { vec := 1 } s
            else .ok { s with core := { s.core with rs := r, pc := p.value, pq := [], status := q.value &&& statusMask } }
          | _ => .trap { vec := 8 } s

/-- CB_EQ (R366). -/
def execCbEq (a b : BitVec 4) (disp : BitVec 16) (s : State) : Host.Outcome State Fault Refusal :=
  .next (s.cb (fun x y => x == y) a b disp)

/-- CB_NE (R366). -/
def execCbNe (a b : BitVec 4) (disp : BitVec 16) (s : State) : Host.Outcome State Fault Refusal :=
  .next (s.cb (fun x y => x != y) a b disp)

/-- CB_LT (R366). -/
def execCbLt (a b : BitVec 4) (disp : BitVec 16) (s : State) : Host.Outcome State Fault Refusal :=
  .next (s.cb (fun x y => x.slt y) a b disp)

/-- CB_GE (R366). -/
def execCbGe (a b : BitVec 4) (disp : BitVec 16) (s : State) : Host.Outcome State Fault Refusal :=
  .next (s.cb (fun x y => !x.slt y) a b disp)

/-- CB_LTU (R366). -/
def execCbLtu (a b : BitVec 4) (disp : BitVec 16) (s : State) : Host.Outcome State Fault Refusal :=
  .next (s.cb (fun x y => x.ult y) a b disp)

/-- CB_GEU (R366). -/
def execCbGeu (a b : BitVec 4) (disp : BitVec 16) (s : State) : Host.Outcome State Fault Refusal :=
  .next (s.cb (fun x y => !x.ult y) a b disp)

/-- CBZ_EQ (R366). -/
def execCbzEq (a : BitVec 4) (disp : BitVec 16) (s : State) : Host.Outcome State Fault Refusal :=
  .next (s.cbz (fun x => decide (x = 0)) a disp)

/-- CBZ_NE (R366). -/
def execCbzNe (a : BitVec 4) (disp : BitVec 16) (s : State) : Host.Outcome State Fault Refusal :=
  .next (s.cbz (fun x => decide (x ≠ 0)) a disp)

/-- CBZ_LT (R366). -/
def execCbzLt (a : BitVec 4) (disp : BitVec 16) (s : State) : Host.Outcome State Fault Refusal :=
  .next (s.cbz (fun x => decide (x < 0)) a disp)

/-- CBZ_GE (R366). -/
def execCbzGe (a : BitVec 4) (disp : BitVec 16) (s : State) : Host.Outcome State Fault Refusal :=
  .next (s.cbz (fun x => decide (0 ≤ x)) a disp)

/-- CBZ_GT (R366). -/
def execCbzGt (a : BitVec 4) (disp : BitVec 16) (s : State) : Host.Outcome State Fault Refusal :=
  .next (s.cbz (fun x => decide (0 < x)) a disp)

/-- CBZ_LE (R366). -/
def execCbzLe (a : BitVec 4) (disp : BitVec 16) (s : State) : Host.Outcome State Fault Refusal :=
  .next (s.cbz (fun x => decide (x ≤ 0)) a disp)

/-- J (R367). -/
def execJ (disp : BitVec 24) (s : State) : Host.Outcome State Fault Refusal :=
  .next (s.coreRun (flowWord true []) fun s => .ok (s.branch 1 true (s.rel24 disp)))

/-- CALL (R367). -/
def execCall (disp : BitVec 24) (s : State) : Host.Outcome State Fault Refusal :=
  .next (s.coreRun (flowWord true []) fun s => s.coreCall 1 (s.rel24 disp))

/-- JA (R367). -/
def execJa (z1 ab : BitVec 4) (z2 : BitVec 16) (s : State) : Host.Outcome State Fault Refusal :=
  .next (s.coreRun (flowWord (z1 == 0 && isA ab && z2 == 0) []) fun s => .ok (s.branch 2 true (s.ar ab)))

/-- CALLA (R367). -/
def execCalla (z1 ab : BitVec 4) (z2 : BitVec 16) (s : State) : Host.Outcome State Fault Refusal :=
  .next (s.coreRun (flowWord (z1 == 0 && isA ab && z2 == 0) []) fun s => s.coreCall 2 (s.ar ab))

/-- RET (R369). -/
def execRet (z : BitVec 24) (s : State) : Host.Outcome State Fault Refusal :=
  .next (s.coreRun (flowWord (z == 0) []) State.coreRet)

/-- RETE (R369, R411). -/
def execRete (z : BitVec 24) (s : State) : Host.Outcome State Fault Refusal :=
  .next (s.coreRun { flowWord (z == 0) [] with privileged := true } State.coreRete)

end Sys2Proof.Machine
end

