-- ==== Sys2Proof/Machine/CoreSys.lean ====
section
/-! DEFINITION. System words, CSRs, repeats, paired words, interrupts, the NMI and the timer of the control core (R372 to R377, R386, R393,
R397, R400, R402 to R408, R415). -/
namespace Sys2Proof.Machine

/-- A word of the system group (R372): not repeated; IMM8 is 0 where the word takes none. -/
def sysWord (z imm : BitVec 8) (privileged : Bool) : CoreWord :=
  { legal := z == 0 && imm == 0, privileged := privileged, underRep := false, underRepi := false }

/-- FENCE.I (R385, R386). -/
def State.fenceI (s : State) : State :=
  let s := s.sbEmpty
  { s with core := { s.core with lines := [], lineBuf := none, pq := [], icache := bitN s.core.ccCfg.toNat 0 } }

/-- BKPT (R372, R510, R511): with the debug gate open for the core it halts, before the word. -/
def State.coreBkpt (s : State) : CoreRes :=
  if s.debugGate 0 then
    .ok { s with core := { s.core with st := 4, pc := s.core.lastPc } }
  else .trap { vec := 10 } s

/-- CSRs that user mode may name (R415). -/
def csrUser (n : Nat) : Bool := decide (n ≤ 2)

/-- CSRs that an MTC may write (R373, R415). -/
def csrWritable (n : Nat) : Bool :=
  [0x000, 0x010, 0x013, 0x014, 0x015, 0x018, 0x019, 0x01A, 0x020, 0x028, 0x029, 0x032, 0x033, 0x034, 0x040, 0x041].contains n ||
    (decide (0x038 ≤ n) && decide (n ≤ 0x03F))

/-- MFC or MTC of CSR `n` with D register `r` (R373, R374). -/
def csrWord (legal : Bool) (n : Nat) (r : BitVec 4) : CoreWord :=
  { legal := legal, privileged := !csrUser n, names := [r], underRep := false, underRepi := false }

/-- A write of a CSR (R410, R415): reserved bits read 0, a non-zero REPCNT is left at 0. -/
def State.setCsr (s : State) (n : Nat) (w : Word) : State :=
  let c := s.core
  match n with
  | 0x000 => { s with core.accst := w &&& 7 }
  | 0x010 => { s with core.status := w &&& 0x8F01 }
  | 0x013 => { s with core.vbase := w &&& 0xFFFFFC00 }
  | 0x014 => { s with core.a7u := w }
  | 0x015 => { s with core.a7p := w }
  | 0x018 => { s with core.rsBase := w &&& 0xFFFFFFF8 }
  | 0x019 => { s with core.rsLimit := w &&& 0xFFFFFFF8 }
  | 0x01A => { s with core.rsSpill := w &&& 0xFFFFFFF8 }
  | 0x020 => { s with core.ccCfg := w &&& 1 }
  | 0x028 => { s with core.brCnt := w }
  | 0x029 => { s with core.mispCnt := w }
  | 0x032 => { s with core.irqEn := (c.irqEn.extractLsb' 32 32) ++ w }
  | 0x033 => { s with core.irqEn := w ++ (c.irqEn.extractLsb' 0 32) }
  | 0x034 => { s with core.swi := bitN w.toNat 0 }
  | 0x040 =>
    let t := (c.timecmp.extractLsb' 32 32) ++ w
    { s with core := { c with timecmp := t, timerHit := decide (t.toNat ≤ s.cycle) } }
  | 0x041 =>
    let t := w ++ (c.timecmp.extractLsb' 0 32)
    { s with core := { c with timecmp := t, timerHit := decide (t.toNat ≤ s.cycle) } }
  | _ => { s with core.prio := setV c.prio (n - 0x38) (w &&& 0x77777777) }

/-- A read of a CSR into Dd: one of CYCLE_LO latches CYCLE_HI (R415). -/
def State.readCsr (s : State) (d : BitVec 4) (n : Nat) : State :=
  let w := (s.csr n).getD 0
  let s := if n = 0x001 then { s with core.cycHi := w32 (s.cycle / 2 ^ 32) } else s
  s.setDr d w

/-- REP and REPI (R374, R375): `next` is the following word, which they may refuse. A count in STATUS.REPCNT resumes. -/
def repForbids (irq : Bool) (next : Word) : Bool :=
  let m := bits next 30 24
  !next.msb && (decide (0x28 ≤ m ∧ m ≤ 0x2E) || decide (0x30 ≤ m ∧ m ≤ 0x35) || m == 0x38 || m == 0x39 || m == 0x3A || m == 0x3C ||
    m == 0x3D || (!irq && m == 0x21))

/-- The repeat begins. -/
def State.repStart (s : State) (irq : Bool) (n : Nat) : State :=
  let left := if bits s.core.status 31 23 = 0 then n else bits s.core.status 31 23
  { s with core := { s.core with rep := some { pfx := s.core.lastPc, left := left, irq := irq, got := false },
                                 status := putBits s.core.status 31 23 left } }

/-- The words REP and REPI. -/
def State.repWord (s : State) (irq : Bool) (z : BitVec 16) (n : BitVec 8) (next : Word) : State :=
  s.coreRun { legal := z == 0 && !repForbids irq next, underRep := false, underRepi := false } fun s =>
    .ok (s.repStart irq (n.toNat + 1))

/-- A short operation (R376). -/
inductive ShortOp where
  | nop
  /-- MOV.s, ADD.s, SUB.s, AND.s, OR.s, XOR.s by code 1 to 6 -/
  | alu (code : Nat) (d src : BitVec 4)
  | addi (d : BitVec 4) (imm : Word)
  | shl (d : BitVec 4) (n : Nat)
  | shr (d : BitVec 4) (n : Nat)
  | ld (d ab : BitVec 4) (ofs : Nat)
  | st (src ab : BitVec 4) (ofs : Nat)
  | adda (d : BitVec 4) (imm : Word)
  deriving DecidableEq, Repr

/-- A short operation from its 15 bits; `none`: undefined (R376, R379). -/
def shortOf (x : BitVec 15) : Option ShortOp :=
  let d : BitVec 4 := x.extractLsb' 7 4
  let src : BitVec 4 := x.extractLsb' 3 4
  let code := bitsN x.toNat 14 11
  let ab : BitVec 4 := BitVec.ofNat 4 (bitsN x.toNat 6 4)
  let ofs := 4 * bitsN x.toNat 3 0
  if code = 0 then (if bitsN x.toNat 10 0 = 0 then some .nop else none)
  else if code ≤ 6 then (if bitsN x.toNat 2 0 = 0 then some (.alu code d src) else none)
  else if code = 7 then some (.addi d ((x.extractLsb' 0 7).signExtend 32))
  else if code = 8 then (if bitsN x.toNat 1 0 = 0 then some (.shl d (bitsN x.toNat 6 2)) else none)
  else if code = 9 then (if bitsN x.toNat 1 0 = 0 then some (.shr d (bitsN x.toNat 6 2)) else none)
  else if code = 10 then some (.ld d ab ofs)
  else if code = 11 then some (.st d ab ofs)
  else if code = 12 then some (.adda (BitVec.ofNat 4 (bitsN x.toNat 10 8)) ((x.extractLsb' 0 8).signExtend 32))
  else none

/-- Registers written and read: D registers 0 to 15, A registers 16 to 23. -/
def ShortOp.writes : ShortOp → List Nat
  | .nop | .st _ _ _ => []
  | .alu _ d _ | .addi d _ | .shl d _ | .shr d _ | .ld d _ _ => [d.toNat]
  | .adda d _ => [16 + d.toNat]
def ShortOp.reads : ShortOp → List Nat
  | .nop => []
  | .alu c d r => if c = 1 then [r.toNat] else [d.toNat, r.toNat]
  | .addi d _ | .shl d _ | .shr d _ => [d.toNat]
  | .ld _ ab _ => [16 + ab.toNat]
  | .st r ab _ => [r.toNat, 16 + ab.toNat]
  | .adda d _ => [16 + d.toNat]
def ShortOp.isMem : ShortOp → Bool
  | .ld _ _ _ | .st _ _ _ => true
  | _ => false

/-- A legal pair (R377). -/
def pairLegal (x y : ShortOp) : Bool :=
  let clash := fun (p q : ShortOp) => p.writes.any fun r => q.writes.contains r || q.reads.contains r
  !clash x y && !clash y x && !(x.isMem && y.isMem)

/-- The register write of a short operation, its operands read from `s`, onto `t`. -/
def ShortOp.put (o : ShortOp) (s t : State) : State :=
  match o with
  | .nop | .ld _ _ _ | .st _ _ _ => t
  | .alu c d r =>
    let x := s.dr d
    let y := s.dr r
    t.setDr d (match c with
      | 1 => y | 2 => x + y | 3 => x - y | 4 => x &&& y | 5 => x ||| y | _ => x ^^^ y)
  | .addi d i => t.setDr d (s.dr d + i)
  | .shl d n => t.setDr d (s.dr d <<< n)
  | .shr d n => t.setDr d (s.dr d >>> n)
  | .adda d i => t.setAr d (s.ar d + i)

/-- The memory access of a pair: after the register writes of the other operation, which it does not depend on. -/
def ShortOp.access (o : ShortOp) (s t : State) : CoreRes :=
  match o with
  | .ld d ab ofs =>
    match t.load (ab == 7 && s.priv) (s.ar ab + w32 ofs).toNat 4 with
    | .ok (b, t) => .ok (t.setDr d (w32 (leNat b)))
    | .error (x, t) => .trap x t
  | .st r ab ofs => t.store (ab == 7 && s.priv) (s.ar ab + w32 ofs).toNat (leBytes 4 (s.dr r).toNat)
  | _ => .ok t

/-- Both operations of a pair (R377). -/
def State.corePair (s : State) (x y : ShortOp) : CoreRes :=
  let t := y.put s (x.put s s)
  if x.isMem then x.access s t else y.access s t

/-- A source that the spec gives no way to clear ends as it is taken: the interrupts of the rings, the oldest FW_MSG, a census result
(DESIGN CHOICE, log 28). -/
def State.irqTaken (s : State) (n : Nat) : State :=
  match n with
  | 1 => { s with res.recR.due := false }
  | 2 => { s with res.clipR.due := false }
  | 9 => { s with core.fwMsg := s.core.fwMsg.drop 1 }
  | 10 => { s with core.cenIrq := false }
  | _ => s

/-- D registers a pair names. -/
def pairNames (x y : ShortOp) : List (BitVec 4) :=
  ((x.writes ++ x.reads ++ y.writes ++ y.reads).filter fun r => decide (r < 16)).map fun r => BitVec.ofNat 4 r

/-- NOP (R372). -/
def execNop (z imm : BitVec 8) (s : State) : Host.Outcome State Fault Refusal :=
  .next (s.coreRun (sysWord z imm false) fun s => .ok s)

/-- WFI (R372, R408). -/
def execWfi (z imm : BitVec 8) (s : State) : Host.Outcome State Fault Refusal :=
  .next (s.coreRun (sysWord z imm true) fun s => .ok { s with core.st := 2 })

/-- WFI_WAKE (R408). -/
def execWfiWake (s : State) : Host.Outcome State Fault Refusal := s.clocked fun s =>
  .next (if s.core.st = 2 ∧ (s.core.nmi ∨ s.irqBest.isSome) then { s with core.st := 1 } else s)

/-- FENCE_I (R372, R386). -/
def execFenceI (z imm : BitVec 8) (s : State) : Host.Outcome State Fault Refusal :=
  .next (s.coreRun (sysWord z imm false) fun s => .ok s.fenceI)

/-- PFLUSH (R372, R397). -/
def execPflush (z imm : BitVec 8) (s : State) : Host.Outcome State Fault Refusal :=
  .next (s.coreRun (sysWord z imm true) fun s => .ok { s with core := { s.core with btb := [], dir := [] } })

/-- PBAR (R372, R400). -/
def execPbar (z imm : BitVec 8) (s : State) : Host.Outcome State Fault Refusal :=
  .next (s.coreRun { sysWord z 0 true with legal := z == 0 && decide (imm.toNat < 2) } fun s => .ok { s with core.bar := imm == 1 })

/-- SYNC (R372, R393). -/
def execSync (z imm : BitVec 8) (s : State) : Host.Outcome State Fault Refusal :=
  .next (s.coreRun (sysWord z imm false) fun s => .ok s.sbEmpty)

/-- BKPT (R372). -/
def execBkpt (z imm : BitVec 8) (s : State) : Host.Outcome State Fault Refusal :=
  .next (s.coreRun (sysWord z imm false) fun s => s.coreBkpt)

/-- TRAP (R372, R410). -/
def execTrap (z imm : BitVec 8) (s : State) : Host.Outcome State Fault Refusal :=
  .next (s.coreRun (sysWord z 0 false) fun s => .trap { vec := 11, detail := imm.toNat, after := true } s)

/-- MFC (R373, R415). -/
def execMfc (d : BitVec 4) (z : BitVec 8) (n : BitVec 12) (s : State) : Host.Outcome State Fault Refusal :=
  .next (s.coreRun (csrWord (z == 0 && (s.csr n.toNat).isSome) n.toNat d) fun s => .ok (s.readCsr d n.toNat))

/-- MTC (R373, R415). -/
def execMtc (r : BitVec 4) (z : BitVec 8) (n : BitVec 12) (s : State) : Host.Outcome State Fault Refusal :=
  .next (s.coreRun (csrWord (z == 0 && csrWritable n.toNat) n.toNat r) fun s => .ok (s.setCsr n.toNat (s.dr r)))

/-- REP (R374). -/
def execRep (z : BitVec 16) (n : BitVec 8) (next : BitVec 32) (s : State) : Host.Outcome State Fault Refusal :=
  .next (s.repWord false z n next)

/-- REPI (R374, R375). -/
def execRepi (z : BitVec 16) (n : BitVec 8) (next : BitVec 32) (s : State) : Host.Outcome State Fault Refusal :=
  .next (s.repWord true z n next)

/-- PAIRED_WORD (R376, R377). -/
def execPairedWord (w : BitVec 31) (s : State) : Host.Outcome State Fault Refusal :=
  .next (match shortOf (w.extractLsb' 16 15), shortOf (w.extractLsb' 1 15) with
    | some x, some y =>
      s.coreRun { legal := pairLegal x y && !w.getLsbD 0, names := pairNames x y } fun s => s.corePair x y
    | _, _ => s.coreRun { legal := false } CoreRes.ok)

/-- INTERRUPT_ENTRY (R404, R406, R409). -/
def execInterruptEntry (s : State) : Host.Outcome State Fault Refusal := s.clocked fun s =>
  .next (match s.irqBest with
    | some (l, n) =>
      if (s.core.st = 1 ∨ s.core.st = 2) ∧ s.irqReady then
        (s.irqTaken n).coreEnter { vec := 0x20 + n, detail := n } s.nextPc true (some l) false
      else s
    | none => s)

/-- NMI_REQUEST (R405). -/
def execNmiRequest (low : Bool) (s : State) : Host.Outcome State Fault Refusal :=
  .next ({ s with core.nmiPin := low } : State).nmiEdge

/-- NMI_ENTRY (R405, R409). -/
def execNmiEntry (s : State) : Host.Outcome State Fault Refusal := s.clocked fun s =>
  .next (if (s.core.st = 1 ∨ s.core.st = 2) ∧ s.nmiReady then
      ({ s with core.nmi := false } : State).coreEnter { vec := 0x10 } s.nextPc true none true
    else s)

/-- TIMER_COMPARE (R403). -/
def execTimerCompare (s : State) : Host.Outcome State Fault Refusal :=
  .next { s with core.timerHit := decide (s.core.timecmp.toNat ≤ s.cycle) }

/-- STORE_BUFFER_DRAIN (R391). -/
def execStoreBufferDrain (s : State) : Host.Outcome State Fault Refusal := s.clocked fun s =>
  .next s.sbDrain

end Sys2Proof.Machine
end

