-- ==== Sys2Proof/Machine/CoreDecode.lean ====
section
/-! DEFINITION. The decoder of the control core's instruction words (R351 to R353, R379), and what the core does by itself at an instruction
boundary: the word at its PC, an interrupt, the NMI, the end of WFI (R406 to R408). -/
namespace Sys2Proof.Machine

/-- What an instruction word does: the meaning of its row with the word's operands. -/
abbrev CoreMeaning := State → Host.Outcome State Fault Refusal

/-- The fields of the layouts of R352: bits [23:20], [19:16], [15:12], [11:8] and [7:0], the immediates, MODE and OFS14. -/
def fD (w : Word) : BitVec 4 := w.extractLsb' 20 4
def fA (w : Word) : BitVec 4 := w.extractLsb' 16 4
def fB (w : Word) : BitVec 4 := w.extractLsb' 12 4
def fC (w : Word) : BitVec 4 := w.extractLsb' 8 4
def fFunc (w : Word) : BitVec 8 := w.extractLsb' 0 8
def fImm16 (w : Word) : BitVec 16 := w.extractLsb' 0 16
def fImm24 (w : Word) : BitVec 24 := w.extractLsb' 0 24
def fMode (w : Word) : BitVec 2 := w.extractLsb' 14 2
def fOfs (w : Word) : BitVec 14 := w.extractLsb' 0 14
def fImm8 (w : Word) : BitVec 8 := w.extractLsb' 8 8

/-- Layout RRR by FUNC: the register forms of major 0x01 (R354). -/
def decodeRrr (w : Word) : Option CoreMeaning :=
  let mk := fun (f : BitVec 4 → BitVec 4 → BitVec 4 → BitVec 4 → CoreMeaning) => some (f (fD w) (fA w) (fB w) (fC w))
  match (fFunc w).toNat with
  | 0x00 => mk execAdd
  | 0x01 => mk execSub
  | 0x02 => mk execAnd
  | 0x03 => mk execOr
  | 0x04 => mk execXor
  | 0x05 => mk execShl
  | 0x06 => mk execShr
  | 0x07 => mk execSar
  | 0x08 => mk execRol
  | 0x09 => mk execNeg
  | 0x0A => mk execAbs
  | 0x0B => mk execMin
  | 0x0C => mk execMax
  | 0x0D => mk execClz
  | _ => none

/-- The division group by FUNC (R363). -/
def decodeDiv (w : Word) : Option CoreMeaning :=
  let mk := fun (f : BitVec 4 → BitVec 4 → BitVec 4 → BitVec 4 → CoreMeaning) => some (f (fD w) (fA w) (fB w) (fC w))
  match (fFunc w).toNat with
  | 0 => mk execDiv
  | 1 => mk execDivu
  | 2 => mk execRem
  | 3 => mk execRemu
  | _ => none

/-- A shift by an immediate by KIND (R355). -/
def decodeShi (w : Word) : Option CoreMeaning :=
  let z : BitVec 6 := w.extractLsb' 8 6
  match (fMode w).toNat with
  | 0 => some (execShlImm (fD w) (fA w) z (fFunc w))
  | 1 => some (execShrImm (fD w) (fA w) z (fFunc w))
  | 2 => some (execSarImm (fD w) (fA w) z (fFunc w))
  | _ => some (execRolImm (fD w) (fA w) z (fFunc w))

/-- The multiply group by FUNC (R361). -/
def decodeMul (w : Word) : Option CoreMeaning :=
  let mode : BitVec 2 := w.extractLsb' 18 2
  let n : BitVec 2 := w.extractLsb' 16 2
  match (fFunc w).toNat with
  | 0 => some (execMul (fD w) (fA w) (fB w) (fC w))
  | 1 => some (execMulu (fD w) (fA w) (fB w) (fC w))
  | 2 => some (execMac (w.extractLsb' 22 2) (w.extractLsb' 20 2) (fA w) (fB w) (fC w))
  | 3 => some (execMacs (w.extractLsb' 22 2) (w.extractLsb' 20 2) (fA w) (fB w) (fC w))
  | 4 => some (execAccr (fD w) mode n (fImm8 w))
  | 5 => some (execAccz (w.extractLsb' 18 6) n (fImm8 w))
  | 6 => some (execAcczLong (fD w) mode n (fB w) (fC w))
  | _ => none

/-- CBZ by COND (R366). -/
def decodeCbz (w : Word) : Option CoreMeaning :=
  match (fA w).toNat with
  | 0 => some (execCbzEq (fD w) (fImm16 w))
  | 1 => some (execCbzNe (fD w) (fImm16 w))
  | 2 => some (execCbzLt (fD w) (fImm16 w))
  | 3 => some (execCbzGe (fD w) (fImm16 w))
  | 4 => some (execCbzGt (fD w) (fImm16 w))
  | 5 => some (execCbzLe (fD w) (fImm16 w))
  | _ => none

/-- The system group by FUNC (R372). -/
def decodeSys (w : Word) : Option CoreMeaning :=
  let mk := fun (f : BitVec 8 → BitVec 8 → CoreMeaning) => some (f (w.extractLsb' 16 8) (fImm8 w))
  match (fFunc w).toNat with
  | 0 => mk execNop
  | 1 => mk execWfi
  | 2 => mk execFenceI
  | 3 => mk execPflush
  | 4 => mk execPbar
  | 5 => mk execSync
  | 6 => mk execBkpt
  | 7 => mk execTrap
  | _ => none

/-- A long operation by its major opcode, bits [30:24] (R353); `next` is the word that follows, which REP and REPI look at (R374). -/
def decodeLong (w next : Word) : Option CoreMeaning :=
  let rri := fun (f : BitVec 4 → BitVec 4 → BitVec 16 → CoreMeaning) => some (f (fD w) (fA w) (fImm16 w))
  let mem := fun (f : BitVec 4 → BitVec 4 → BitVec 2 → BitVec 14 → CoreMeaning) => some (f (fD w) (fA w) (fMode w) (fOfs w))
  match (w.extractLsb' 24 7).toNat with
  | 0x01 => decodeRrr w
  | 0x02 => rri execAddImm
  | 0x03 => rri execAndImm
  | 0x04 => rri execOrImm
  | 0x05 => rri execXorImm
  | 0x06 => decodeShi w
  | 0x08 => some (execMovi (fD w) (w.extractLsb' 0 20))
  | 0x09 => rri execMovhi
  | 0x10 => mem execLdB
  | 0x11 => mem execLdBu
  | 0x12 => mem execLdH
  | 0x13 => mem execLdHu
  | 0x14 => mem execLdW
  | 0x15 => mem execStB
  | 0x16 => mem execStH
  | 0x17 => mem execStW
  | 0x18 => mem execLda
  | 0x19 => mem execSta
  | 0x1A => rri execAdda
  | 0x1B => mem execLea
  | 0x1C => some (execMov (fD w) (fA w) (fB w) (w.extractLsb' 0 12))
  | 0x20 => decodeMul w
  | 0x21 => decodeDiv w
  | 0x28 => rri execCbEq
  | 0x29 => rri execCbNe
  | 0x2A => rri execCbLt
  | 0x2B => rri execCbGe
  | 0x2C => rri execCbLtu
  | 0x2D => rri execCbGeu
  | 0x2E => decodeCbz w
  | 0x30 => some (execJ (fImm24 w))
  | 0x31 => some (execCall (fImm24 w))
  | 0x32 => rri execJa
  | 0x33 => rri execCalla
  | 0x34 => some (execRet (fImm24 w))
  | 0x35 => some (execRete (fImm24 w))
  | 0x36 => rri execPush
  | 0x37 => rri execPop
  | 0x38 => decodeSys w
  | 0x39 => some (execMfc (fD w) (w.extractLsb' 12 8) (w.extractLsb' 0 12))
  | 0x3A => some (execMtc (fD w) (w.extractLsb' 12 8) (w.extractLsb' 0 12))
  | 0x3C => some (execRep (w.extractLsb' 8 16) (fFunc w) next)
  | 0x3D => some (execRepi (w.extractLsb' 8 16) (fFunc w) next)
  | _ => none

/-- An instruction word of the control core (R351): the meaning of the row that it is, with its fields as they stand; `none` for a major
opcode, FUNC or COND that is undefined (R379). What its other fields leave undefined, the meaning itself finds. -/
def coreDecode (w next : Word) : Option CoreMeaning := if w.msb then some (execPairedWord (w.extractLsb' 0 31)) else decodeLong w next

/-- The word at the PC executes. One that cannot be fetched raises its fault, an undefined one illegal instruction (R379, R406). -/
def State.coreStep (s : State) : Host.Outcome State Fault Refusal :=
  match s.codeWord with
  | none => .next (s.coreRun {} .ok)
  | some w => match coreDecode w ((s.wordAt (s.core.pc.toNat + 4)).getD 0) with
    | some f => f s
    | none => .next (s.coreRun { legal := false } .ok)

/-- The core has something to do by itself: it runs, or it waits in WFI. With the clocks of the processing die stopped it does nothing (R576). -/
def State.coreAwake (s : State) : Bool := (s.core.st == 1 || s.core.st == 2) && !s.clk.shutdown

/-- One instruction boundary of the core (R406 to R408): the NMI, an interrupt, or the next word; in WFI the wake-up. -/
def State.coreTick (s : State) : Host.Outcome State Fault Refusal :=
  if s.nmiReady then execNmiEntry s
  else if s.irqReady then execInterruptEntry s
  else if s.core.st = 2 then execWfiWake s
  else s.coreStep

end Sys2Proof.Machine
end

