-- ==== Sys2Proof/Machine/JnlCmd.lean ====
section
/-! DEFINITION. Meanings of the journalled commands and of the journal's own events (R455 to R457, R520 to R530). Each command row submits its
descriptor and, with nothing before it in the queue, executes it. -/
namespace Sys2Proof.Machine

/-- START_OUTPUTS (R456). -/
def execStartOutputs (who : Requester) (intent : BitVec 64) (args : Vector Byte 48) (s : State) : Host.Outcome State Fault Refusal :=
  .next (s.command who 0x01 intent.toNat args.toList fun s q => s.doStart q)

/-- STOP_OUTPUTS (R456). -/
def execStopOutputs (who : Requester) (intent : BitVec 64) (args : Vector Byte 48) (s : State) : Host.Outcome State Fault Refusal :=
  .next (s.command who 0x02 intent.toNat args.toList fun s q => s.doStop q)

/-- SELECT_RECIPE (R30, R206). -/
def execSelectRecipe (who : Requester) (intent : BitVec 64) (args : Vector Byte 48) (s : State) : Host.Outcome State Fault Refusal :=
  .next (s.command who 0x03 intent.toNat args.toList fun s q => s.doSelect q)

/-- SET_MODE (R210). -/
def execSetMode (who : Requester) (intent : BitVec 64) (args : Vector Byte 48) (s : State) : Host.Outcome State Fault Refusal :=
  .next (s.command who 0x04 intent.toNat args.toList fun s q => s.doMode q)

/-- SWAP_CUSTOMER_PAGE (R259). -/
def execSwapCustomerPage (who : Requester) (intent : BitVec 64) (args : Vector Byte 48) (s : State) : Host.Outcome State Fault Refusal :=
  .next (s.command who 0x05 intent.toNat args.toList fun s q => s.doSwap q)

/-- CLEAR_FAULT (R179, R455). -/
def execClearFault (who : Requester) (intent : BitVec 64) (args : Vector Byte 48) (s : State) : Host.Outcome State Fault Refusal :=
  .next (s.command who 0x06 intent.toNat args.toList fun s q => s.doClear q)

/-- FREEZE_RECORD (R535). -/
def execFreezeRecord (who : Requester) (intent : BitVec 64) (args : Vector Byte 48) (s : State) : Host.Outcome State Fault Refusal :=
  .next (s.command who 0x07 intent.toNat args.toList fun s q => s.doFreeze q)

/-- RESTART_FROM_NVM (R485). -/
def execRestartFromNvm (who : Requester) (intent : BitVec 64) (args : Vector Byte 48) (s : State) : Host.Outcome State Fault Refusal :=
  .next (s.command who 0x08 intent.toNat args.toList fun s q => s.doRestart q)

/-- ATTEST (R516). -/
def execAttest (who : Requester) (intent : BitVec 64) (args : Vector Byte 48) (s : State) : Host.Outcome State Fault Refusal :=
  .next (s.command who 0x0A intent.toNat args.toList fun s q => s.attest q)

/-- CENSUS_NOW (R342). -/
def execCensusNow (who : Requester) (intent : BitVec 64) (args : Vector Byte 48) (s : State) : Host.Outcome State Fault Refusal :=
  .next (s.command who 0x0B intent.toNat args.toList fun s q => s.doCensus q)

/-- SET_MARKER_ENABLE (R287). -/
def execSetMarkerEnable (who : Requester) (intent : BitVec 64) (args : Vector Byte 48) (s : State) : Host.Outcome State Fault Refusal :=
  .next (s.command who 0x0C intent.toNat args.toList fun s q => s.doMarkers q)

/-- EPOCH_SWITCH (R343). -/
def execEpochSwitch (who : Requester) (intent : BitVec 64) (args : Vector Byte 48) (s : State) : Host.Outcome State Fault Refusal :=
  .next (s.command who 0x0D intent.toNat args.toList fun s q => s.doEpoch q)

/-- NVM_WRITE (R483, R484). -/
def execNvmWrite (who : Requester) (intent : BitVec 64) (args : Vector Byte 48) (env : NvmEnv) (s : State) :
    Host.Outcome State Fault Refusal :=
  .next (s.command who 0x09 intent.toNat args.toList fun s q => s.doNvm q env)

/-- OPEN_DEBUG (R511): the DEBUG token in SEC_BUF. -/
def execOpenDebug (who : Requester) (intent : BitVec 64) (args : Vector Byte 48) (s : State) : Host.Outcome State Fault Refusal :=
  .next (s.command who 0x0E intent.toNat args.toList fun s q => s.tokenCommand q .debug)

/-- LIFECYCLE_ADVANCE (R508): the life-cycle token in SEC_BUF. -/
def execLifecycleAdvance (who : Requester) (intent : BitVec 64) (args : Vector Byte 48) (s : State) :
    Host.Outcome State Fault Refusal :=
  .next (s.command who 0x0F intent.toNat args.toList fun s q => s.tokenCommand q .advance)

/-- FIRMWARE_COMMAND (R527): a command of code 0x80 + `code`. -/
def execFirmwareCommand (who : Requester) (code : BitVec 7) (intent : BitVec 64) (args : Vector Byte 48) (s : State) :
    Host.Outcome State Fault Refusal :=
  .next (s.command who (0x80 + code.toNat) intent.toNat args.toList fun s q => s.doFirmware q)

/-- COMMAND_EXECUTE (R526): the command at the head of the queue, with its state check made now. -/
def execCommandExecute (env : NvmEnv) (s : State) : Host.Outcome State Fault Refusal := .next (s.execHead env)

/-- FW_COMMAND_TIMEOUT (R527): 1 s after the hand-over. -/
def execFwCommandTimeout (s : State) : Host.Outcome State Fault Refusal :=
  match s.jnl.fw with
  | some (_, t) =>
    if t + 1000 * msTs ≤ s.ts then .next (((s.fwDone 3 0x15 0).orReg rJnlEvt 8).raise evJnlFwTimeout 0 0 0) else .next s
  | none => .next s

/-- JNL_BUFFER_RELEASE (R522): fabric buffers without a write for 1 s. -/
def execJnlBufferRelease (s : State) : Host.Outcome State Fault Refusal :=
  .next { s with jnl.fab := s.jnl.fab.filter fun b => decide (s.ts < b.2.last + 1000 * msTs) }

/-- UCIE_LINK_TIMEOUT (R15, R31): each die notices the loss of the other; the outputs are held safe, high impedance when the Lagg die is
lost, the endpoint is gone with a core rail of the processing die, and the loss is a FATAL event. -/
def execUcieLinkTimeout (cause : DieLoss) (s : State) : Host.Outcome State Fault Refusal :=
  if !s.sys.pdReleased ∨ !s.sys.dieLink then .next s
  else
    let s := (({ s with sys.dieLink := false, sys.laggLost := decide (cause = .lagg) } : State).outputsSafe).raise evSysDieLink 0 0 0
    match cause with
    | .lagg | .link => .next s
    | .rail => .next { s with pcie.linkUp := false, sec.host := none }

end Sys2Proof.Machine
end

