-- ==== Sys2Proof/Machine/MtxCmd.lean ====
section
/-! DEFINITION. Meanings of the commands of the scratchpad, mailbox, bus matrix, DMA and clock crossings (R417 to R438) and of the
FIRMWARE entry (R537). -/
namespace Sys2Proof.Machine

/-- SECURE_WINDOW_WIPE (R422): the wipe ordered ends. -/
def execSecureWindowWipe (s : State) : Host.Outcome State Fault Refusal := .next s.wipeDone

/-- Words of the scratchpad take wrong bits: a model input, as no command of the spec damages a word (DESIGN CHOICE, log 25). -/
def State.spmUpsets (s : State) (l : List (BitVec 19 × Bool)) : State :=
  { s with mtx.spmBad := l.foldl (fun m u => smPut (fun _ => 0) m (4 * u.1.toNat) (if u.2 then 2 else 1)) s.mtx.spmBad }

/-- The test goes on to the next line; at the wrap PASSES counts (R423). -/
def State.testNext (s : State) : State :=
  if s.mtx.testLine = 32767 then
    ({ s with mtx.testLine := 0 } : State).setRf rMtxSpmTest 15 0 (s.rf rMtxSpmTest 15 0 + 1)
  else { s with mtx.testLine := s.mtx.testLine + 1 }

/-- Line `l` failed its march (R423). -/
def State.lineFail (s : State) (l : Nat) : State :=
  (s.setReg rMtxSpmFail (w32 (2 ^ 31 + 64 * l))).raise evSpmTestFail 0 0 (64 * l)

/-- The test borrows its next line: the copy meets the check bits (R421, R423). -/
def State.borrowLine (s : State) : State :=
  let l := s.mtx.testLine
  let s := (s.spmCheck (64 * l) 64).2
  { s with mtx := { s.mtx with shadow := some (l, memGetBytes ramDefault s.mtx.spm (64 * l) 64), testAt := s.cclk } }

/-- The least CCLK cycles that the march of a borrowed line takes (R423): 10 operations on each of 4 rows, or 4 writes and the read that
finds a wrong value, 2^SHIFT cycles for each. -/
def State.marchCycles (s : State) (wrong : Bool) : Nat := (if wrong then 5 else 40) * 2 ^ s.rf rMtxSpmTest 27 24

/-- SPM_TEST_STEP (R423, R424): a step borrows a line, or ends the march of a borrowed one and restores it; `wrong`: a read found a wrong
value. -/
def execSpmTestStep (wrong : Bool) (upsets : List (BitVec 19 × Bool)) (s : State) : Host.Outcome State Fault Refusal := s.clocked fun s =>
  let s := (s.spmUpsets upsets).wipeDone
  if !s.rbit rMtxSpmTest 31 then .next s
  else match s.mtx.shadow with
    | none => .next s.borrowLine
    | some (l, _) =>
      if s.cclk < s.mtx.testAt + s.marchCycles wrong then .next s
      else .next ((s.lineBack.when wrong fun s => s.lineFail l).testNext)

/-- A host-port write of the mailbox lost to a core write of the same word in the same cycle (R425). -/
def State.mbxCollide (s : State) (w : Nat) : State :=
  let s := s.addSat rMtxMbxColl 27 12 1
  (s.setReg rMtxMbxColl (putBits (putBits (s.reg rMtxMbxColl) 31 31 1) 9 0 w)).raise evMbxCollide 0 0 w

/-- Bytes of `d` whose strobe is set, at address `a` of a memory. -/
def putStrobed (m : Memory) (a : Nat) (d : Word) (strb : Nat) : Memory :=
  (List.range 4).foldl (fun m i => if bitN strb i then smPut ramDefault m (a + i) ((d >>> (8 * i)).setWidth 8) else m) m

/-- A write through the host port of the mailbox: answered OK even when it is lost. -/
def State.mbxWrite (s : State) (w : Nat) (d : Word) (strb : Nat) (lost : Bool) : State :=
  (if lost then s.mbxCollide w else { s with mtx.mbox := putStrobed s.mtx.mbox (4 * w) d strb }).answer "OK" 0

/-- An access through that port, but for who may make it. -/
def State.mbxServe (s : State) (w : Nat) (data : Option Word) (strb : Nat) (collides : Bool) : State :=
  match data with
  | some d => s.mbxWrite w d strb collides
  | none => s.answer "OK" (w32 (leNat (memGetBytes ramDefault s.mtx.mbox (4 * w) 4)))

/-- An access of the host to the mailbox through BAR4 (R548, R549): a write needs its session. -/
def State.mbxHost (s : State) (w : Nat) (data : Option Word) (strb : Nat) (collides : Bool) : State :=
  if s.sys.st.code < 2 then s.inbUr data.isSome
  else if data.isNone then s.mbxServe w data strb collides
  else if s.sessionOpen 0x200 then (s.touch 0x200).mbxServe w data strb collides
  else s.gateDrop

/-- MAILBOX_ACCESS (R425, R548, R549): through the host port, by the host, a DMA channel or the Lagg bridge; `collides`: the core port
writes the same word in the same cycle. -/
def execMailboxAccess (who : Requester) (w : BitVec 10) (data : Option Word) (strb : BitVec 4) (collides : Bool) (s : State) :
    Host.Outcome State Fault Refusal :=
  match who with
  | .core => .next s
  | .fabric _ => .next ((s.mtxError 1 5 1 data.isSome (0x200000 + 4 * w.toNat)).answer "DECERR" 0)
  | .host => .next (if s.hostReach then s.mbxHost w.toNat data strb.toNat collides else s)
  | _ => .next (s.mbxServe w.toNat data strb.toNat collides)

/-- MATRIX_TIMEOUT (R429). -/
def execMatrixTimeout (m : Fin 7) (target : Fin 7) (write : Bool) (addr : Word) (s : State) : Host.Outcome State Fault Refusal :=
  .next ((s.mtxError 3 m target write addr.toNat).endedBy m target write addr.toNat)

/-- MATRIX_LOCK_BREAK (R429): of a locked sequence of the host or of the Lagg bridge. -/
def execMatrixLockBreak (bridge : Bool) (target : Fin 7) (write : Bool) (addr : Word) (s : State) : Host.Outcome State Fault Refusal :=
  let m := if bridge then 4 else 3
  .next ((s.mtxError 4 m target write addr.toNat).endedBy m target write addr.toNat)

/-- Bytes of the access that begins at `a` in a transfer of `k` bytes more: a word of the matrix, or what lies in one word of tile memory,
which is read or written whole (R166). -/
def State.dmaBeat (s : State) (a k : Nat) : Nat := match s.reach 2 a with
  | some (.tile _ o) => if o < 0x40000 then min k (16 - o % 16) else 4
  | _ => 4

/-- Read `k` bytes from `a` in at most `n` accesses; `none` once one is answered with an error. -/
def State.dmaRead : Nat → Nat → Nat → State → Option (List Byte) × State
  | 0, _, _, s => (some [], s)
  | n + 1, a, k, s =>
    if k = 0 then (some [], s)
    else match s.portRead 2 a (s.dmaBeat a k) with
      | (0, d, t) =>
        match State.dmaRead n (a + s.dmaBeat a k) (k - s.dmaBeat a k) t with
        | (some r, t) => (some (d ++ r), t)
        | (none, t) => (none, t)
      | (_, _, t) => (none, t)

/-- Write the bytes `d` at `a` in at most `n` accesses; false once one is answered with an error. Those before it stand. -/
def State.dmaWrite : Nat → Nat → List Byte → State → Bool × State
  | 0, _, _, s => (true, s)
  | n + 1, a, d, s =>
    if d.isEmpty then (true, s)
    else match s.portWrite 2 a (bslice d 0 (s.dmaBeat a d.length)) with
      | (0, t) => State.dmaWrite n (a + s.dmaBeat a d.length) (d.drop (s.dmaBeat a d.length)) t
      | (_, t) => (false, t)

/-- The channel whose turn it is (R433): the first busy one after the channel served last. One that still waits for the responses of an ABORT
has no turn (R432). -/
def State.dmaNext (s : State) : Option Nat :=
  ((List.range 4).map fun i => (s.mtx.dmaLast + 1 + i) % 4).find? fun c => (s.dmaAt c).busy && !s.owes (7 + c)

/-- DMA_BURST_DONE (R433): channel `c` moves its next burst, when it is its turn; a burst from or to a tile's memory in a cycle that is free
for it (R164). An address past 2^32 wraps. -/
def execDmaBurstDone (c : Fin 4) (s : State) : Host.Outcome State Fault Refusal := s.clocked fun s =>
  let d := s.dmaAt c
  let n := d.burst
  if s.dmaNext ≠ some c.val ∨ s.tileWaits 2 d.src ∨ s.tileWaits 2 d.dst then .next s
  else
    let s := (({ s with mtx.dmaLast := c.val } : State).tileTakes 2 d.src n false).tileTakes 2 d.dst n true
    let upd := fun (s : State) (f : DmaCh → DmaCh) => { s with mtx.dma := updV s.mtx.dma c f }
    match State.dmaRead (n / 4) d.src n s with
    | (none, s) => .next (upd s fun d => { d with busy := false, err := true })
    | (some bs, s) =>
      match State.dmaWrite (n / 4) d.dst bs s with
      | (false, s) => .next (upd s fun d => { d with busy := false, err := true })
      | (true, s) => .next (upd s fun d =>
          { d with src := (d.src + n) % 2 ^ 32, dst := (d.dst + n) % 2 ^ 32, left := d.left - n, busy := decide (n < d.left),
                   done := d.done || decide (d.left ≤ n) })

/-- CDC_TRANSFER_END (R435, R436): the transfer of crosser `x` ends, `pulses` pulses having come to its source meanwhile. One of them
starts a further transfer; more than one are merged. `dropped`: the far side was in reset (DESIGN CHOICE, log 110). -/
def execCdcTransferEnd (x : BitVec 8) (pulses : BitVec 8) (dropped : Bool) (s : State) : Host.Outcome State Fault Refusal := s.clocked fun s =>
  let s := s.when (decide (1 < pulses.toNat)) fun s => s.setRf rMtxCdc 31 31 1
  let s := s.when dropped fun s => s.addSat rMtxCdc 15 0 1
  let rest := s.mtx.cdc.filter fun y => y != x.toNat
  .next { s with mtx.cdc := if pulses = 0 then rest else x.toNat :: rest }

/-- FIRMWARE_PEAT_COMMIT (R537): privileged firmware has written words 0 to 2 and writes word 3. Without a running privileged core
nothing is written. -/
def execFirmwarePeatCommit (w0 w1 w2 w3 : Word) (s : State) : Host.Outcome State Fault Refusal := s.clocked fun s =>
  if s.core.st ≠ 1 ∨ !bitN s.core.status.toNat 0 then .next s
  else
    let wr := fun (s : State) (i : Nat) (w : Word) => (s.portWrite 1 (0x30000100 + 4 * i) (leBytes 4 w.toNat)).2
    let s := wr (wr (wr s 0 w0) 1 w1) 2 w2
    let (code, s) := s.portWrite 1 0x3000010C (leBytes 4 w3.toNat)
    .next (s.answer (if code = 0 then "OK" else "SLVERR") 0)

end Sys2Proof.Machine
end

