-- ==== Sys2Proof/Machine/DebugGate.lean ====
section
/-! DEFINITION. The control core through the debug gate (R510, R511): halt, step, and register, CSR and memory access, open with bit 0 of the
scope. That they come as forms of CONFIGURATION_REQUEST, and the state a step leaves, are the model's own (DESIGN CHOICE, log 115). -/
namespace Sys2Proof.Machine

/-- A D register, 0 to 15, or an A register, 16 to 23; 24 to 31 name none and read 0. -/
def State.debugReg (s : State) (n : Fin 32) : Word :=
  if n.val < 16 then s.dr (BitVec.ofNat 4 n.val) else if n.val < 24 then s.ar (BitVec.ofNat 4 (n.val - 16)) else 0
def State.debugSetReg (s : State) (n : Fin 32) (w : Word) : State :=
  if n.val < 16 then s.setDr (BitVec.ofNat 4 n.val) w else if n.val < 24 then s.setAr (BitVec.ofNat 4 (n.val - 16)) w else s

/-- One step of a halted core: one instruction boundary, after which it is halted again but for a lockup. -/
def State.debugStep (s : State) : Host.Outcome State Fault Refusal :=
  if s.core.st ≠ 4 then .next s
  else match ({ s with core.st := 1 } : State).coreTick with
    | .next t => .next (if t.core.st = 3 then t else { t with core.st := 4 })
    | o => o

/-- A request through the debug gate. A memory access is one of the core's data port; the core in reset or in lockup is not halted. -/
def State.debugServe (s : State) (r : DebugReq) : Host.Outcome State Fault Refusal :=
  match r with
  | .halt => .next (if s.core.st = 1 ∨ s.core.st = 2 then { s with core.st := 4 } else s)
  | .step => s.debugStep
  | .readReg n => .next (s.answer "OK" (s.debugReg n))
  | .writeReg n w => .next (s.debugSetReg n w)
  | .readCsr n => .next (s.answer "OK" ((s.csr n.toNat).getD 0))
  | .writeCsr n w => .next (if csrWritable n.toNat then s.setCsr n.toNat w else s)
  | .readMem a => .next (s.masterAccess 1 a.toNat none)
  | .writeMem a d => .next (s.masterAccess 1 a.toNat (some d))

end Sys2Proof.Machine
end

