-- ==== Sys2Proof/Machine/PcieCmd.lean ====
section
/-! DEFINITION. Meanings of the commands of the PCIe endpoint (R543 to R562, R564). -/
namespace Sys2Proof.Machine

/-- The condition of an MSI-X vector (R561). -/
def State.vecCond (s : State) (v : Nat) : Bool :=
  let held := fun (c : Nat) => (s.slotAt (2 * c)).valid || (s.slotAt (2 * c + 1)).valid
  match v with
  | 0 => held 3
  | 1 => held 2
  | 2 => held 1
  | 3 => held 0
  | 4 => s.res.recR.due && !s.rbit rResCtrl 1
  | 5 => s.res.clipR.due && !s.rbit rResCtrl 2
  | 6 => s.reg rMtxMbxDbOut ≠ 0
  | 7 => s.rbit rMtxMbxColl 31
  | 8 => s.reg rJnlEvt ≠ 0
  | 9 => s.psq.uevt ≠ []
  | 10 => s.reg rPcieEvt ≠ 0
  | 11 => s.reg rSecEvt ≠ 0
  | 12 => s.reg rCfgEvt ≠ 0
  | 13 => s.rbit rPsqArrFirst 0
  | 14 => s.reg rPsqFrmEvt ≠ 0
  | 15 => s.reg rFabEvt ≠ 0 || (List.range 4).any fun p => s.reg (rFabPEvt p) ≠ 0
  | 16 => s.reg rFabCenEvt ≠ 0
  | 17 => s.reg rResEvt ≠ 0
  | 18 => s.reg rMtxEvt ≠ 0
  | 19 => (List.range 8).any fun p => s.reg (rGdcPEvt p) ≠ 0
  | 20 => (List.range 32).any fun n => s.reg (rLcuSEvt n) ≠ 0
  | 21 => (List.range 272).any fun t => (s.vcolOf (t / 16)).isSome && s.reg (rTileEvt t) ≠ 0
  | 22 => s.reg rPsqEvt ≠ 0
  | n => decide (32 ≤ n) && s.reg (rIglLEvt (n - 32)) ≠ 0

def setBit64 (w : BitVec 64) (i : Nat) (b : Bool) : BitVec 64 :=
  if b then w ||| (1#64 <<< i) else w &&& ~~~(1#64 <<< i)

/-- The pending bit of vector `v` follows its condition (R562): set when it becomes true, cleared when it ends before a message has left; while
the vector is masked, the bit is the condition. A condition that fell and rose again since it was last seen is new when `again`. -/
def State.vecSee (s : State) (v : Nat) (again : Bool) : State :=
  let now := s.vecCond v
  let rise := now && (!s.pcie.cond.getLsbD v || again || s.pcie.mask.getLsbD v || s.pcie.fnMask)
  let p := if rise then setBit64 s.pcie.pend v true else if now then s.pcie.pend else setBit64 s.pcie.pend v false
  { s with pcie := { s.pcie with pend := p, cond := setBit64 s.pcie.cond v now } }

/-- A message leaves (R562): not while MSI-X or bus mastering is disabled, in D3hot, without a link, or while the vector or the function is masked. The
interrupt of a ring is then no longer due (R561). -/
def State.vecSend (s : State) (v : Nat) : State :=
  if s.pcie.pend.getLsbD v && s.pcie.msixEn && s.busMaster && !s.pcie.mask.getLsbD v && !s.pcie.fnMask then
    let s := ({ s with pcie.pend := setBit64 s.pcie.pend v false } : State).send (.msix v)
    if v = 4 then { s with res.recR.due := false, pcie.cond := setBit64 s.pcie.cond v false }
    else if v = 5 then { s with res.clipR.due := false, pcie.cond := setBit64 s.pcie.cond v false }
    else s
  else s

/-- MSIX_SEND (R560 to R562): vector `v` becomes pending, and its message leaves when nothing holds it back. -/
def execMsixSend (v : Fin 64) (again : Bool) (s : State) : Host.Outcome State Fault Refusal := .next ((s.vecSee v again).vecSend v)

/-- Every vector whose message was held back is tried again. -/
def State.vecAll (s : State) : State := s.each 64 fun v s => (s.vecSee v false).vecSend v

/-- Vector `v` is masked or unmasked (R562). -/
def State.msixMask (s : State) (v : Nat) (on : Bool) : State := ({ s with pcie.mask := setBit64 s.pcie.mask v on } : State).vecAll.answer "OK" 0

/-- Word `i` of the MSI-X table, four to a vector, as it reads: the last of them holds the mask bit. -/
def State.msixWord (s : State) (i : Nat) : Word :=
  if i % 4 = 3 then w32 (b2n (s.pcie.mask.getLsbD (i / 4))) else smGet (fun _ => 0) s.pcie.table i

/-- Word `i` of the MSI-X table is written. -/
def State.msixPut (s : State) (i : Nat) (w : Word) : State :=
  if i % 4 = 3 then s.msixMask (i / 4) (w.getLsbD 0)
  else ({ s with pcie.table := smPut (fun _ => 0) s.pcie.table i w } : State).answer "OK" 0

/-- A word of the pending bit array is read (R562). -/
def State.pbaRead (s : State) (high : Bool) : State :=
  let s := s.each 64 fun v s => s.vecSee v false
  s.answer "OK" (if high then s.pcie.pend.extractLsb' 32 32 else s.pcie.pend.extractLsb' 0 32)

/-- The port and the byte of it behind byte `x` of the GDDR7 aperture (R548, R549); `none`: Unsupported Request. -/
def State.gwin (s : State) (x k : Nat) : Option (Nat × Nat) :=
  let p := s.rf rPcieGwinCtrl 2 0
  let a := s.reg64 rPcieGwinBaseLo + x
  if s.rbit rPcieGwinCtrl 31 ∧ (s.gdcAt p).st = 2 ∧ a + k ≤ s.gdcBytes p then some (p, a) else none

/-- A slave error on an inbound access to target `t` (R429, R556). The aperture has no address in the map of R417, so the one recorded for
it is free (DESIGN CHOICE, log 120). -/
def State.inbSlave (s : State) (t : Nat) (write : Bool) (a : Nat) : State :=
  (if t = 2 then (s.tick 1).mtxError 2 3 2 write (s.freeNat 32) else s.mtxError 2 3 t write a).inbCa write

/-- The part of BAR4 that leads to the secure window, in a state that reaches the scratchpad: the matrix answers with a decode error, the
endpoint with UR (R422, R429, R548). -/
def State.bar4Secure (s : State) (o : Nat) : Bool := decide (0x3C0000 ≤ o) && decide (o < 0x400000) && decide (2 ≤ s.sys.st.code)

/-- An offset of BAR4 that is answered with UR (R548); in the secure window after a decode error of the matrix (R422, R429). -/
def State.bar4Ur (s : State) (o : Nat) (write posted : Bool) : State :=
  (if s.bar4Secure o then s.mtxError 1 3 0 write (o - 0x200000) else s).inbUr posted

/-- A read of the word at byte `o` of BAR4 (R548, R549). -/
def State.bar4Read (s : State) (o : Nat) : State :=
  if o < 0x1000 then s.answer "OK" (if o < 16 then s.viewReg .host (rPcieDbRecCi + o) else 0)
  else if 0x2000 ≤ o ∧ o < 0x2400 then s.answer "OK" (s.msixWord ((o - 0x2000) / 4))
  else if 0x3000 ≤ o ∧ o < 0x3008 then s.pbaRead (decide (0x3004 ≤ o))
  else if 0x10000 ≤ o ∧ o < 0x11000 then s.mbxHost ((o - 0x10000) / 4) none 0 false
  else if 0x200000 ≤ o ∧ o < 0x3C0000 ∧ 2 ≤ s.sys.st.code then
    match s.spmRead (o - 0x200000) 4 with
    | (some d, s) => s.answer "OK" (w32 (leNat d))
    | (none, s) => s.inbSlave 0 false (o - 0x200000)
  else if h : 0x4000000 ≤ o ∧ o < 0xC800000 then
    s.tileHost ⟨⟨(o - 0x4000000) / 0x80000, by omega⟩, .clean⟩ ((o - 0x4000000) % 0x80000) none 4
  else if 0x10000000 ≤ o then
    match s.gwin (o - 0x10000000) 4 with
    | none => s.inbUr false
    | some (p, a) => match s.gddrRead p a 4 with
      | some d => s.answer "OK" (w32 (leNat d))
      | none => s.inbSlave 2 false 0
  else s.bar4Ur o false false

/-- A write of the host that needs its session (R507, R549). -/
def State.gated (s : State) (f : State → State) : State := if s.sessionOpen 0x200 then f (s.touch 0x200) else s.gateDrop

/-- `w` with the bytes `d` in place of its own from byte `i` on. -/
def mergeWord (w : Word) (i : Nat) (d : List Byte) : Word :=
  let b := leBytes 4 w.toNat
  w32 (leNat (b.take i ++ d ++ b.drop (i + d.length)))

/-- A write of the bytes `d` within one word, from byte `o` of BAR4 (R548, R549, R559). A part of a doorbell register is not written (R430). -/
def State.bar4Write (s : State) (o : Nat) (d : List Byte) : State :=
  let w := w32 (leNat d)
  if o < 0x1000 then
    if d.length ≠ 4 then (s.orReg rPcieEvt 8).inbSlave 3 true (0x40081000 + o)
    else if o = 0 then (s.recCiWrite w.toNat).answer "OK" 0
    else if o = 4 then (s.clipCiWrite w.toNat).answer "OK" 0
    else s.answer "OK" 0
  else if 0x2000 ≤ o ∧ o < 0x2400 then s.msixPut ((o - 0x2000) / 4) (mergeWord (s.msixWord ((o - 0x2000) / 4)) (o % 4) d)
  else if 0x3000 ≤ o ∧ o < 0x3008 then s.answer "OK" 0
  else if 0x10000 ≤ o ∧ o < 0x11000 then
    s.mbxHost ((o - 0x10000) / 4) (some (mergeWord 0 (o % 4) d)) ((2 ^ d.length - 1) * 2 ^ (o % 4)) false
  else if 0x200000 ≤ o ∧ o < 0x3C0000 ∧ 2 ≤ s.sys.st.code then s.gated fun s => (s.spmWrite (o - 0x200000) d).answer "OK" 0
  else if h : 0x4000000 ≤ o ∧ o < 0xC800000 then
    s.tileHost ⟨⟨(o - 0x4000000) / 0x80000, by omega⟩, .clean⟩ ((o - 0x4000000) % 0x80000) (some d) 0
  else if 0x10000000 ≤ o then
    match s.gwin (o - 0x10000000) d.length with
    | none => s.inbUr true
    | some (p, a) => s.gated fun s => match s.gddrWrite p a d with
      | some s => s.answer "OK" 0
      | none => s.inbSlave 2 true 0
  else s.bar4Ur o true true

/-- A configuration request that is served. -/
def State.cfgServe (s : State) (r : CfgReq) : State :=
  match r with
  | .msixEnable on => ({ s with pcie.msixEn := on } : State).vecAll.answer "OK" 0
  | .mask v on => s.msixMask v on
  | .table v i w => s.msixPut (4 * v.val + i.val) w
  | .busMaster on => ({ s with pcie.bme := on } : State).vecAll.answer "OK" 0
  | .d3hot on => ({ s with pcie.d3hot := on } : State).vecAll.answer "OK" 0
  | .write off w => (s.cfgPut (off.toNat / 4 * 4) w).vecAll.answer "OK" 0
  | .read off => s.answer "OK" (s.cfgWord (off.toNat / 4 * 4))
  | .readPba high => s.pbaRead high
  | .bar4Read off => if s.owes 3 then s else s.bar4Read off.toNat
  | .bar4Write off d => if s.owes 3 then s else s.bar4Write off.toNat d
  | .laggRead a => s.masterAccess 4 a.toNat none
  | .laggWrite a d => s.masterAccess 4 a.toNat (some d)
  | .debug _ => s

/-- An access to BAR4, which no device state holds back; the other requests reach the configuration space. -/
def cfgBar4 : CfgReq → Bool
  | .mask _ _ | .table _ _ _ | .readPba _ | .bar4Read _ | .bar4Write _ _ => true
  | _ => false

/-- An access of the Lagg bridge or through the debug gate, which needs no link. -/
def cfgInner : CfgReq → Bool
  | .laggRead _ | .laggWrite _ _ | .debug _ => true
  | _ => false

/-- CONFIGURATION_REQUEST (R543 to R549, R562): from power-on until the device reaches LOAD a configuration request is answered with
Configuration Request Retry Status; at a later BOOT the configuration space stands. The debug gate answers while it is open for the core (R510,
R511). -/
def execConfigurationRequest (r : CfgReq) (s : State) : Host.Outcome State Fault Refusal :=
  if let .debug d := r then (if s.debugGate 0 then s.debugServe d else .next s)
  else if cfgInner r then .next (s.cfgServe r)
  else if !s.pcie.linkUp then .next s
  else if s.pcie.crs ∧ !cfgBar4 r then .next (s.answer "CRS" 0)
  else .next (s.cfgServe r)

/-- PERST_N_RELEASE (R545): PERST_N rises; the link trains to this speed and width once the processing die has been released. -/
def execPerstNRelease (speed : Fin 6) (width : Fin 9) (s : State) : Host.Outcome State Fault Refusal :=
  .next ({ s with pcie.perst := false, pcie.train := (speed.val, width.val) } : State).linkTrain

/-- The endpoint is reset by cause 1 PERST_N, 2 hot reset, 3 link down, 4 FLR, with `n` inbound transactions open (R432, R436, R546). An FLR
leaves the link itself up, and PCIE_STATUS at its reset value. -/
def State.endpointReset (s : State) (cause n : Nat) : State :=
  let up := decide (cause = 4) && s.pcie.linkUp
  let s := { s with pcie := { Pcie.init with perst := s.pcie.perst || decide (cause = 1), train := s.pcie.train, crs := s.pcie.crs, flr := up, linkUp := up,
                                             speed := if up then s.pcie.speed else 0, width := if up then s.pcie.width else 0 } }
  let s := ((s.setReg rPcieGwinCtrl 0).setReg rPcieGwinBaseLo 0).setReg rPcieGwinBaseHi 0
  let s := (s.masterReset 3 n).crossDrop.closeSession 0x200
  let s := { s with jnl.host := { s.jnl.host with words := Vector.replicate 16 0 } }
  let s := s.addSat rPcieRst 31 16 1
  (s.setRf rPcieRst 3 0 cause).orReg rPcieEvt 0x20

/-- ENDPOINT_RESET (R546). After a hot reset or a link down the link trains again when `link` gives what it comes up with. -/
def execEndpointReset (cause : Fin 4) (n : Fin 17) (link : Option (Fin 6 × Fin 9)) (s : State) : Host.Outcome State Fault Refusal :=
  let s := s.endpointReset (cause.val + 1) n
  match cause.val, link with
  | 1, some l | 2, some l => .next ({ s with pcie.train := (l.1.val, l.2.val) } : State).linkTrain
  | _, _ => .next s

/-- OUTBOUND_CPL_TIMEOUT (R564): an outbound read or non-posted write of master `m` has no completion within CPL_TO, or, `answered`, one of UR
or CA, which is counted in the other half of PCIE_OUT_ERR. -/
def execOutboundCplTimeout (m : Fin 7) (e : OutEnd) (addr : Word) (s : State) : Host.Outcome State Fault Refusal :=
  let s := if e.answered then s.addSat rPcieOutErr 15 0 1 else (s.addSat rPcieOutErr 31 16 1).orReg rPcieEvt 2
  .next ((s.mtxError 2 m 4 e.write addr.toNat).endedBy m 4 e.write addr.toNat)

/-- What an AtomicOp writes, if it writes (R557). -/
def atResult (op : AtOp) (k : Nat) (old v : Nat) : Option Nat :=
  match op with
  | .fetchAdd => some ((old + v) % 2 ^ (8 * k))
  | .swap => some v
  | .cas c => if old = c.toNat % 2 ^ (8 * k) then some v else none

/-- The completion of an AtomicOp: the old value as read. -/
def State.atomicAnswer (s : State) (old : Nat) : State := (s.send (.resp "host" "OK" old)).answer "OK" (w32 old)

/-- An AtomicOp on the mailbox at byte `a`. A word that the core port writes in the same cycle keeps the core's value (R425). -/
def State.atomicMbx (s : State) (a k : Nat) (op : AtOp) (v : Nat) (lo hi : Bool) : State :=
  let old := leNat (memGetBytes ramDefault s.mtx.mbox a k)
  match atResult op k old v with
  | none => s.atomicAnswer old
  | some r =>
    let put := fun (s : State) (i : Nat) (lost : Bool) => if lost then s.mbxCollide (a / 4 + i)
      else { s with mtx.mbox := memPutBytes ramDefault s.mtx.mbox (a + 4 * i) (bslice (leBytes k r) (4 * i) 4) }
    let s := put s 0 lo
    (if k = 8 then put s 1 hi else s).atomicAnswer old

/-- An AtomicOp on the scratchpad. -/
def State.atomicSpm (s : State) (a k : Nat) (op : AtOp) (v : Nat) : State :=
  match s.spmRead a k with
  | (none, s) => (s.mtxError 2 3 0 false a).inbCa false
  | (some d, s) =>
    match atResult op k (leNat d) v with
    | none => s.atomicAnswer (leNat d)
    | some r =>
      let b := leBytes k r
      let s := s.spmWrite a (b.take 4)
      (if k = 8 then s.spmWrite (a + 4) (b.drop 4) else s).atomicAnswer (leNat d)

/-- ATOMIC_OP (R548, R549, R556, R557) at an offset of BAR4, of 4 or 8 bytes at a multiple of its size. Without the host session nothing is
written, and the old value answers (DEDUCED, log 27). `lo`, `hi`: the core port writes the first, the second word in the same cycle. -/
def execAtomicOp (off : BitVec 29) (wide : Bool) (op : AtOp) (v : BitVec 64) (lo hi : Bool) (s : State) : Host.Outcome State Fault Refusal :=
  let a := off.toNat
  let k := if wide then 8 else 4
  let x := v.toNat % 2 ^ (8 * k)
  let open_ := s.sessionOpen 0x200
  if !s.hostReach then .next s
  else if s.sys.st.code < 2 ∨ a % k ≠ 0 then .next (s.inbUr false)
  else if 0x10000 ≤ a ∧ a < 0x11000 then
    let a := a - 0x10000
    if open_ then .next ((s.touch 0x200).atomicMbx a k op x lo hi)
    else .next (s.gateDrop.atomicAnswer (leNat (memGetBytes ramDefault s.mtx.mbox a k)))
  else if 0x200000 ≤ a ∧ a < 0x3C0000 then
    let a := a - 0x200000
    if open_ then .next ((s.touch 0x200).atomicSpm a k op x)
    else
      match s.gateDrop.spmRead a k with
      | (some d, s) => .next (s.atomicAnswer (leNat d))
      | (none, s) => .next ((s.mtxError 2 3 0 false a).inbCa false)
  else .next (s.bar4Ur off.toNat false false)

end Sys2Proof.Machine
end

