-- ==== Sys2Proof/Machine/SecCmd.lean ====
section
/-! DEFINITION. Meanings of the security events that are no register accesses (R494 to R515). -/
namespace Sys2Proof.Machine

/-- SEC_CLAIM_TIMEOUT (R501): 1 s after the holder's last write. -/
def execSecClaimTimeout (s : State) : Host.Outcome State Fault Refusal :=
  match s.sec.claim with
  | some c => if c.last + 1000 * msTs ≤ s.ts then .next { s with sec.claim := none } else .next s
  | none => .next s

/-- SESSION_TIMEOUT (R506): every session without an applied P-view write for SESS_TO minutes closes. -/
def execSessionTimeout (s : State) : Host.Outcome State Fault Refusal :=
  let keep := fun (x : Session) => decide (s.ts < x.last + s.rf rSecSess 7 0 * 60000 * msTs)
  .next { s with sec.host := s.sec.host.filter keep, sec.fabs := s.sec.fabs.filter keep }

/-- TAMPER_DETECT (R512 to R515): the sensor's code. Code 0 names no sensor, and an unpowered device senses nothing. -/
def execTamperDetect (code : Fin 10) (s : State) : Host.Outcome State Fault Refusal :=
  if code.val = 0 ∨ !s.sys.powered then .next s else .next (s.tamper code)

/-- ZEROISE_SCRUB_DONE (R514). -/
def execZeroiseScrubDone (s : State) : Host.Outcome State Fault Refusal :=
  if s.sec.pendMark then .next s.scrubEnd else .next s

/-- NOISE_SAMPLE (R494, R495): whether the sample passes the continuous tests. -/
def execNoiseSample (ok : Bool) (s : State) : Host.Outcome State Fault Refusal :=
  if ok ∨ s.sec.entropyFail then .next s else .next s.entropyFails

/-- RANDOM_READ (R501): 32 fresh bits, or a slave error. -/
def execRandomRead (s : State) : Host.Outcome State Fault Refusal :=
  match s.randomRead with
  | (some v, s) => .next { s with rdData := w32 v, rdResp := "OK" }
  | (none, s) => .next { s with rdResp := "SLVERR" }

/-- ENV_CONDITION_END (R515): BOOT may again release the processing die. -/
def execEnvConditionEnd (s : State) : Host.Outcome State Fault Refusal :=
  .next ({ s with sec.env := false } : State).bootGo

end Sys2Proof.Machine
end

