-- ==== Sys2Proof/Machine/Dispatch.lean ====
section
/-! DEFINITION. One arm per command: a direct call of its meaning, or a rejection by name. -/
namespace Sys2Proof.Machine

/-- The effect of a command on everything but the queue. -/
def exec (i : Instr) (s : State) : Host.Outcome State Fault Refusal :=
  match i with
  | .powerOn p => Sys2Proof.Machine.execPowerOn p s
  | .resetNAssert ns => Sys2Proof.Machine.execResetNAssert ns s
  | .resetNRelease => Sys2Proof.Machine.execResetNRelease s
  | .bootSelftestDone fail => Sys2Proof.Machine.execBootSelftestDone fail s
  | .imageVerifyDone => Sys2Proof.Machine.execImageVerifyDone s
  | .loadSectionDone => Sys2Proof.Machine.execLoadSectionDone s
  | .loadDone => Sys2Proof.Machine.execLoadDone s
  | .flashReadTimeout => Sys2Proof.Machine.execFlashReadTimeout s
  | .trainRereadDone => Sys2Proof.Machine.execTrainRereadDone s
  | .trainEnd => Sys2Proof.Machine.execTrainEnd s
  | .startOutputs who intent args => Sys2Proof.Machine.execStartOutputs who intent args s
  | .stopOutputs who intent args => Sys2Proof.Machine.execStopOutputs who intent args s
  | .selectRecipe who intent args => Sys2Proof.Machine.execSelectRecipe who intent args s
  | .setMode who intent args => Sys2Proof.Machine.execSetMode who intent args s
  | .swapCustomerPage who intent args => Sys2Proof.Machine.execSwapCustomerPage who intent args s
  | .clearFault who intent args => Sys2Proof.Machine.execClearFault who intent args s
  | .freezeRecord who intent args => Sys2Proof.Machine.execFreezeRecord who intent args s
  | .restartFromNvm who intent args => Sys2Proof.Machine.execRestartFromNvm who intent args s
  | .nvmWrite who intent args env => Sys2Proof.Machine.execNvmWrite who intent args env s
  | .attest who intent args => Sys2Proof.Machine.execAttest who intent args s
  | .censusNow who intent args => Sys2Proof.Machine.execCensusNow who intent args s
  | .setMarkerEnable who intent args => Sys2Proof.Machine.execSetMarkerEnable who intent args s
  | .epochSwitch who intent args => Sys2Proof.Machine.execEpochSwitch who intent args s
  | .openDebug who intent args => Sys2Proof.Machine.execOpenDebug who intent args s
  | .lifecycleAdvance who intent args => Sys2Proof.Machine.execLifecycleAdvance who intent args s
  | .firmwareCommand who code intent args => Sys2Proof.Machine.execFirmwareCommand who code intent args s
  | .commandExecute env => Sys2Proof.Machine.execCommandExecute env s
  | .jnlFwDone who view ocode ostat => Sys2Proof.Machine.execJnlFwDone who view ocode ostat s
  | .fwCommandTimeout => Sys2Proof.Machine.execFwCommandTimeout s
  | .jnlBufferRelease => Sys2Proof.Machine.execJnlBufferRelease s
  | .ucieLinkTimeout cause => Sys2Proof.Machine.execUcieLinkTimeout cause s
  | .outputEventArrive => Sys2Proof.Machine.execOutputEventArrive s
  | .outputCancelArrive => Sys2Proof.Machine.execOutputCancelArrive s
  | .outputEventFire => Sys2Proof.Machine.execOutputEventFire s
  | .trgPulseEnd ball => Sys2Proof.Machine.execTrgPulseEnd ball s
  | .markerPulseEnd n => Sys2Proof.Machine.execMarkerPulseEnd n s
  | .encoderEdge n a b stamp => Sys2Proof.Machine.execEncoderEdge n a b stamp s
  | .zEdge n level stamp => Sys2Proof.Machine.execZEdge n level stamp s
  | .encRxFault n p => Sys2Proof.Machine.execEncRxFault n p s
  | .encRxFaultClear n p => Sys2Proof.Machine.execEncRxFaultClear n p s
  | .posCheckCompare d => Sys2Proof.Machine.execPosCheckCompare d s
  | .edgeReportSend n => Sys2Proof.Machine.execEdgeReportSend n s
  | .edgeReportReceive => Sys2Proof.Machine.execEdgeReportReceive s
  | .motionCreepTimeout d => Sys2Proof.Machine.execMotionCreepTimeout d s
  | .motionStopTimeout d => Sys2Proof.Machine.execMotionStopTimeout d s
  | .triggerCommit g => Sys2Proof.Machine.execTriggerCommit g s
  | .coastCoordUpdate d => Sys2Proof.Machine.execCoastCoordUpdate d s
  | .coastLostTimeout d => Sys2Proof.Machine.execCoastLostTimeout d s
  | .trackSampleReceive => Sys2Proof.Machine.execTrackSampleReceive s
  | .gpiEdge b level stamp => Sys2Proof.Machine.execGpiEdge b level stamp s
  | .laneBcLockDone n => Sys2Proof.Machine.execLaneBcLockDone n s
  | .laneEqualiseDone n => Sys2Proof.Machine.execLaneEqualiseDone n s
  | .laneBlockLockDone n => Sys2Proof.Machine.execLaneBlockLockDone n s
  | .capWordReceive n w => Sys2Proof.Machine.execCapWordReceive n w s
  | .trainMessageRepeat n => Sys2Proof.Machine.execTrainMessageRepeat n s
  | .laneTrainStepTimeout n => Sys2Proof.Machine.execLaneTrainStepTimeout n s
  | .laneSyncLoss n => Sys2Proof.Machine.execLaneSyncLoss n s
  | .laneIdleTimeout n => Sys2Proof.Machine.execLaneIdleTimeout n s
  | .laneRetrainWrite who view n w => Sys2Proof.Machine.execLaneRetrainWrite who view n w s
  | .kslIdleWord n w => Sys2Proof.Machine.execKslIdleWord n w s
  | .kslStrayWord n => Sys2Proof.Machine.execKslStrayWord n s
  | .kslBlockReceive n before w0 w1 payload term start => Sys2Proof.Machine.execKslBlockReceive n before w0 w1 payload term start s
  | .kslResendTimeout n => Sys2Proof.Machine.execKslResendTimeout n s
  | .kslAckTimer n => Sys2Proof.Machine.execKslAckTimer n s
  | .kslAckRepeat n => Sys2Proof.Machine.execKslAckRepeat n s
  | .lineTimeout n => Sys2Proof.Machine.execLineTimeout n s
  | .cxpPacketReceive n p => Sys2Proof.Machine.execCxpPacketReceive n p s
  | .mgSend who view n len => Sys2Proof.Machine.execMgSend who view n len s
  | .mgTxWrite who view n w => Sys2Proof.Machine.execMgTxWrite who view n w s
  | .mgRxRead who view n => Sys2Proof.Machine.execMgRxRead who view n s
  | .mgRxDone who view n len => Sys2Proof.Machine.execMgRxDone who view n len s
  | .sliceSlotWrite n => Sys2Proof.Machine.execSliceSlotWrite n s
  | .edgeStripReceive => Sys2Proof.Machine.execEdgeStripReceive s
  | .edgeStripTimeout n => Sys2Proof.Machine.execEdgeStripTimeout n s
  | .tableBankLoadDone n => Sys2Proof.Machine.execTableBankLoadDone n s
  | .moveWordExecute t u => Sys2Proof.Machine.execMoveWordExecute t u s
  | .tileBudgetEnd t => Sys2Proof.Machine.execTileBudgetEnd t s
  | .outqDrain t => Sys2Proof.Machine.execOutqDrain t s
  | .streamPortWrite t => Sys2Proof.Machine.execStreamPortWrite t s
  | .tileSpaceAccess who t a data len => Sys2Proof.Machine.execTileSpaceAccess who t a data len s
  | .scrubRead t u => Sys2Proof.Machine.execScrubRead t u s
  | .scrubWriteback t => Sys2Proof.Machine.execScrubWriteback t s
  | .tileRestartWrite who view t w => Sys2Proof.Machine.execTileRestartWrite who view t w s
  | .tileHwmClear who view t w => Sys2Proof.Machine.execTileHwmClear who view t w s
  | .frameDispatch => Sys2Proof.Machine.execFrameDispatch s
  | .frameSlip => Sys2Proof.Machine.execFrameSlip s
  | .streamLineStage h q j => Sys2Proof.Machine.execStreamLineStage h q j s
  | .aclkStepApply => Sys2Proof.Machine.execAclkStepApply s
  | .recipeSwitchEffect => Sys2Proof.Machine.execRecipeSwitchEffect s
  | .reloadSwitchDone => Sys2Proof.Machine.execReloadSwitchDone s
  | .fallbackRecipeSelect => Sys2Proof.Machine.execFallbackRecipeSelect s
  | .resultFrameForm => Sys2Proof.Machine.execResultFrameForm s
  | .frameCheckReceive => Sys2Proof.Machine.execFrameCheckReceive s
  | .twinWaitTimeout => Sys2Proof.Machine.execTwinWaitTimeout s
  | .mirrorSlotReceive => Sys2Proof.Machine.execMirrorSlotReceive s
  | .twinPeerLoss => Sys2Proof.Machine.execTwinPeerLoss s
  | .trackedHoldTimeout => Sys2Proof.Machine.execTrackedHoldTimeout s
  | .clipCut => Sys2Proof.Machine.execClipCut s
  | .clipLineTimeout => Sys2Proof.Machine.execClipLineTimeout s
  | .recordRingWrite => Sys2Proof.Machine.execRecordRingWrite s
  | .ringIrqTimer => Sys2Proof.Machine.execRingIrqTimer s
  | .tokenReceive => Sys2Proof.Machine.execTokenReceive s
  | .markerCommit n => Sys2Proof.Machine.execMarkerCommit n s
  | .markerSpanLostEnd n => Sys2Proof.Machine.execMarkerSpanLostEnd n s
  | .microwordIssue c upset => Sys2Proof.Machine.execMicrowordIssue c upset s
  | .psqWaitEnd c => Sys2Proof.Machine.execPsqWaitEnd c s
  | .psqWaitTimeout c => Sys2Proof.Machine.execPsqWaitTimeout c s
  | .psqCxRestart who view c w => Sys2Proof.Machine.execPsqCxRestart who view c w s
  | .csHoldingWrite who view a k w => Sys2Proof.Machine.execCsHoldingWrite who view a k w s
  | .csWordCommit who view a w => Sys2Proof.Machine.execCsWordCommit who view a w s
  | .pageSwapCheckDone bad => Sys2Proof.Machine.execPageSwapCheckDone bad s
  | .pageSwapEffect => Sys2Proof.Machine.execPageSwapEffect s
  | .psqUevtRead who view => Sys2Proof.Machine.execPsqUevtRead who view s
  | .fabLinkUp p => Sys2Proof.Machine.execFabLinkUp p s
  | .fabRateAlternate p => Sys2Proof.Machine.execFabRateAlternate p s
  | .fabBlockLockLoss p => Sys2Proof.Machine.execFabBlockLockLoss p s
  | .fabFecBurst p n => Sys2Proof.Machine.execFabFecBurst p n s
  | .fabHelloTimeout p => Sys2Proof.Machine.execFabHelloTimeout p s
  | .fabRetrainWrite who view p w => Sys2Proof.Machine.execFabRetrainWrite who view p w s
  | .fabHolddownEnd p => Sys2Proof.Machine.execFabHolddownEnd p s
  | .helloSend p => Sys2Proof.Machine.execHelloSend p s
  | .helloReceive p start data last => Sys2Proof.Machine.execHelloReceive p start data last s
  | .fabPayloadBlockReceive p b => Sys2Proof.Machine.execFabPayloadBlockReceive p b s
  | .fabBlockTransmit p => Sys2Proof.Machine.execFabBlockTransmit p s
  | .fabAckReceive p w0 w1 w2 w3 w4 => Sys2Proof.Machine.execFabAckReceive p w0 w1 w2 w3 w4 s
  | .txstateReceive p w0 w1 w2 w3 w4 => Sys2Proof.Machine.execTxstateReceive p w0 w1 w2 w3 w4 s
  | .fabAckTimer p tc => Sys2Proof.Machine.execFabAckTimer p tc s
  | .fabAckRepeat p tc => Sys2Proof.Machine.execFabAckRepeat p tc s
  | .fabTxstateSend p => Sys2Proof.Machine.execFabTxstateSend p s
  | .fabResendTimeout p tc => Sys2Proof.Machine.execFabResendTimeout p tc s
  | .fabMsgTimeout => Sys2Proof.Machine.execFabMsgTimeout s
  | .topoSend => Sys2Proof.Machine.execTopoSend s
  | .topoReceive => Sys2Proof.Machine.execTopoReceive s
  | .mapBroadcast => Sys2Proof.Machine.execMapBroadcast s
  | .mapReceive => Sys2Proof.Machine.execMapReceive s
  | .routeTableSwitch => Sys2Proof.Machine.execRouteTableSwitch s
  | .rootSeqTick => Sys2Proof.Machine.execRootSeqTick s
  | .rootSeqTimeout => Sys2Proof.Machine.execRootSeqTimeout s
  | .addrReserveExpiry => Sys2Proof.Machine.execAddrReserveExpiry s
  | .discoveryTimeout => Sys2Proof.Machine.execDiscoveryTimeout s
  | .remoteAccessGo who view w => Sys2Proof.Machine.execRemoteAccessGo who view w s
  | .regReqReceive => Sys2Proof.Machine.execRegReqReceive s
  | .regRspReceive => Sys2Proof.Machine.execRegRspReceive s
  | .regReqTimeout => Sys2Proof.Machine.execRegReqTimeout s
  | .fwMsgReceive => Sys2Proof.Machine.execFwMsgReceive s
  | .syncExchangeStart => Sys2Proof.Machine.execSyncExchangeStart s
  | .syncReqReceive p start data => Sys2Proof.Machine.execSyncReqReceive p start data s
  | .syncRspReceive p w0 w1 w2 w3 w4 => Sys2Proof.Machine.execSyncRspReceive p w0 w1 w2 w3 w4 s
  | .timeHoldoverTimeout => Sys2Proof.Machine.execTimeHoldoverTimeout s
  | .beaconSend d => Sys2Proof.Machine.execBeaconSend d s
  | .beaconReceive p start data last => Sys2Proof.Machine.execBeaconReceive p start data last s
  | .beaconTimeout d => Sys2Proof.Machine.execBeaconTimeout d s
  | .standbyTakeover d => Sys2Proof.Machine.execStandbyTakeover d s
  | .digestRecomputeDone => Sys2Proof.Machine.execDigestRecomputeDone s
  | .censusRoundStart => Sys2Proof.Machine.execCensusRoundStart s
  | .cenPollReceive => Sys2Proof.Machine.execCenPollReceive s
  | .cenReportReceive => Sys2Proof.Machine.execCenReportReceive s
  | .censusRoundDecide => Sys2Proof.Machine.execCensusRoundDecide s
  | .cenResultReceive => Sys2Proof.Machine.execCenResultReceive s
  | .cenResultTimeout => Sys2Proof.Machine.execCenResultTimeout s
  | .cenReqReceive => Sys2Proof.Machine.execCenReqReceive s
  | .epochProposeReceive => Sys2Proof.Machine.execEpochProposeReceive s
  | .epochAckReceive => Sys2Proof.Machine.execEpochAckReceive s
  | .epochAckTimeout => Sys2Proof.Machine.execEpochAckTimeout s
  | .epochCommitReceive => Sys2Proof.Machine.execEpochCommitReceive s
  | .epochCommitTimeout => Sys2Proof.Machine.execEpochCommitTimeout s
  | .epochApply => Sys2Proof.Machine.execEpochApply s
  | .add d a b z => Sys2Proof.Machine.execAdd d a b z s
  | .sub d a b z => Sys2Proof.Machine.execSub d a b z s
  | .and d a b z => Sys2Proof.Machine.execAnd d a b z s
  | .or d a b z => Sys2Proof.Machine.execOr d a b z s
  | .xor d a b z => Sys2Proof.Machine.execXor d a b z s
  | .shl d a b z => Sys2Proof.Machine.execShl d a b z s
  | .shr d a b z => Sys2Proof.Machine.execShr d a b z s
  | .sar d a b z => Sys2Proof.Machine.execSar d a b z s
  | .rol d a b z => Sys2Proof.Machine.execRol d a b z s
  | .neg d a b z => Sys2Proof.Machine.execNeg d a b z s
  | .abs d a b z => Sys2Proof.Machine.execAbs d a b z s
  | .min d a b z => Sys2Proof.Machine.execMin d a b z s
  | .max d a b z => Sys2Proof.Machine.execMax d a b z s
  | .clz d a b z => Sys2Proof.Machine.execClz d a b z s
  | .addImm d a imm => Sys2Proof.Machine.execAddImm d a imm s
  | .andImm d a imm => Sys2Proof.Machine.execAndImm d a imm s
  | .orImm d a imm => Sys2Proof.Machine.execOrImm d a imm s
  | .xorImm d a imm => Sys2Proof.Machine.execXorImm d a imm s
  | .shlImm d a z amt => Sys2Proof.Machine.execShlImm d a z amt s
  | .shrImm d a z amt => Sys2Proof.Machine.execShrImm d a z amt s
  | .sarImm d a z amt => Sys2Proof.Machine.execSarImm d a z amt s
  | .rolImm d a z amt => Sys2Proof.Machine.execRolImm d a z amt s
  | .movi d imm => Sys2Proof.Machine.execMovi d imm s
  | .movhi d z imm => Sys2Proof.Machine.execMovhi d z imm s
  | .mov d src kind z => Sys2Proof.Machine.execMov d src kind z s
  | .ldB r ab mode ofs => Sys2Proof.Machine.execLdB r ab mode ofs s
  | .ldBu r ab mode ofs => Sys2Proof.Machine.execLdBu r ab mode ofs s
  | .ldH r ab mode ofs => Sys2Proof.Machine.execLdH r ab mode ofs s
  | .ldHu r ab mode ofs => Sys2Proof.Machine.execLdHu r ab mode ofs s
  | .ldW r ab mode ofs => Sys2Proof.Machine.execLdW r ab mode ofs s
  | .stB r ab mode ofs => Sys2Proof.Machine.execStB r ab mode ofs s
  | .stH r ab mode ofs => Sys2Proof.Machine.execStH r ab mode ofs s
  | .stW r ab mode ofs => Sys2Proof.Machine.execStW r ab mode ofs s
  | .lda r ab mode ofs => Sys2Proof.Machine.execLda r ab mode ofs s
  | .sta r ab mode ofs => Sys2Proof.Machine.execSta r ab mode ofs s
  | .adda d b imm => Sys2Proof.Machine.execAdda d b imm s
  | .lea r ab mode ofs => Sys2Proof.Machine.execLea r ab mode ofs s
  | .mul z1 a b z2 => Sys2Proof.Machine.execMul z1 a b z2 s
  | .mulu z1 a b z2 => Sys2Proof.Machine.execMulu z1 a b z2 s
  | .mulProductWrite => Sys2Proof.Machine.execMulProductWrite s
  | .mac z1 n a b z2 => Sys2Proof.Machine.execMac z1 n a b z2 s
  | .macs z1 n a b z2 => Sys2Proof.Machine.execMacs z1 n a b z2 s
  | .accr d mode n sh => Sys2Proof.Machine.execAccr d mode n sh s
  | .accz z n sh => Sys2Proof.Machine.execAccz z n sh s
  | .acczLong g z n lo hi => Sys2Proof.Machine.execAcczLong g z n lo hi s
  | .div d a b z => Sys2Proof.Machine.execDiv d a b z s
  | .divu d a b z => Sys2Proof.Machine.execDivu d a b z s
  | .rem d a b z => Sys2Proof.Machine.execRem d a b z s
  | .remu d a b z => Sys2Proof.Machine.execRemu d a b z s
  | .divComplete => Sys2Proof.Machine.execDivComplete s
  | .cbEq a b disp => Sys2Proof.Machine.execCbEq a b disp s
  | .cbNe a b disp => Sys2Proof.Machine.execCbNe a b disp s
  | .cbLt a b disp => Sys2Proof.Machine.execCbLt a b disp s
  | .cbGe a b disp => Sys2Proof.Machine.execCbGe a b disp s
  | .cbLtu a b disp => Sys2Proof.Machine.execCbLtu a b disp s
  | .cbGeu a b disp => Sys2Proof.Machine.execCbGeu a b disp s
  | .cbzEq a disp => Sys2Proof.Machine.execCbzEq a disp s
  | .cbzNe a disp => Sys2Proof.Machine.execCbzNe a disp s
  | .cbzLt a disp => Sys2Proof.Machine.execCbzLt a disp s
  | .cbzGe a disp => Sys2Proof.Machine.execCbzGe a disp s
  | .cbzGt a disp => Sys2Proof.Machine.execCbzGt a disp s
  | .cbzLe a disp => Sys2Proof.Machine.execCbzLe a disp s
  | .j disp => Sys2Proof.Machine.execJ disp s
  | .call disp => Sys2Proof.Machine.execCall disp s
  | .ja z1 ab z2 => Sys2Proof.Machine.execJa z1 ab z2 s
  | .calla z1 ab z2 => Sys2Proof.Machine.execCalla z1 ab z2 s
  | .ret z => Sys2Proof.Machine.execRet z s
  | .rete z => Sys2Proof.Machine.execRete z s
  | .push r cls z => Sys2Proof.Machine.execPush r cls z s
  | .pop r cls z => Sys2Proof.Machine.execPop r cls z s
  | .nop z imm => Sys2Proof.Machine.execNop z imm s
  | .wfi z imm => Sys2Proof.Machine.execWfi z imm s
  | .wfiWake => Sys2Proof.Machine.execWfiWake s
  | .fenceI z imm => Sys2Proof.Machine.execFenceI z imm s
  | .pflush z imm => Sys2Proof.Machine.execPflush z imm s
  | .pbar z imm => Sys2Proof.Machine.execPbar z imm s
  | .sync z imm => Sys2Proof.Machine.execSync z imm s
  | .bkpt z imm => Sys2Proof.Machine.execBkpt z imm s
  | .trap z imm => Sys2Proof.Machine.execTrap z imm s
  | .mfc d z n => Sys2Proof.Machine.execMfc d z n s
  | .mtc r z n => Sys2Proof.Machine.execMtc r z n s
  | .rep z n next => Sys2Proof.Machine.execRep z n next s
  | .repi z n next => Sys2Proof.Machine.execRepi z n next s
  | .pairedWord w => Sys2Proof.Machine.execPairedWord w s
  | .interruptEntry => Sys2Proof.Machine.execInterruptEntry s
  | .nmiRequest low => Sys2Proof.Machine.execNmiRequest low s
  | .nmiEntry => Sys2Proof.Machine.execNmiEntry s
  | .timerCompare => Sys2Proof.Machine.execTimerCompare s
  | .storeBufferDrain => Sys2Proof.Machine.execStoreBufferDrain s
  | .coreResetWrite who view => Sys2Proof.Machine.execCoreResetWrite who view s
  | .secureWindowWipe => Sys2Proof.Machine.execSecureWindowWipe s
  | .spmTestStep wrong upsets => Sys2Proof.Machine.execSpmTestStep wrong upsets s
  | .mailboxAccess who w data strb collides => Sys2Proof.Machine.execMailboxAccess who w data strb collides s
  | .matrixTimeout m target write addr => Sys2Proof.Machine.execMatrixTimeout m target write addr s
  | .matrixLockBreak bridge target write addr => Sys2Proof.Machine.execMatrixLockBreak bridge target write addr s
  | .dmaGo who view c => Sys2Proof.Machine.execDmaGo who view c s
  | .dmaAbort who view c => Sys2Proof.Machine.execDmaAbort who view c s
  | .dmaBurstDone c => Sys2Proof.Machine.execDmaBurstDone c s
  | .mbxDoorbellInSet who view w => Sys2Proof.Machine.execMbxDoorbellInSet who view w s
  | .mbxDoorbellOutSet who view w => Sys2Proof.Machine.execMbxDoorbellOutSet who view w s
  | .cdcTransferEnd x pulses dropped => Sys2Proof.Machine.execCdcTransferEnd x pulses dropped s
  | .gddr7TrainDone t => Sys2Proof.Machine.execGddr7TrainDone t s
  | .gddr7Tracking p temp bwWr bwRd => Sys2Proof.Machine.execGddr7Tracking p temp bwWr bwRd s
  | .gddr7Refresh p stall share => Sys2Proof.Machine.execGddr7Refresh p stall share s
  | .gddr7RequestDone r => Sys2Proof.Machine.execGddr7RequestDone r s
  | .secClaim who view => Sys2Proof.Machine.execSecClaim who view s
  | .secRelease who view => Sys2Proof.Machine.execSecRelease who view s
  | .secClaimTimeout => Sys2Proof.Machine.execSecClaimTimeout s
  | .session who view => Sys2Proof.Machine.execSession who view s
  | .enrol who view => Sys2Proof.Machine.execEnrol who view s
  | .revoke who view => Sys2Proof.Machine.execRevoke who view s
  | .provision who intent => Sys2Proof.Machine.execProvision who intent s
  | .own who intent => Sys2Proof.Machine.execOwn who intent s
  | .returnToken who intent => Sys2Proof.Machine.execReturnToken who intent s
  | .scrap who intent => Sys2Proof.Machine.execScrap who intent s
  | .reprovision who intent => Sys2Proof.Machine.execReprovision who intent s
  | .debug who intent => Sys2Proof.Machine.execDebug who intent s
  | .sessionClose who view => Sys2Proof.Machine.execSessionClose who view s
  | .sessionTimeout => Sys2Proof.Machine.execSessionTimeout s
  | .tamperArm who view mask => Sys2Proof.Machine.execTamperArm who view mask s
  | .tamperDetect code => Sys2Proof.Machine.execTamperDetect code s
  | .zeroiseScrubDone => Sys2Proof.Machine.execZeroiseScrubDone s
  | .noiseSample ok => Sys2Proof.Machine.execNoiseSample ok s
  | .randomRead => Sys2Proof.Machine.execRandomRead s
  | .peatEntryWrite => Sys2Proof.Machine.execPeatEntryWrite s
  | .healthSample => Sys2Proof.Machine.execHealthSample s
  | .freezeRelease who view mask => Sys2Proof.Machine.execFreezeRelease who view mask s
  | .firmwarePeatCommit w0 w1 w2 w3 => Sys2Proof.Machine.execFirmwarePeatCommit w0 w1 w2 w3 s
  | .eruSlotFree who view k => Sys2Proof.Machine.execEruSlotFree who view k s
  | .fatalTimeout => Sys2Proof.Machine.execFatalTimeout s
  | .endpointReset cause n link => Sys2Proof.Machine.execEndpointReset cause n link s
  | .recordCiDoorbell page who ci => Sys2Proof.Machine.execRecordCiDoorbell page who ci s
  | .clipCiDoorbell page who ci => Sys2Proof.Machine.execClipCiDoorbell page who ci s
  | .atomicOp off wide op v lo hi => Sys2Proof.Machine.execAtomicOp off wide op v lo hi s
  | .msixSend v again => Sys2Proof.Machine.execMsixSend v again s
  | .outboundCplTimeout m e addr => Sys2Proof.Machine.execOutboundCplTimeout m e addr s
  | .registerWrite who view off data strb => Sys2Proof.Machine.execRegisterWrite who view off data strb s
  | .loRegisterRead who view off => Sys2Proof.Machine.execLoRegisterRead who view off s
  | .thermalSample pd ld => Sys2Proof.Machine.execThermalSample pd ld s
  | .avsVoutSettled reply => Sys2Proof.Machine.execAvsVoutSettled reply s
  | .avsTimeout => Sys2Proof.Machine.execAvsTimeout s
  | .avsRetry => Sys2Proof.Machine.execAvsRetry s
  | .pmbAlertInput acked => Sys2Proof.Machine.execPmbAlertInput acked s
  | .supplyWarnTimer mv => Sys2Proof.Machine.execSupplyWarnTimer mv s
  | .powerSample pout => Sys2Proof.Machine.execPowerSample pout s
  | .powerLoss => Sys2Proof.Machine.execPowerLoss s
  | .envConditionEnd => Sys2Proof.Machine.execEnvConditionEnd s
  | .perstNRelease speed width => Sys2Proof.Machine.execPerstNRelease speed width s
  | .configurationRequest r => Sys2Proof.Machine.execConfigurationRequest r s

end Sys2Proof.Machine
end

