-- ==== Sys2Proof/Machine/Step.lean ====
section
/-! DEFINITION. One step: the command at the front of the queue, or one tick of the TS counter on an empty queue. -/
namespace Sys2Proof.Machine

/-- Take the command at the front and run it with the queue's rest. On an empty queue one TS unit passes, and a control core that runs comes
to its next instruction boundary. DESIGN CHOICE (log 7). -/
def step (s : State) : Host.Outcome State Fault Refusal :=
  match s.pending with
  | [] =>
    let s := s.passTs
    if s.coreAwake then s.coreTick else .next s
  | c :: r => exec c { s with pending := r }

/-- `s` with the command that a table word spells put at the front of its queue. -/
def State.withFetchWord (s : State) (nbits w : Nat) : State :=
  match decodeTableWord nbits w with
  | some c => { s with pending := c :: s.pending }
  | none => s

end Sys2Proof.Machine
end

