-- ==== Sys2Proof/WellFormed.lean ====
section
/-! DEFINITION. What makes a command well formed: the sizes and codes the spec gives the data that a row's event carries. -/
namespace Sys2Proof

/-- A link that trained: 2.5 to 32 GT/s, x1, x2, x4 or x8 (R543). -/
def linkWf (speed width : Nat) : Bool := decide (1 ≤ speed) && [1, 2, 4, 8].contains width

/-- A pixel value is at most 16 bits (R82, R109). -/
def cxpWf : CxpPacket → Bool
  | .stream _ _ _ _ pix _ _ => pix.all fun v => decide (v < 65536)
  | _ => true

/-- A rail is in range only after it began to rise (R567). -/
def RailUp.wf (r : RailUp) : Bool := decide (r.start ≤ r.inRange)

def PowerUp.wf (p : PowerUp) : Bool :=
  p.ld33.wf && p.mram.wf && p.ld.wf && p.sram.wf && p.core.wf && p.arr.wf && p.sdsL.wf && p.sdsH.wf && p.gdq.wf && p.io18.wf

/-- A well-formed command. The fields of every other row hold exactly the values their types admit. -/
def WellFormed : Instr → Bool
  | .powerOn p => p.wf
  | .kslBlockReceive _ _ _ _ payload _ _ => decide (payload.length ≤ 256)
  | .cxpPacketReceive _ p => cxpWf p
  | .tileSpaceAccess _ _ _ (some d) _ => decide (1 ≤ d.length) && decide (d.length ≤ 64)
  | .tileSpaceAccess _ _ _ none len => decide (1 ≤ len.val)
  | .gddr7TrainDone t => decide (t.eyes.length ≤ 24)
  | .tamperDetect code => decide (code.val ≠ 0)
  | .perstNRelease speed width => linkWf speed.val width.val
  | .endpointReset _ _ (some l) => linkWf l.1.val l.2.val
  | .registerWrite _ _ off _ _ => decide (off.toNat % 4 = 0)
  | .loRegisterRead _ _ off => decide (off.toNat % 4 = 0)
  | .configurationRequest (.bar4Read off) => decide (off.toNat % 4 = 0)
  | .configurationRequest (.bar4Write off d) => decide (1 ≤ d.length) && decide (off.toNat % 4 + d.length ≤ 4)
  | .configurationRequest (.laggRead a) => decide (a.toNat % 4 = 0)
  | .configurationRequest (.laggWrite a d) => decide (1 ≤ d.length) && decide (a.toNat % 4 + d.length ≤ 4)
  | .configurationRequest (.debug (.readMem a)) => decide (a.toNat % 4 = 0)
  | .configurationRequest (.debug (.writeMem a d)) => decide (1 ≤ d.length) && decide (a.toNat % 4 + d.length ≤ 4)
  | _ => true

end Sys2Proof
end

