-- ==== Sys2Proof/Safety.lean ====
section
/-! DEFINITION. What a good state is: every memory of the device in its canonical form, every waiting command well formed;
and the states in which the control core executes a word in the plainest way, with what the word leaves. -/
namespace Sys2Proof.Machine

/-- A command answers the next state `t`. -/
abbrev Outcome.goes (t : State) : Host.Outcome State Fault Refusal := .next t

/-- The memories of the device, each in its canonical form: the register file, the scratchpad, the mailbox, GDDR7, the flash, SEC_BUF. -/
abbrev State.MemWf (s : State) : Prop :=
  smWf regReset s.regs = true ∧ Memory.wf ramDefault s.mtx.spm = true ∧ Memory.wf ramDefault s.mtx.mbox = true ∧
    Memory.wf ramDefault s.gddr = true ∧ Memory.wf flashDefault s.flash.mem = true ∧ Memory.wf ramDefault s.sec.buf = true

/-- The stores beside the memories, each in its canonical form: the control store, the peat ring, the memories of every tile, the prediction tables
of the core, and what the endpoint keeps. -/
abbrev State.StoresWf (s : State) : Prop :=
  smWf csDefault s.psq.cs = true ∧ smWf peatDefault s.peat.ring = true ∧
    (∀ k : Fin 272, smWf (fun _ => 0) s.tile[k].mem = true ∧ smWf (fun _ => 0) s.tile[k].bad = true ∧ smWf (fun _ => 0) s.tile[k].moves = true ∧
      smWf (fun _ => 0) s.tile[k].slots = true) ∧
    smWf (fun _ => none) s.core.btb = true ∧ smWf (fun _ => 1) s.core.dir = true ∧ smWf (fun _ => 0) s.pcie.table = true ∧
    smWf cfgInit s.pcie.cfg = true

/-- Every waiting command is well formed. -/
abbrev State.QueueWf (s : State) : Prop := ∀ c ∈ s.pending, WellFormed c = true

/-- Outputs in their safe state (R25): TRG balls not high, no pulse of them running, no marking waiting, the outputs disabled. -/
abbrev State.OutputsSafe (s : State) : Prop :=
  s.sys.outEn = false ∧ (∀ i : Fin 16, s.balls.trg[i] ≠ .high) ∧ (∀ n : Fin 8, (s.mkr n).queue = [])

/-- The core runs outside a repeat with no division in flight, and the word at its PC is fetched from a sound word of the scratchpad below
the secure window, without the I-cache, with no wipe, borrowed line or dead transaction in the way, neither the NMI nor an interrupt to be
taken first (R406), and the clocks of the processing die running (R576). -/
abbrev CoreReady (s : State) : Prop :=
  s.core.st = 1 ∧ s.core.rep = none ∧ s.core.div = none ∧ s.core.icache = false ∧ s.core.pc.toNat % 4 = 0 ∧
    s.core.pc.toNat < 0x1C0000 ∧ s.mtx.spmBad = [] ∧ s.mtx.wiping = false ∧ s.mtx.shadow = none ∧ s.mtx.late = [] ∧
    s.nmiReady = false ∧ s.irqReady = false ∧ s.clk.shutdown = false

/-- The state after a word that does nothing: the PC has moved on, the word is the last one retired and has left the prefetch queue. -/
def afterWord (s : State) : State :=
  { s with core := { s.core with pc := s.core.pc + 4, lastPc := s.core.pc, lastPriv := s.priv, atVector := false,
                                    pq := s.queueAfter s.core.pc.toNat } }

/-- The state after a word that writes `v` into D register `d`: nothing else changes. -/
def wroteD (s : State) (d : BitVec 4) (v : Word) : State := (afterWord s).setDr d v

/-- The state after a word that writes `v` into A register `d` of the present level. -/
def wroteA (s : State) (d : BitVec 4) (v : Word) : State := (afterWord s).setAr d v

/-- The state after a branch with prediction out of use: `dest` is the address it goes on at, the prefetch queue flushed when it is taken;
one branch is counted, and `miss` tells whether it counts as mispredicted. -/
def wentTo (s : State) (taken miss : Bool) (dest : Word) : State :=
  { afterWord s with core := { (afterWord s).core with
      pc := dest, pq := if taken then [] else (afterWord s).core.pq, brCnt := s.core.brCnt + 1, mispCnt := if miss then s.core.mispCnt + 1 else s.core.mispCnt } }

/-- The state after entry to vector `vec` with saved PC `saved`, DETAIL `detail` and no address: two entries pushed, PRIV set, REPCNT 0. -/
def entered (s : State) (vec detail : Nat) (saved : Word) : State :=
  { s with core := { s.core with
      rs := { value := saved, kind := 1, tag := s.priv } :: { value := s.core.status, kind := 2, tag := s.priv } :: s.core.rs,
      status := putBits (putBits s.core.status 0 0 1) 31 23 0, cause := w32 (256 * detail + vec), pc := s.core.vbase + w32 (8 * vec),
      pq := [], atVector := true } }

/-- An exception can be entered without a spill, and no product is in flight. -/
abbrev EntryReady (s : State) : Prop := s.core.rs.length ≤ 30 ∧ s.core.mulQ = []

/-- The control core's accesses reach every register: neither HOLD nor WIPED, no latched half waiting to be read, and no responses owed to its
data port after a reset (R432). -/
abbrev CoreMayAccess (s : State) : Prop := s.sys.st ≠ .hold ∧ s.sys.st ≠ .wiped ∧ s.hiLatch = [] ∧ s.owes 1 = false

/-- Every writable field of the register at `o` holds a value that is no reserved encoding. -/
abbrev State.FieldsGood (s : State) (o : Nat) : Prop :=
  ∀ r, regSpec o = some r → ∀ f ∈ r.fields, f.acc = .rw → f.allows r.reset (f.val (s.reg o).toNat) = true

/-- Event `ev` of instance `inst` has been raised between `s` and `t` (R539): counted in its class and queued for the peat record
with its class, identifier and source. -/
def Reported (s t : State) (ev : Ev) (inst : Nat) : Prop :=
  atV t.eru.cnt ev.cls 0 = (atV s.eru.cnt ev.cls 0 + 1) % 2 ^ 32 ∧
    ∃ r : PeatReq, t.peat.queue = s.peat.queue ++ [r] ∧ r.type = 0x01 ∧ r.sub = ev.cls ∧ r.time = s.fabricTime ∧
      r.body.take 5 = leBytes 2 ev.id ++ leBytes 3 (ev.src + inst)

/-- An event below FATAL raised in `s` is reported at once and in full: it is outside its window, and the peat queue has room. -/
abbrev CanReport (s : State) (ev : Ev) (inst : Nat) : Prop := s.rateOk ev inst = true ∧ s.peat.queue.length < 1024

/-- `s` with the parts that reporting an event below FATAL may touch taken from `t`: the ERU, the peat record, the core's NMI latch. -/
def State.noting (s t : State) : State :=
  { s with eru := t.eru, peat := t.peat, core := { s.core with nmi := t.core.nmi, nmiLevel := t.core.nmiLevel } }

/-- From `before` to `after` these groups of symbols went out on lane `n`, one after the other, each symbol with a ten-bit code and none
with filler before it, and nothing else was sent. -/
def SentOn (n : Nat) (before : List Sent) : List (List Sym) → List Sent → Prop
  | [], after => after = before
  | m :: r, after => ∃ at_ codes, codes.length = m.length ∧ SentOn n (.lane n at_ [] m codes :: before) r after

/-- A lane without what its transmitter keeps: the end, disparity and last bit of what was sent, the messages that wait, the end of MGMT. -/
def Lane.rx (l : Lane) : Lane := { l with bcEnd := 0, rd := false, lastBit := false, bcq := [], mgEnd := 0 }

/-- A message on KSL lane `n` leaves at once (R90): none waits, and no trigger of its head is committed. -/
abbrev LaneFree (s : State) (n : Nat) : Prop := s.lPers n = 1 ∧ (s.laneAt n).bcq = [] ∧ (s.gen (s.headGen n)).trigs = []

/-- The rule of detection `d` exports its record and asks for no clip and no token. -/
abbrev PlainRule (s : State) (d : Det) : Prop :=
  s.ruleClip d.recipe d.rule = false ∧ s.ruleExport d.recipe d.rule = true ∧ s.ruleToken d.recipe d.rule = false

/-- No record waits and the record ring takes none, so that the next record formed waits alone. -/
abbrev RingBusy (s : State) : Prop := s.res.waiting = [] ∧ s.recRoom = false

/-- `b` holds the fields of R270 for detection `d` with Y on its frame domain, formed in `s`; its flags are left to the statement. -/
def IsDefect (s : State) (d : Det) (b : List Byte) : Prop :=
  b.length = 64 ∧ ∀ p ∈ [(0, 1, 1), (1, 1, 17 * d.fdom), (2, 1, d.recipe), (3, 1, d.mode), (4, 4, s.res.seq), (8, 8, unsigned 64 d.y),
      (16, 8, unsigned 64 (d.y - (s.domOwn d.fdom).origin)), (24, 4, d.x), (28, 2, d.xw), (30, 1, d.len), (31, 1, d.cls), (32, 1, d.sev),
      (33, 1, 16 * d.vcol + d.vrow), (34, 2, 16 * d.tagHi + d.rule), (36, 4, unsigned 32 d.frame), (40, 4, (s.domOwn d.fdom).product),
      (46, 2, 0xFFFF), (48, 8, d.feat), (56, 4, s.ts), (60, 4, crc32c (b.take 60))],
    fieldAt b p.1 p.2.1 = p.2.2 % 2 ^ (8 * p.2.1)

/-- Writes of requester `who` reach the registers of the Lagg die: the control core's do, and the host's over its link from ARMED on; no
responses are owed to either after a reset (R432). -/
abbrev Reaches (s : State) (who : Requester) : Prop :=
  (who = .core ∧ s.owes 1 = false) ∨ (who = .host ∧ s.pcie.linkUp = true ∧ 4 ≤ s.sys.st.code ∧ s.owes 3 = false)

/-- The submission of descriptor `desc` by `who` passes every check of R523 with no command before it (R526), no GO waits for it (R503), no FATAL
event holds the device state (R541), its writes reach the registers (R432), and the journal's sequence numbers grow. -/
def Accepts (s : State) (who : Requester) (desc : List Byte) : Prop :=
  s.busHeld who = false ∧ s.jnl.queue = [] ∧ s.cmdFree = true ∧ s.fatalStands = false ∧ s.sec.goWait = none ∧ s.submitGate who desc = 0 ∧ s.tagged desc = none ∧ s.recent.length < 10000 ∧ s.bufOpen who = true ∧
    (∀ e ∈ s.jnl.entries, e.seq ≤ s.jnlHead) ∧ ∀ q ∈ s.jnl.wait, q.seq ≤ s.jnlHead

/-- The newest journal entry of `t` is that of `desc`, accepted from `who` in `s`, with this outcome, and `who`'s buffer says ACCEPTED. -/
def Journalled (s t : State) (who : Requester) (desc : List Byte) (ostat ocode odata : Nat) : Prop :=
  (t.cmdBuf who).disp = 1 ∧ (t.cmdBuf who).seq = s.jnlHead + 1 ∧
    ∃ e : JEntry, t.jnl.entries.head? = some e ∧ e.seq = s.jnlHead + 1 ∧ e.code = fieldAt desc 0 1 ∧ e.intent = fieldAt desc 8 8 ∧
      e.req = reqId who ∧ e.state = s.sys.st.code ∧ e.ft = s.fabricTime ∧ e.argdig = argDigest desc ∧ e.ostat = ostat ∧ e.ocode = ocode ∧
      e.odata = odata

/-- The commands that are work of the processing die's engines: they stand still with its clocks (R576; DEDUCED, log 125). -/
def onPdClocks : Instr → Bool
  | .aclkStepApply .. | .addrReserveExpiry .. | .beaconReceive .. | .beaconSend .. | .beaconTimeout .. | .capWordReceive .. | .cdcTransferEnd ..
  | .cenPollReceive .. | .cenReportReceive .. | .cenReqReceive .. | .cenResultReceive .. | .cenResultTimeout .. | .censusRoundDecide ..
  | .censusRoundStart .. | .clipCut .. | .clipLineTimeout .. | .coastCoordUpdate .. | .coastLostTimeout .. | .cxpPacketReceive ..
  | .digestRecomputeDone .. | .discoveryTimeout .. | .divComplete .. | .dmaBurstDone .. | .edgeReportReceive .. | .edgeStripReceive ..
  | .edgeStripTimeout .. | .epochAckReceive .. | .epochAckTimeout .. | .epochApply .. | .epochCommitReceive .. | .epochCommitTimeout ..
  | .epochProposeReceive .. | .fabAckReceive .. | .fabAckRepeat .. | .fabAckTimer .. | .fabBlockLockLoss .. | .fabBlockTransmit ..
  | .fabFecBurst .. | .fabHelloTimeout .. | .fabHolddownEnd .. | .fabLinkUp .. | .fabMsgTimeout .. | .fabPayloadBlockReceive ..
  | .fabRateAlternate .. | .fabResendTimeout .. | .fabTxstateSend .. | .fallbackRecipeSelect .. | .firmwarePeatCommit .. | .frameCheckReceive ..
  | .fwMsgReceive .. | .gddr7Refresh .. | .gddr7RequestDone .. | .gddr7Tracking .. | .gddr7TrainDone .. | .helloReceive .. | .helloSend ..
  | .interruptEntry .. | .kslAckRepeat .. | .kslAckTimer .. | .kslBlockReceive .. | .kslIdleWord .. | .kslResendTimeout .. | .kslStrayWord ..
  | .laneBcLockDone .. | .laneBlockLockDone .. | .laneEqualiseDone .. | .laneIdleTimeout .. | .laneSyncLoss .. | .laneTrainStepTimeout ..
  | .lineTimeout .. | .mapBroadcast .. | .mapReceive .. | .markerCommit .. | .markerSpanLostEnd .. | .microwordIssue .. | .mirrorSlotReceive ..
  | .motionCreepTimeout .. | .motionStopTimeout .. | .moveWordExecute .. | .mulProductWrite .. | .nmiEntry .. | .outqDrain ..
  | .pageSwapCheckDone .. | .pageSwapEffect .. | .posCheckCompare .. | .psqWaitEnd .. | .psqWaitTimeout .. | .recipeSwitchEffect ..
  | .recordRingWrite .. | .regReqTimeout .. | .regRspReceive .. | .reloadSwitchDone .. | .resultFrameForm .. | .ringIrqTimer .. | .rootSeqTick ..
  | .rootSeqTimeout .. | .routeTableSwitch .. | .scrubRead .. | .scrubWriteback .. | .sliceSlotWrite .. | .spmTestStep .. | .standbyTakeover ..
  | .storeBufferDrain .. | .streamPortWrite .. | .syncExchangeStart .. | .syncReqReceive .. | .syncRspReceive .. | .tableBankLoadDone ..
  | .tileBudgetEnd .. | .timeHoldoverTimeout .. | .tokenReceive .. | .topoReceive .. | .topoSend .. | .trackSampleReceive ..
  | .trackedHoldTimeout .. | .trainMessageRepeat .. | .triggerCommit .. | .twinPeerLoss .. | .twinWaitTimeout .. | .txstateReceive ..
  | .wfiWake .. => true
  | _ => false

end Sys2Proof.Machine
end

