-- ==== Sys2Proof/Certificates/Slice0/Obligations.lean ====
section
/-! DEFINITION. The statements about the model, each a rule of the spec or derived from its sections. -/
open Sys2Proof Sys2Proof.Machine


/-! The control core -/

/-- R354, R378: the results of the register forms; the frame is the equation itself. -/
def Obligations.RegisterFormsResult : Prop :=
  ∀ (s : State) (d a b z : BitVec 4), CoreReady s →
    let x := s.dr a
    let y := s.dr b
    let n := y.toNat % 256
    exec (.add d a b 0) s = .next (wroteD s d (x + y)) ∧
    exec (.sub d a b 0) s = .next (wroteD s d (x - y)) ∧
    exec (.and d a b 0) s = .next (wroteD s d (x &&& y)) ∧
    exec (.or d a b 0) s = .next (wroteD s d (x ||| y)) ∧
    exec (.xor d a b 0) s = .next (wroteD s d (x ^^^ y)) ∧
    exec (.shl d a b 0) s = .next (wroteD s d (if n < 32 then x <<< n else 0)) ∧
    exec (.shr d a b 0) s = .next (wroteD s d (if n < 32 then x >>> n else 0)) ∧
    exec (.sar d a b 0) s = .next (wroteD s d (x.sshiftRight n)) ∧
    exec (.rol d a b 0) s = .next (wroteD s d (x.rotateLeft (n % 32))) ∧
    exec (.neg d a 0 0) s = .next (wroteD s d (-x)) ∧
    exec (.abs d a 0 0) s = .next (wroteD s d (if 0 ≤ x.toInt then x else -x)) ∧
    exec (.min d a b 0) s = .next (wroteD s d (if x.toInt ≤ y.toInt then x else y)) ∧
    exec (.max d a b 0) s = .next (wroteD s d (if x.toInt ≤ y.toInt then y else x)) ∧
    (EntryReady s → b ≠ 0 ∨ z ≠ 0 → ∀ c ∈ [Instr.neg d a b z, .abs d a b z, .clz d a b z], exec c s = .next (entered s 0 0 s.core.pc)) ∧
    ∃ k : Nat, k ≤ 32 ∧ (∀ i < k, x.toNat.testBit (31 - i) = false) ∧ (k < 32 → x.toNat.testBit (31 - k) = true) ∧
      exec (.clz d a 0 0) s = .next (wroteD s d (BitVec.ofNat 32 k))

/-- R355: the results of the immediate forms. -/
def Obligations.ImmediateFormsResult : Prop :=
  ∀ (s : State) (d a : BitVec 4) (imm : BitVec 16) (amt : BitVec 8) (imm20 : BitVec 20), CoreReady s →
    let x := s.dr a
    let n := amt.toNat
    exec (.addImm d a imm) s = .next (wroteD s d (x + imm.signExtend 32)) ∧
    exec (.andImm d a imm) s = .next (wroteD s d (x &&& imm.setWidth 32)) ∧
    exec (.orImm d a imm) s = .next (wroteD s d (x ||| imm.setWidth 32)) ∧
    exec (.xorImm d a imm) s = .next (wroteD s d (x ^^^ imm.setWidth 32)) ∧
    exec (.shlImm d a 0 amt) s = .next (wroteD s d (if n < 32 then x <<< n else 0)) ∧
    exec (.shrImm d a 0 amt) s = .next (wroteD s d (if n < 32 then x >>> n else 0)) ∧
    exec (.sarImm d a 0 amt) s = .next (wroteD s d (x.sshiftRight n)) ∧
    exec (.rolImm d a 0 amt) s = .next (wroteD s d (x.rotateLeft (n % 32))) ∧
    exec (.movi d imm20) s = .next (wroteD s d (imm20.signExtend 32)) ∧
    exec (.movhi d 0 imm) s = .next (wroteD s d (imm ++ (s.dr d).extractLsb' 0 16))

/-- R356: the six copies, MPL and MPH as the multiplications of R362 leave them, and the undefined encodings. -/
def Obligations.MovCopies : Prop :=
  ∀ (s : State) (d r k : BitVec 4) (z : BitVec 12), CoreReady s →
    exec (.mov d r 0 0) s = .next (wroteD s d (s.dr r)) ∧
    (r.toNat < 8 → exec (.mov d r 1 0) s = .next (wroteD s d (s.ar r))) ∧
    (d.toNat < 8 → exec (.mov d r 2 0) s = .next (wroteA s d (s.dr r))) ∧
    (d.toNat < 8 → r.toNat < 8 → exec (.mov d r 3 0) s = .next (wroteA s d (s.ar r))) ∧
    ((∀ x ∈ s.core.mulQ, s.cycle < x.2 + 4) →
      exec (.mov d 0 4 0) s = .next (wroteD s d s.core.mpl) ∧ exec (.mov d 0 5 0) s = .next (wroteD s d s.core.mph)) ∧
    (∀ q hi lo u l, s.core.mulQ = q ++ (hi ++ lo, u) :: l → u + 4 ≤ s.cycle → (∀ x ∈ l, s.cycle < x.2 + 4) →
      exec (.mov d 0 4 0) s = .next (wroteD s d lo) ∧ exec (.mov d 0 5 0) s = .next (wroteD s d hi)) ∧
    (EntryReady s → (6 ≤ k.toNat ∨ z ≠ 0 ∨ (k.toNat = 1 ∧ 8 ≤ r.toNat) ∨ (k.toNat = 2 ∧ 8 ≤ d.toNat) ∨
        (k.toNat = 3 ∧ (8 ≤ d.toNat ∨ 8 ≤ r.toNat)) ∨ ((k.toNat = 4 ∨ k.toNat = 5) ∧ r ≠ 0)) →
      exec (.mov d r k z) s = .next (entered s 0 0 s.core.pc))

/-- R357, R358, R394: the loads on the scratchpad. -/
def Obligations.LoadsFromScratchpad : Prop :=
  ∀ (s : State) (r b : BitVec 4) (mode : BitVec 2) (ofs : BitVec 14), CoreReady s → s.core.sb = [] → s.core.rsLimit = 0 →
    memLegal b mode ofs = true →
    let ea := (s.memEa b mode ofs).toNat
    let mem := fun k => memGet ramDefault s.mtx.spm (ea + k)
    let moved := (afterWord s).memUpdate b mode ofs
    ea + 4 ≤ 0x1C0000 →
      exec (.ldB r b mode ofs) s = .next (moved.setDr r ((mem 0).signExtend 32)) ∧
      exec (.ldBu r b mode ofs) s = .next (moved.setDr r ((mem 0).setWidth 32)) ∧
      exec (.ldH r b mode ofs) s = .next (moved.setDr r ((mem 1 ++ mem 0).signExtend 32)) ∧
      exec (.ldHu r b mode ofs) s = .next (moved.setDr r ((mem 1 ++ mem 0).setWidth 32)) ∧
      exec (.ldW r b mode ofs) s = .next (moved.setDr r (mem 3 ++ mem 2 ++ mem 1 ++ mem 0)) ∧
      (r.toNat < 8 → (mode = 1 ∨ mode = 2 → r ≠ b) →
        exec (.lda r b mode ofs) s = .next (moved.setAr r (mem 3 ++ mem 2 ++ mem 1 ++ mem 0)))

/-- R358, R391: a store is buffered at the address its operands form; the value is the register's from before the update. -/
def Obligations.StoresAreBuffered : Prop :=
  ∀ (s : State) (r b : BitVec 4) (mode : BitVec 2) (ofs : BitVec 14), CoreReady s → s.core.sb.length < 4 → s.core.rsLimit = 0 →
    memLegal b mode ofs = true →
    let ea := (s.memEa b mode ofs).toNat
    let moved := (afterWord s).memUpdate b mode ofs
    let buffered := fun (k : Nat) (v : Word) =>
      ({ moved with core := { moved.core with sb := s.core.sb ++ [{ addr := ea, data := leBytes k v.toNat }] } } : State)
    ea + 4 ≤ 0x1C0000 →
      exec (.stB r b mode ofs) s = .next (buffered 1 (s.dr r)) ∧
      (ea % 2 = 0 → exec (.stH r b mode ofs) s = .next (buffered 2 (s.dr r))) ∧
      (ea % 4 = 0 → exec (.stW r b mode ofs) s = .next (buffered 4 (s.dr r))) ∧
      (ea % 4 = 0 → r.toNat < 8 → exec (.sta r b mode ofs) s = .next (buffered 4 (s.ar r)))

/-- R391: one entry drains, oldest first, of 1 to 4 bytes of one word; one of less than a word merges into a sound word. -/
def Obligations.StoreBufferDrains : Prop :=
  (∀ s : State, s.core.sb = [] → exec .storeBufferDrain s = .next s) ∧
  ∀ (s : State) (e : SbEnt) (rest : List SbEnt), s.clk.shutdown = false → s.MemWf → s.core.sb = e :: rest → 1 ≤ e.data.length →
    e.addr % 4 + e.data.length ≤ 4 → e.addr + e.data.length ≤ 0x1C0000 → e.data.length = 4 ∨ s.mtx.spmBad = [] → s.mtx.wiping = false →
    s.mtx.shadow = none → s.mtx.late = [] →
    ∃ t, exec .storeBufferDrain s = .next t ∧ t.core = { s.core with sb := rest } ∧ t.mtx.mbox = s.mtx.mbox ∧ t.gddr = s.gddr ∧
      t.regs = s.regs ∧
      (∀ i, (h : i < e.data.length) → memGet ramDefault t.mtx.spm (e.addr + i) = e.data[i]) ∧
      (∀ a, a < e.addr ∨ e.addr + e.data.length ≤ a → memGet ramDefault t.mtx.spm a = memGet ramDefault s.mtx.spm a)

/-- R357, R358, R360. -/
def Obligations.AddressArithmetic : Prop :=
  ∀ (s : State) (d b x : BitVec 4) (mode : BitVec 2) (imm : BitVec 16) (ofs : BitVec 14) (sc : BitVec 2),
    d.toNat < 8 → b.toNat < 8 →
    s.memEa b 0 ofs = s.ar b + ofs.signExtend 32 ∧ s.memEa b 1 ofs = s.ar b + ofs.signExtend 32 ∧ s.memEa b 2 ofs = s.ar b ∧
    s.memEa b 3 (x ++ sc ++ (0 : BitVec 8)) = s.ar b + (s.dr x <<< sc.toNat) ∧
    s.memUpdate b 0 ofs = s ∧ s.memUpdate b 1 ofs = s.setAr b (s.memEa b 1 ofs) ∧
    s.memUpdate b 2 ofs = s.setAr b (s.ar b + ofs.signExtend 32) ∧ s.memUpdate b 3 ofs = s ∧
    (CoreReady s →
      exec (.adda d b imm) s = .next (wroteA s d (s.ar b + imm.signExtend 32)) ∧
      exec (.lea d b 0 ofs) s = .next (wroteA s d (s.memEa b 0 ofs)) ∧
      exec (.lea d b 3 (x ++ sc ++ (0 : BitVec 8))) s = .next (wroteA s d (s.memEa b 3 (x ++ sc ++ (0 : BitVec 8)))) ∧
      (mode = 1 ∨ mode = 2 → EntryReady s → exec (.lea d b mode ofs) s = .next (entered s 0 0 s.core.pc)))

/-- R371, on the bank of the present level. -/
def Obligations.PushPop : Prop :=
  ∀ (s : State) (r : BitVec 4), CoreReady s → s.core.sb = [] → s.core.rsLimit = 0 →
    let p := s.ar 7
    let word := memGet ramDefault s.mtx.spm (p.toNat + 3) ++ memGet ramDefault s.mtx.spm (p.toNat + 2) ++
      memGet ramDefault s.mtx.spm (p.toNat + 1) ++ memGet ramDefault s.mtx.spm p.toNat
    let pushed := fun (v : Word) => ({ wroteA s 7 (p - 4) with
      core := { (wroteA s 7 (p - 4)).core with sb := [{ addr := p.toNat - 4, data := leBytes 4 v.toNat }] } } : State)
    (p.toNat % 4 = 0 → 4 ≤ p.toNat → p.toNat < 0x1C0000 →
      exec (.push r 0 0) s = .next (pushed (s.dr r)) ∧
      (r.toNat < 8 → exec (.push r 1 0) s = .next (pushed (s.ar r))) ∧
      exec (.pop r 0 0) s = .next ((wroteA s 7 (p + 4)).setDr r word) ∧
      (r.toNat < 8 → exec (.pop r 1 0) s = .next ((wroteA s 7 (p + 4)).setAr r word))) ∧
    (p.toNat % 4 ≠ 0 → s.core.atVector = false → EntryReady s → ∀ k : BitVec 4, k = 0 ∨ (k = 1 ∧ r.toNat < 8) →
      ∃ t u, exec (.push r k 0) s = .next t ∧ exec (.pop r k 0) s = .next u ∧ t.core.pc = s.core.vbase + 16 ∧ u.core.pc = s.core.vbase + 16 ∧
        ∀ v ∈ [t, u], v.core.rs = { value := s.core.pc, kind := 1, tag := s.priv } :: { value := s.core.status, kind := 2, tag := s.priv } :: s.core.rs ∧
          v.core.a7u = s.core.a7u ∧ v.core.a7p = s.core.a7p ∧ v.core.a = s.core.a ∧ v.core.d = s.core.d ∧ v.core.sb = [] ∧ v.mtx.spm = s.mtx.spm)

/-- R361, R362: a product reaches MPL and MPH 4 cycles after its issue. -/
def Obligations.Multiplication : Prop :=
  (∀ (s : State) (a b : BitVec 4), CoreReady s →
    let issued := fun (p : BitVec 64) =>
      ({ afterWord s with core := { (afterWord s).core with mulQ := s.core.mulQ ++ [(p, s.cycle)] } } : State)
    exec (.mul 0 a b 0) s = .next (issued (BitVec.ofInt 64 ((s.dr a).toInt * (s.dr b).toInt))) ∧
    exec (.mulu 0 a b 0) s = .next (issued (BitVec.ofNat 64 ((s.dr a).toNat * (s.dr b).toNat)))) ∧
  (∀ (s : State) (hi lo : Word) (t : Nat) (r : List (BitVec 64 × Nat)), s.clk.shutdown = false → s.core.mulQ = (hi ++ lo, t) :: r →
    (t + 4 ≤ s.cycle → exec .mulProductWrite s = .next { s with core := { s.core with mulQ := r, mpl := lo, mph := hi } }) ∧
    (s.cycle < t + 4 → exec .mulProductWrite s = .next s)) ∧
  ∀ s : State, s.core.mulQ = [] → exec .mulProductWrite s = .next s

/-- R361. -/
def Obligations.Accumulators : Prop :=
  ∀ (s : State) (d a b g : BitVec 4) (n : BitVec 2) (sh : BitVec 8), CoreReady s →
    let v := s.acc n
    let p := (s.dr a).toInt * (s.dr b).toInt
    let put := fun (x : BitVec 72) => (afterWord s).setAcc n x
    let t := (if 0 < sh.toNat then v + BitVec.ofNat 72 (2 ^ (sh.toNat - 1)) else v).sshiftRight sh.toNat
    exec (.mac 0 n a b 0) s = .next (put (v + BitVec.ofInt 72 p)) ∧
    exec (.macs 0 n a b 0) s = .next (put (v - BitVec.ofInt 72 p)) ∧
    (sh.toNat < 64 → -2 ^ 31 ≤ t.toInt → t.toInt < 2 ^ 31 → exec (.accr d 0 n sh) s = .next (wroteD s d (BitVec.ofInt 32 t.toInt))) ∧
    (sh.toNat < 64 → 2 ^ 31 ≤ t.toInt ∨ t.toInt < -2 ^ 31 → exec (.accr d 0 n sh) s =
      .next { wroteD s d (if 0 ≤ t.toInt then 0x7FFFFFFF else 0x80000000) with
        core := { (wroteD s d (if 0 ≤ t.toInt then 0x7FFFFFFF else 0x80000000)).core with accst := s.core.accst ||| 2 } }) ∧
    exec (.accr d 1 n 0) s = .next (wroteD s d (v.extractLsb' 0 32)) ∧
    exec (.accr d 2 n 0) s = .next (wroteD s d (v.extractLsb' 32 32)) ∧
    exec (.accr d 3 n 0) s = .next (wroteD s d ((v.extractLsb' 64 8).signExtend 32)) ∧
    exec (.accz 0 n 0) s = .next (put 0) ∧
    exec (.acczLong g 0 n b a) s = .next (put ((s.dr g).extractLsb' 0 8 ++ s.dr a ++ s.dr b)) ∧
    (((v.extractLsb' 64 8).signExtend 32).extractLsb' 0 8 ++ v.extractLsb' 32 32 ++ v.extractLsb' 0 32) = v

/-- R363, R364, R378: a quotient or remainder is written 34 cycles after the issue. -/
def Obligations.Division : Prop :=
  (∀ (s : State) (d a b : BitVec 4), CoreReady s →
    let x := s.dr a
    let y := s.dr b
    let inFlight := fun (w : Word) => ({ afterWord s with core := { (afterWord s).core with div := some (d.toNat, w), divAt := s.cycle } } : State)
    let edge := fun (w : Word) =>
      ({ afterWord s with core := { (afterWord s).core with accst := s.core.accst ||| 1, div := some (d.toNat, w), divAt := s.cycle } } : State)
    (y ≠ 0 →
      exec (.div d a b 0) s = .next (inFlight (BitVec.ofInt 32 (x.toInt.tdiv y.toInt))) ∧
      exec (.divu d a b 0) s = .next (inFlight (BitVec.ofNat 32 (x.toNat / y.toNat))) ∧
      exec (.rem d a b 0) s = .next (inFlight (BitVec.ofInt 32 (x.toInt.tmod y.toInt))) ∧
      exec (.remu d a b 0) s = .next (inFlight (BitVec.ofNat 32 (x.toNat % y.toNat)))) ∧
    (y = 0 → s.core.accst.getLsbD 2 = true → EntryReady s → s.core.atVector = false →
      ∀ c ∈ [Instr.div d a b 0, .divu d a b 0, .rem d a b 0, .remu d a b 0], exec c s = .next (entered s 5 0 s.core.pc)) ∧
    (y = 0 → s.core.accst.getLsbD 2 = false →
      exec (.div d a b 0) s = .next (edge (if x = 0 then 0 else if x.toInt < 0 then 0x80000000 else 0x7FFFFFFF)) ∧
      exec (.divu d a b 0) s = .next (edge 0xFFFFFFFF) ∧
      exec (.rem d a b 0) s = .next (edge x) ∧
      exec (.remu d a b 0) s = .next (edge x))) ∧
  (∀ (s : State) (d : BitVec 4) (w : Word), s.clk.shutdown = false → s.core.div = some (d.toNat, w) →
    (s.core.divAt + 34 ≤ s.cycle → exec .divComplete s = .next (({ s with core := { s.core with div := none } } : State).setDr d w)) ∧
    (s.cycle < s.core.divAt + 34 → exec .divComplete s = .next s)) ∧
  ∀ s : State, s.core.div = none → exec .divComplete s = .next s

/-- R366, R367; the counts are those of R399 and R401 with no prediction in use. That J and JA count in BR_CNT, and JA as mispredicted, is the
model's choice (log 35). -/
def Obligations.BranchesAndJumps : Prop :=
  ∀ (s : State) (a b : BitVec 4) (disp : BitVec 16) (far : BitVec 24), CoreReady s →
    let x := s.dr a
    let y := s.dr b
    let go := fun (p : Prop) [Decidable p] =>
      Outcome.goes (wentTo s (decide p) (decide p) (if p then s.core.pc + disp.signExtend 32 * 4 else s.core.pc + 4))
    exec (.cbEq a b disp) s = go (x = y) ∧
    exec (.cbNe a b disp) s = go (x ≠ y) ∧
    exec (.cbLt a b disp) s = go (x.toInt < y.toInt) ∧
    exec (.cbGe a b disp) s = go (y.toInt ≤ x.toInt) ∧
    exec (.cbLtu a b disp) s = go (x.toNat < y.toNat) ∧
    exec (.cbGeu a b disp) s = go (y.toNat ≤ x.toNat) ∧
    exec (.cbzEq a disp) s = go (x.toInt = 0) ∧
    exec (.cbzNe a disp) s = go (x.toInt ≠ 0) ∧
    exec (.cbzLt a disp) s = go (x.toInt < 0) ∧
    exec (.cbzGe a disp) s = go (0 ≤ x.toInt) ∧
    exec (.cbzGt a disp) s = go (0 < x.toInt) ∧
    exec (.cbzLe a disp) s = go (x.toInt ≤ 0) ∧
    exec (.j far) s = .next (wentTo s true false (s.core.pc + far.signExtend 32 * 4)) ∧
    (b.toNat < 8 → exec (.ja 0 b 0) s = .next (wentTo s true true (s.ar b)))

/-- R367 to R370. The underflow with RS_SPILL below RS_BASE, where R370 says equal, and the counts of CALL and CALLA are the model's choice (logs 37
and 35). -/
def Obligations.CallsAndReturns : Prop :=
  ∀ (s : State) (b : BitVec 4) (far : BitVec 24), CoreReady s →
    let pushed := fun (miss : Bool) (dest : Word) => ({ wentTo s true miss dest with core := { (wentTo s true miss dest).core with
      rs := { value := s.core.pc + 4, kind := 0, tag := s.priv } :: s.core.rs } } : State)
    (s.core.rs.length < 32 →
      exec (.call far) s = .next (pushed false (s.core.pc + far.signExtend 32 * 4)) ∧
      (b.toNat < 8 → exec (.calla 0 b 0) s = .next (pushed true (s.ar b)))) ∧
    (∀ e r, s.core.rs = e :: r →
      (e.kind = 0 → e.tag = s.priv →
        exec (.ret 0) s = .next { afterWord s with core := { (afterWord s).core with rs := r, pc := e.value, pq := [] } }) ∧
      (e.kind ≠ 0 ∨ e.tag ≠ s.priv → EntryReady s → exec (.ret 0) s = .next (entered s 6 0 s.core.pc))) ∧
    (s.core.rs = [] → s.core.rsSpill.toNat ≤ s.core.rsBase.toNat → EntryReady s → exec (.ret 0) s = .next (entered s 8 0 s.core.pc))

/-- R369, R372, R409, R411. Entries below the two on top are on chip or spilled as before. -/
def Obligations.TrapAndRete : Prop :=
  ∀ (s : State), CoreReady s → EntryReady s →
    (∀ imm : BitVec 8, exec (.trap 0 imm) s =
      .next (let t := entered s 11 imm.toNat (s.core.pc + 4)
        { t with core := { t.core with lastPc := s.core.pc, lastPriv := s.priv } })) ∧
    (s.priv = false → exec (.rete 0) s = .next (entered s 1 0 s.core.pc)) ∧
    (∀ p q r, s.core.rs = p :: q :: r → s.priv = true →
      (p.kind = 1 → q.kind = 2 → p.tag = q.tag → (q.value.getLsbD 0 = true → p.tag = true) →
        exec (.rete 0) s = .next { afterWord s with core := { (afterWord s).core with
          rs := r, pc := p.value, pq := [], status := q.value &&& 0xFF808F01 } }) ∧
      (p.kind ≠ 1 ∨ q.kind ≠ 2 → exec (.rete 0) s = .next (entered s 6 0 s.core.pc)) ∧
      (p.kind = 1 → q.kind = 2 → p.tag ≠ q.tag ∨ (q.value.getLsbD 0 = true ∧ p.tag = false) →
        exec (.rete 0) s = .next (entered s 1 0 s.core.pc)))

/-- R372, R386, R393, R397, R400, R403, R408, R510. That a BKPT which halts the core leaves the PC at its own word is the model's choice (logs 36
and 115). -/
def Obligations.SystemWords : Prop :=
  (∀ s : State, CoreReady s →
    exec (.nop 0 0) s = .next (afterWord s) ∧
    ((∀ e ∈ s.core.sb, e.addr < 0x200000) →
      (∃ t, exec (.sync 0 0) s = .next t ∧ t = (afterWord s).sbEmpty ∧ t.core = { (afterWord s).core with sb := [] }) ∧
      ∃ t, exec (.fenceI 0 0) s = .next t ∧
        t.core = { (afterWord s).core with sb := [], lines := [], lineBuf := none, pq := [], icache := s.core.ccCfg.getLsbD 0 }) ∧
    (s.sec.debugOpened = false → EntryReady s → exec (.bkpt 0 0) s = .next (entered s 10 0 s.core.pc)) ∧
    (s.sec.debugOpened = true → s.sec.zeroising = false → s.sec.scope % 2 = 1 →
      ∃ t, exec (.bkpt 0 0) s = .next t ∧ t.core.st = 4 ∧ t.core.pc = s.core.pc ∧ t.core.d = s.core.d) ∧
    (s.priv = true →
      exec (.wfi 0 0) s = .next { afterWord s with core := { (afterWord s).core with st := 2 } } ∧
      exec (.pflush 0 0) s = .next { afterWord s with core := { (afterWord s).core with btb := [], dir := [] } } ∧
      exec (.pbar 0 1) s = .next { afterWord s with core := { (afterWord s).core with bar := true } } ∧
      exec (.pbar 0 0) s = .next { afterWord s with core := { (afterWord s).core with bar := false } })) ∧
  (∀ s : State, s.clk.shutdown = false → s.core.st = 2 →
    let wakes := s.core.nmi = true ∨ ∃ n < 64, s.irqPend n = true ∧ s.core.irqEn.getLsbD n = true ∧
      (s.core.status.toNat / 512) % 8 < ((atV s.core.prio (n / 8) 0).toNat / 2 ^ (4 * (n % 8))) % 8
    (wakes → exec .wfiWake s = .next { s with core := { s.core with st := 1 } }) ∧ (¬ wakes → exec .wfiWake s = .next s)) ∧
  ∀ s : State, exec .timerCompare s = .next { s with core := { s.core with timerHit := decide (s.core.timecmp.toNat ≤ s.cycle) } }

/-- R351 to R353, R369, R372, R373, R379. The words are those of the spec's worked example; on an empty queue the core takes the word at its
PC by itself (DESIGN CHOICE, log 7). -/
def Obligations.PrivilegedWordsTrapInUserMode : Prop :=
  (∀ (c : Instr) (w next : Word), coreEncode c = some w → (∀ z n x, c = .rep z n x ∨ c = .repi z n x → x = next) →
    coreDecode w next = some (exec c)) ∧
  (∀ next, coreDecode 0x0231FFFB next = some (exec (.addImm 3 1 0xFFFB)) ∧ coreDecode 0x14200008 next = some (exec (.ldW 2 0 0 8)) ∧
    coreDecode 0x13218002 next = some (exec (.ldHu 2 1 2 2)) ∧ coreDecode 0x2A30FFFD next = some (exec (.cbLt 3 0 0xFFFD)) ∧
    coreDecode 0x20101004 next = some (exec (.accr 1 0 0 16)) ∧ coreDecode 0x92288618 next = some (exec (.pairedWord 0x12288618))) ∧
  (∀ w next : Word, w.msb = false →
    let major := (w.extractLsb' 24 7).toNat
    let func := (w.extractLsb' 0 8).toNat
    major ∉ [0x01, 0x02, 0x03, 0x04, 0x05, 0x06, 0x08, 0x09, 0x10, 0x11, 0x12, 0x13, 0x14, 0x15, 0x16, 0x17, 0x18, 0x19, 0x1A, 0x1B, 0x1C, 0x20,
        0x21, 0x28, 0x29, 0x2A, 0x2B, 0x2C, 0x2D, 0x2E, 0x30, 0x31, 0x32, 0x33, 0x34, 0x35, 0x36, 0x37, 0x38, 0x39, 0x3A, 0x3C, 0x3D] ∨
      (major = 0x01 ∧ 0x0D < func) ∨ (major = 0x20 ∧ 6 < func) ∨ (major = 0x21 ∧ 3 < func) ∨ (major = 0x38 ∧ 7 < func) ∨
      (major = 0x2E ∧ 5 < (w.extractLsb' 16 4).toNat) → coreDecode w next = none) ∧
  (∀ (s : State) (w : Word), s.pending = [] →
    let n : State := { s with ts := s.ts + 1 }
    CoreReady n → n.clk.shutdown = false → n.codeWord = some w →
      let next := (n.wordAt (n.core.pc.toNat + 4)).getD 0
      (∀ c, coreEncode c = some w → (∀ z k x, c = .rep z k x ∨ c = .repi z k x → x = next) → step s = exec c n) ∧
      (coreDecode w next = none → EntryReady n → step s = .next (entered n 0 0 n.core.pc))) ∧
  ∀ (s : State) (r : BitVec 4) (n : BitVec 12) (z imm : BitVec 8) (z24 : BitVec 24), CoreReady s → EntryReady s → s.priv = false →
    let denied := Outcome.goes (entered s 1 0 s.core.pc)
    let undefd := Outcome.goes (entered s 0 0 s.core.pc)
    exec (.rete z24) s = (if z24 = 0 then denied else undefd) ∧
    exec (.wfi z imm) s = (if z = 0 ∧ imm = 0 then denied else undefd) ∧
    exec (.pflush z imm) s = (if z = 0 ∧ imm = 0 then denied else undefd) ∧
    exec (.pbar z imm) s = (if z = 0 ∧ imm.toNat < 2 then denied else undefd) ∧
    (2 < n.toNat → exec (.mfc r z n) s = (if z = 0 ∧ (s.csr n.toNat).isSome = true then denied else undefd)) ∧
    (2 < n.toNat → exec (.mtc r z n) s = (if z = 0 ∧ csrWritable n.toNat = true then denied else undefd))

/-- R373, R410, R415. -/
def Obligations.CsrReadsAndWrites : Prop :=
  ∀ (s : State) (r : BitVec 4), CoreReady s → s.priv = true →
    let w := s.dr r
    let set := fun (f : Core → Core) =>
      Outcome.goes ({ afterWord s with core := f (afterWord s).core } : State)
    (∀ (n : BitVec 12) v, (afterWord s).csr n.toNat = some v → n ≠ 1 → exec (.mfc r 0 n) s = .next (wroteD s r v)) ∧
    exec (.mfc r 0 1) s = .next (({ afterWord s with core := { (afterWord s).core with
      cycHi := BitVec.ofNat 32 (s.cycle / 2 ^ 32) } } : State).setDr r (BitVec.ofNat 32 s.cycle)) ∧
    exec (.mtc r 0 0x000) s = set (fun c => { c with accst := w &&& 7 }) ∧
    exec (.mtc r 0 0x010) s = set (fun c => { c with status := w &&& 0x8F01 }) ∧
    exec (.mtc r 0 0x013) s = set (fun c => { c with vbase := w &&& 0xFFFFFC00 }) ∧
    exec (.mtc r 0 0x014) s = set (fun c => { c with a7u := w }) ∧
    exec (.mtc r 0 0x015) s = set (fun c => { c with a7p := w }) ∧
    exec (.mtc r 0 0x018) s = set (fun c => { c with rsBase := w &&& 0xFFFFFFF8 }) ∧
    exec (.mtc r 0 0x019) s = set (fun c => { c with rsLimit := w &&& 0xFFFFFFF8 }) ∧
    exec (.mtc r 0 0x01A) s = set (fun c => { c with rsSpill := w &&& 0xFFFFFFF8 }) ∧
    exec (.mtc r 0 0x020) s = set (fun c => { c with ccCfg := w &&& 1 }) ∧
    exec (.mtc r 0 0x028) s = set (fun c => { c with brCnt := w }) ∧
    exec (.mtc r 0 0x029) s = set (fun c => { c with mispCnt := w }) ∧
    exec (.mtc r 0 0x034) s = set (fun c => { c with swi := w.getLsbD 0 }) ∧
    exec (.mtc r 0 0x032) s = set (fun c => { c with irqEn := c.irqEn.extractLsb' 32 32 ++ w }) ∧
    exec (.mtc r 0 0x033) s = set (fun c => { c with irqEn := w ++ c.irqEn.extractLsb' 0 32 }) ∧
    (∀ k : Fin 8, exec (.mtc r 0 (0x038 + BitVec.ofNat 12 k.val)) s = set (fun c => { c with prio := c.prio.set k (w &&& 0x77777777) })) ∧
    (let lo := s.core.timecmp.extractLsb' 32 32 ++ w
     let hi := w ++ s.core.timecmp.extractLsb' 0 32
     exec (.mtc r 0 0x040) s = set (fun c => { c with timecmp := lo, timerHit := decide (lo.toNat ≤ s.cycle) }) ∧
     exec (.mtc r 0 0x041) s = set (fun c => { c with timecmp := hi, timerHit := decide (hi.toNat ≤ s.cycle) })) ∧
    (∀ v, (afterWord s).csr 0x010 = some v → v = s.core.status) ∧
    (EntryReady s → ∀ n ∈ [(0x001 : BitVec 12), 0x002, 0x011, 0x012, 0x01B, 0x021, 0x030, 0x031, 0x003, 0x016, 0x035, 0xFFF],
      exec (.mtc r 0 n) s = .next (entered s 0 0 s.core.pc))

/-- R374 to R377. -/
def Obligations.RepeatsAndPairs : Prop :=
  (∀ (s : State) (n : BitVec 8) (next : Word), CoreReady s → s.core.status.toNat < 2 ^ 23 →
    (next.msb = true ∨ next.extractLsb' 24 8 ∈ [(0x01 : BitVec 8), 0x02, 0x03, 0x04, 0x05, 0x06, 0x08, 0x09, 0x10, 0x11, 0x12, 0x13, 0x14, 0x15,
        0x16, 0x17, 0x18, 0x19, 0x1A, 0x1B, 0x1C, 0x20, 0x36, 0x37] →
      (∃ t, exec (.rep 0 n next) s = .next t ∧ t.core.pc = s.core.pc + 4 ∧ t.core.d = s.core.d ∧
        t.core.rep = some { pfx := s.core.pc, left := n.toNat + 1, irq := false, got := false }) ∧
      ∃ t, exec (.repi 0 n next) s = .next t ∧ t.core.pc = s.core.pc + 4 ∧ t.core.d = s.core.d ∧
        t.core.rep = some { pfx := s.core.pc, left := n.toNat + 1, irq := true, got := false }) ∧
    (EntryReady s → next.extractLsb' 24 8 ∈ [(0x28 : BitVec 8), 0x29, 0x2A, 0x2B, 0x2C, 0x2D, 0x2E, 0x30, 0x31, 0x32, 0x33, 0x34, 0x35, 0x38,
        0x39, 0x3A, 0x3C, 0x3D] →
      exec (.rep 0 n next) s = .next (entered s 0 0 s.core.pc) ∧ exec (.repi 0 n next) s = .next (entered s 0 0 s.core.pc)) ∧
    (next.extractLsb' 24 8 = 0x21 → (EntryReady s → exec (.rep 0 n next) s = .next (entered s 0 0 s.core.pc)) ∧
      ∃ t, exec (.repi 0 n next) s = .next t ∧ t.core.rep = some { pfx := s.core.pc, left := n.toNat + 1, irq := true, got := false })) ∧
  (∀ (s : State) (d a b : BitVec 4) (m : BitVec 2) (i16 : BitVec 16) (i20 : BitVec 20) (r : RepSt), s.core.st = 1 → s.clk.shutdown = false →
      s.core.pc.toNat < 0x1C0000 → s.nmiReady = false → s.irqReady = false → s.core.rep = some r → s.core.div = none → r.got = true →
      0 < r.left →
    let on := fun (t : State) => (1 < r.left → t.core.pc = s.core.pc ∧ t.core.rep = some { r with left := r.left - 1 }) ∧
      (r.left = 1 → t.core.pc = s.core.pc + 4 ∧ t.core.rep = none)
    (∃ t, exec (.add d a b 0) s = .next t ∧ t.dr d = s.dr a + s.dr b ∧ on t) ∧
    (∃ t, exec (.addImm d a i16) s = .next t ∧ t.dr d = s.dr a + i16.signExtend 32 ∧ on t) ∧
    (∃ t, exec (.movi d i20) s = .next t ∧ t.dr d = i20.signExtend 32 ∧ on t) ∧
    (∃ t, exec (.mac 0 m a b 0) s = .next t ∧ t.acc m = s.acc m + BitVec.ofInt 72 ((s.dr a).toInt * (s.dr b).toInt) ∧ on t) ∧
    (d.toNat < 8 → b.toNat < 8 → ∃ t, exec (.adda d b i16) s = .next t ∧ t.ar d = s.ar b + i16.signExtend 32 ∧ on t) ∧
    ∃ t, exec (.pairedWord 0) s = .next t ∧ t.core.d = s.core.d ∧ t.core.a = s.core.a ∧ on t) ∧
  ∀ (s : State) (p q u v : BitVec 4) (n7 : BitVec 7) (n5 : BitVec 5) (n8 : BitVec 8) (g : BitVec 3) (ofs : BitVec 4), CoreReady s →
    -- the operation `x` beside NOP.s, on either side
    let alone := fun (x : BitVec 15) (t : State) =>
      exec (.pairedWord (x ++ (0 : BitVec 15) ++ (0 : BitVec 1))) s = .next t ∧ exec (.pairedWord ((0 : BitVec 15) ++ x ++ (0 : BitVec 1))) s = .next t
    let ab : BitVec 4 := (0 : BitVec 1) ++ g
    let ea := s.ar ab + (ofs ++ (0 : BitVec 2)).setWidth 32
    alone 0 (afterWord s) ∧
    (∀ x ∈ [((1 : BitVec 4), s.dr q), (2, s.dr p + s.dr q), (3, s.dr p - s.dr q), (4, s.dr p &&& s.dr q), (5, s.dr p ||| s.dr q),
      (6, s.dr p ^^^ s.dr q)], alone (x.1 ++ p ++ q ++ (0 : BitVec 3)) (wroteD s p x.2)) ∧
    alone ((7 : BitVec 4) ++ p ++ n7) (wroteD s p (s.dr p + n7.signExtend 32)) ∧
    alone ((8 : BitVec 4) ++ p ++ n5 ++ (0 : BitVec 2)) (wroteD s p (s.dr p <<< n5.toNat)) ∧
    alone ((9 : BitVec 4) ++ p ++ n5 ++ (0 : BitVec 2)) (wroteD s p (s.dr p >>> n5.toNat)) ∧
    alone ((12 : BitVec 4) ++ g ++ n8) (wroteA s ab (s.ar ab + n8.signExtend 32)) ∧
    (s.core.sb = [] → s.core.rsLimit = 0 → ea.toNat + 4 ≤ 0x1C0000 →
      let mem := fun k => memGet ramDefault s.mtx.spm (ea.toNat + k)
      alone ((10 : BitVec 4) ++ p ++ g ++ ofs) (wroteD s p (mem 3 ++ mem 2 ++ mem 1 ++ mem 0)) ∧
      (ea.toNat % 4 = 0 → alone ((11 : BitVec 4) ++ p ++ g ++ ofs) { afterWord s with core := { (afterWord s).core with
        sb := [{ addr := ea.toNat, data := leBytes 4 (s.dr p).toNat }] } })) ∧
    let add := fun (d r : BitVec 4) => (2 : BitVec 4) ++ d ++ r ++ (0 : BitVec 3)
    (p ≠ u → p ≠ v → q ≠ u →
      exec (.pairedWord (add p q ++ add u v ++ (0 : BitVec 1))) s =
        .next ((wroteD s p (s.dr p + s.dr q)).setDr u (s.dr u + s.dr v))) ∧
    (EntryReady s → p = u ∨ p = v ∨ q = u →
      exec (.pairedWord (add p q ++ add u v ++ (0 : BitVec 1))) s = .next (entered s 0 0 s.core.pc)) ∧
    (EntryReady s → exec (.pairedWord (add p q ++ add u v ++ (1 : BitVec 1))) s = .next (entered s 0 0 s.core.pc))

/-- R404, R405, R409. -/
def Obligations.InterruptsAndNmi : Prop :=
  (∀ s : State, s.clk.shutdown = false → s.core.st = 1 → s.core.rep = none → s.core.div = none → EntryReady s →
    (∀ l n, s.irqBest = some (l, n) → s.core.status.getLsbD 8 = true → s.core.nmi = false →
      ∃ t, exec .interruptEntry s = .next t ∧ t.core.pc = s.core.vbase + BitVec.ofNat 32 (8 * (0x20 + n)) ∧
        t.core.rs = { value := s.core.pc, kind := 1, tag := s.priv } :: { value := s.core.status, kind := 2, tag := s.priv } :: s.core.rs ∧
        (t.core.status.toNat / 512) % 8 = l % 8 ∧ t.priv = true ∧ t.core.d = s.core.d ∧ t.core.a = s.core.a ∧ t.core.a7p = s.core.a7p) ∧
    (s.irqBest = none ∨ s.core.status.getLsbD 8 = false → exec .interruptEntry s = .next s) ∧
    (s.core.nmi = true → s.core.status.getLsbD 15 = false →
      ∃ t, exec .nmiEntry s = .next t ∧ t.core.pc = s.core.vbase + 0x80 ∧ t.core.nmi = false ∧ t.core.status.getLsbD 15 = true ∧
        t.core.rs = { value := s.core.pc, kind := 1, tag := s.priv } :: { value := s.core.status, kind := 2, tag := s.priv } :: s.core.rs ∧
        t.priv = true ∧ t.core.d = s.core.d) ∧
    (s.core.status.getLsbD 15 = true ∨ s.core.nmi = false → exec .nmiEntry s = .next s)) ∧
  (∀ (s : State) (l n : Nat), s.irqBest = some (l, n) →
    s.irqPend n = true ∧ s.core.irqEn.getLsbD n = true ∧ (s.core.status.toNat / 512) % 8 < l ∧
      l = ((atV s.core.prio (n / 8) 0).toNat / 2 ^ (4 * (n % 8))) % 8 ∧
      ∀ m < 64, s.irqPend m = true → s.core.irqEn.getLsbD m = true →
        let k := ((atV s.core.prio (m / 8) 0).toNat / 2 ^ (4 * (m % 8))) % 8
        (s.core.status.toNat / 512) % 8 < k → k < l ∨ (k = l ∧ n ≤ m)) ∧
  ∀ s : State, s.core.st = 1 → (s.slotAt 6).valid = false → (s.slotAt 7).valid = false →
    (s.core.nmiLevel = false → exec (.nmiRequest true) s =
      .next { s with core := { s.core with nmiPin := true, nmiLevel := true, nmi := true } }) ∧
    (s.core.nmiLevel = true → exec (.nmiRequest true) s = .next { s with core := { s.core with nmiPin := true } }) ∧
    exec (.nmiRequest false) s = .next { s with core := { s.core with nmiPin := false, nmiLevel := false } }

/-! Position timebase and output timing -/

/-- R33 to R36. Levels are followed in reset, and the first level of A, and of B, after a moment at which R34 sets the input silently is
taken and is no edge of that input; `pa` and `pb` are the levels that the new ones are held against. -/
def Obligations.EncoderEdgesCount : Prop :=
  ∀ (s : State) (n : Fin 4) (la lb : Option Bool) (stamp : Nat),
    let e := s.enc n
    let a := la.getD e.a
    let b := lb.getD e.b
    let pa := if e.quietA then a else e.a
    let pb := if e.quietB then b else e.b
    let mode := s.rf (rIoxEncCfg n) 1 0
    let filt := s.rf (rIoxEncCfg n) 15 8
    let onlyEnc := fun (u t : State) => t = { u with pos := { s.pos with enc := t.pos.enc } } ∧ ∀ m : Fin 4, m ≠ n → t.enc m = s.enc m
    (s.sys.powered = false ∨ s.sys.resetN = false →
      exec (.encoderEdge n la lb stamp) s = .next (s.updEnc n fun e => { e with a := a, b := b })) ∧
    (s.sys.powered = true → s.sys.resetN = true → s.ts < stamp + filt → exec (.encoderEdge n la lb stamp) s = .next s) ∧
    (s.sys.powered = true → s.sys.resetN = true → stamp + filt ≤ s.ts →
      let quiet := s.updEnc n fun e => { e with a := a, b := b, quietA := e.quietA && la.isNone, quietB := e.quietB && lb.isNone }
      (a = pa → b = pb → exec (.encoderEdge n la lb stamp) s = .next quiet) ∧
      ((mode = 1 ∧ a = pa) ∨ (mode = 2 ∧ a = pa) ∨ (mode = 2 ∧ a = false ∧ b = pb) ∨ (mode = 3 ∧ (a = false ∨ pa = true)) →
        exec (.encoderEdge n la lb stamp) s = .next quiet) ∧
      ((∀ u, e.lastStamp = some u → u + 32 ≤ stamp) →
        (mode = 0 ∧ a ≠ pa ∧ b = pb) ∨ (mode = 0 ∧ a = pa ∧ b ≠ pb) ∨ (mode = 1 ∧ a ≠ pa ∧ b = pb) ∨
          (mode = 2 ∧ a = true ∧ pa = false ∧ b = pb) ∨ (mode = 3 ∧ a = true ∧ pa = false) →
        let up := if mode = 3 then !b else if a = pa then a == b else a != b
        ∃ t, exec (.encoderEdge n la lb stamp) s = .next t ∧ onlyEnc s t ∧ (t.enc n).count = (if up then e.count + 1 else e.count - 1) ∧
          (t.enc n).lastStamp = some stamp ∧ (t.enc n).a = a ∧ (t.enc n).b = b ∧ (t.enc n).qerrCnt = e.qerrCnt ∧ (t.enc n).ovsp = e.ovsp ∧
          (t.enc n).quietA = (e.quietA && la.isNone) ∧ (t.enc n).quietB = (e.quietB && lb.isNone)) ∧
      (mode ≠ 3 → a ≠ pa → b ≠ pb → CanReport s evEncQuadErr 0 →
        ∃ t, exec (.encoderEdge n la lb stamp) s = .next t ∧ (t.enc n).count = e.count ∧ (t.enc n).qerrCnt = e.qerrCnt + 1 ∧
          (t.enc n).qerr = true ∧ (t.enc n).lastStamp = e.lastStamp ∧
          (e.qerr = true → onlyEnc s t) ∧ (e.qerr = false → onlyEnc (s.noting t) t ∧ Reported s t evEncQuadErr 0)))

/-- R60, R61, R248, R288. -/
def Obligations.ZAndGpiEdges : Prop :=
  (∀ (s : State) (n : Fin 4) (stamp : Nat), s.sys.powered = true → s.sys.resetN = true → stamp + s.rf (rIoxEncCfg n) 15 8 ≤ s.ts →
    (s.rbit (rIoxEncCfg n) 3 = false → ∀ l, exec (.zEdge n l stamp) s = .next (s.updEnc n fun e => { e with z := l, quietZ := false })) ∧
    (∀ l, (s.enc n).quietZ = true →
      exec (.zEdge n l stamp) s = .next (s.updEnc n fun e => { e with z := l, quietZ := false })) ∧
    (s.rbit (rIoxEncCfg n) 3 = true → (s.enc n).quietZ = false → exec (.zEdge n (s.enc n).z stamp) s = .next s) ∧
    (s.rbit (rIoxEncCfg n) 3 = true → (s.enc n).quietZ = false → (s.enc n).z = false →
      ∃ t, exec (.zEdge n true stamp) s = .next t ∧ (t.enc n).zcap = (s.enc n).count ∧ (t.enc n).z = true ∧
        (t.enc n).count = (s.enc n).count ∧ (∀ d : Fin 16, t.pos.dom[d].coord = s.pos.dom[d].coord ∧ t.pos.dom[d].lock = s.pos.dom[d].lock) ∧
        (∀ c : Fin 8, 6 ≤ c.val → t.psq.cx[c].zLatch[n] = some stamp) ∧ ∀ c : Fin 8, c.val < 6 → t.psq.cx[c] = s.psq.cx[c])) ∧
  ∀ (s : State) (b : Fin 16) (stamp : Nat), s.sys.powered = true → s.sys.resetN = true → stamp + s.rf rIoxGpiFilt 7 0 ≤ s.ts → s.MemWf →
    (∀ l, s.res.gpiQuiet[b] = true →
      exec (.gpiEdge b l stamp) s = .next { s with res := { s.res with
        gpi := s.res.gpi.set b l, gpiQuiet := s.res.gpiQuiet.set b false } }) ∧
    (s.res.gpiQuiet[b] = false → ∀ l, s.res.gpi[b] = l → exec (.gpiEdge b l stamp) s = .next s) ∧
    ∀ l, s.res.gpiQuiet[b] = false → s.res.gpi[b] = !l →
      ∃ t, exec (.gpiEdge b l stamp) s = .next t ∧ t.res = { s.res with gpi := s.res.gpi.set b l } ∧
        t.reg rIoxGpiEdge = s.reg rIoxGpiEdge ||| w32 (if l then 2 ^ b.val else 2 ^ (16 + b.val)) ∧
        (∀ o, o ≠ rIoxGpiEdge → t.reg o = s.reg o) ∧ (∀ d : Fin 16, t.pos.dom[d].coord = s.pos.dom[d].coord) ∧
        ∀ c : Fin 8, 6 ≤ c.val → (if l then t.psq.cx[c].rLatch[b] else t.psq.cx[c].fLatch[b]) = some stamp

/-- R37, R63 to R65. -/
def Obligations.ReceiverFaults : Prop :=
  (∀ (s : State) (n : Fin 4), exec (.encRxFault n .z) s = .next (s.updEnc n fun e => { e with rxfZ := true })) ∧
  (∀ (s : State) (n : Fin 4) (p : EncPair) (d : Fin 16), p ≠ .z → s.encFaulty n = false → s.domsOn n = [d.val] → s.dCheckEn d = false →
    (s.dom d).lock = .locked → s.peat.queue.length + 3 ≤ 1024 →
    ∃ t, exec (.encRxFault n p) s = .next t ∧ t.encFaulty n = true ∧ (t.enc n).count = (s.enc n).count ∧
      t.pos.dom[d].lock = .coast ∧ t.pos.dom[d].acc = 0 ∧ t.pos.dom[d].v = s.pos.dom[d].v ∧ t.pos.dom[d].coord = s.pos.dom[d].coord ∧
      t.pos.dom[d].coastCnt = s.pos.dom[d].coastCnt + 1 ∧ t.pos.dom[d].coastSince = s.ts ∧
      (∀ e : Fin 16, e ≠ d → t.pos.dom[e] = s.pos.dom[e]) ∧ t.pos.toLd = s.pos.toLd ∧ t.balls = s.balls ∧
      atV t.eru.cnt 2 0 = (atV s.eru.cnt 2 0 + 2) % 2 ^ 32 ∧ t.peat.queue.length = s.peat.queue.length + 3) ∧
  (∀ (s : State) (n : Fin 4) (p : EncPair), s.domsOn n = [] → (∀ d : Fin 16, (s.cwAt d).standby = false) →
    exec (.encRxFaultClear n p) s = .next (s.updEnc n fun e => e.setRxf p false)) ∧
  ∀ (s : State) (n : Fin 4) (p : EncPair) (d : Fin 16), s.domsOn n = [d.val] → s.encFaulty n = true →
    ((s.enc n).setRxf p false).rxfA = false → ((s.enc n).setRxf p false).rxfB = false →
    ((s.dom d).lock = .coast →
      ∃ t, exec (.encRxFaultClear n p) s = .next t ∧ t.encFaulty n = false ∧ t.pos.dom[d].lock = .acquire ∧
        t.pos.dom[d].coord = s.coordNow d ∧ t.pos.dom[d].base = s.coordNow d ∧ t.pos.dom[d].hist = [] ∧ t.pos.dom[d].hwm = s.pos.dom[d].hwm ∧
        ∀ e : Fin 16, e ≠ d → t.pos.dom[e] = s.pos.dom[e]) ∧
    ((s.dom d).lock = .off →
      ∃ t, exec (.encRxFaultClear n p) s = .next t ∧ t.encFaulty n = false ∧ t.pos.dom = s.pos.dom.set d { s.pos.dom[d] with lock := .acquire })

/-- R42, R43, R63, R64, R333: the timers move the domain, in whatever lock state, and the shadow of a standby root by its own newest edge. That
the velocity of a domain in COAST stands until it is LOST is the model's choice (log 11). -/
def Obligations.MotionAndLockTimers : Prop :=
  ∀ (s : State) (d : Fin 16), s.clk.shutdown = false → s.rootDom d = d →
    let m := s.dom d
    let sh := s.pos.shadowDom[d]
    let moved := fun (f : Domain → Domain) => ({ s with pos := { s.pos with dom := s.pos.dom.set d (f m) } } : State)
    let creep := fun (m : Domain) => { m with motion := Motion.creep }
    let stop := fun (m : Domain) =>
      if m.lock = .coast then { m with motion := Motion.stopped } else { m with motion := Motion.stopped, v := 0, acc := 0 }
    (∀ t, m.tPrev = some t → m.lock ≠ .off → m.motion ≠ .stopped →
      let u := if t + s.dCreepT d < s.ts then moved creep else s
      ((∀ q, sh.tPrev = some q → sh.motion = .stopped ∨ s.ts ≤ q + s.dCreepT d) → exec (.motionCreepTimeout d) s = .next u) ∧
      ∀ q, sh.tPrev = some q → q + s.dCreepT d < s.ts → sh.motion ≠ .stopped → exec (.motionCreepTimeout d) s =
        .next { u with pos := { u.pos with shadowDom := s.pos.shadowDom.set d (creep sh) } }) ∧
    (∀ t, m.tPrev = some t → m.lock ≠ .off →
      let u := if t + s.dTStop d ≤ s.ts then moved stop else s
      ((∀ q, sh.tPrev = some q → s.ts < q + s.dTStop d) → exec (.motionStopTimeout d) s = .next u) ∧
      ∀ q, sh.tPrev = some q → q + s.dTStop d ≤ s.ts → exec (.motionStopTimeout d) s =
        .next { u with pos := { u.pos with shadowDom := s.pos.shadowDom.set d (stop sh) } }) ∧
    (m.lock = .coast → s.ts < m.coastSince + 1600000 → exec (.coastLostTimeout d) s = .next s) ∧
    (m.lock = .coast → m.coastSince + 1600000 ≤ s.ts →
      ∃ t, exec (.coastLostTimeout d) s = .next t ∧ t.pos.dom[d].lock = .lost ∧ t.pos.dom[d].coord = s.coordNow d ∧
        t.pos.dom[d].hwm = max m.hwm (s.coordNow d) ∧ t.balls = s.balls ∧ (∀ e : Fin 16, e ≠ d → t.pos.dom[e] = s.pos.dom[e]) ∧
        ∀ g : Fin 32, g.val ∈ s.gensOf d → ∀ x ∈ t.pos.gen[g].trigs, x.cancelled = true) ∧
    (m.lock ≠ .coast → exec (.coastCoordUpdate d) s = .next s ∧ exec (.coastLostTimeout d) s = .next s) ∧
    (m.lock = .coast → (∀ g : Fin 32, s.pos.gen[g].gated = []) → (∀ t < 4, s.rbit (rPosTtCtrl t) 0 = false) → s.coordNow d ≤ m.hwm →
      exec (.coastCoordUpdate d) s = .next (moved fun m => { m with coord := s.coordNow d }))

/-- R38, R40, R42, R46, R50, R62. -/
def Obligations.ReportsAndChecks : Prop :=
  (∀ (s : State) (n : Fin 4) (r : EdgeReport) (rest : List EdgeReport), (s.enc n).closed = r :: rest →
    exec (.edgeReportSend n) s = .next { s with pos := { s.pos with
      enc := s.pos.enc.set n { s.enc n with closed := rest }, reports := s.pos.reports ++ [r] } }) ∧
  (∀ (s : State) (n : Fin 4) (r : EdgeReport), (s.enc n).closed = [] → (s.enc n).openRep = some r →
    exec (.edgeReportSend n) s = .next (if (r.first + s.rf (rIoxEncCfg n) 15 8) / 64 < s.ts / 64 then
      { s with pos := { s.pos with enc := s.pos.enc.set n { s.enc n with openRep := none }, reports := s.pos.reports ++ [r] } } else s)) ∧
  (∀ (s : State) (r : EdgeReport) (rest : List EdgeReport), s.clk.shutdown = false → s.pos.reports = r :: rest →
    ((∀ d < 16, s.dEn d = false) → s.res.held = [] →
      exec .edgeReportReceive s = .next { s with pos := { s.pos with reports := rest } }) ∧
    ∀ d : Fin 16, s.rootDom d = d → (∀ e < 16, e ≠ d.val → s.dEn e = false) → s.onEncoder d = true → s.dEncNow d = r.enc →
      (s.dom d).lock = .locked → s.encFaulty r.enc = false → s.encInvert r.enc = r.up →
      ∃ t, exec .edgeReportReceive s = .next t ∧ t.pos.reports = rest ∧ t.pos.dom[d].motion = .reverse ∧
        t.pos.dom[d].tPrev = some r.newest ∧ t.pos.dom[d].hist = [(if r.up then -r.count else r.count, r.newest)] ∧
        t.pos.dom[d].hwm = s.pos.dom[d].hwm ∧ t.pos.dom[d].lock = .locked ∧
        ∀ g : Fin 32, g.val ∈ s.gensOf d → ∀ x ∈ t.pos.gen[g].trigs, x.cancelled = true) ∧
  (∀ (s : State) (d : Fin 16) (r : EdgeReport) (rest : List EdgeReport) (c0 : Int) (t0 p : Nat), s.clk.shutdown = false →
    s.pos.reports = r :: rest → s.rootDom d = d → (∀ e < 16, e ≠ d.val → s.dEn e = false) → s.onEncoder d = true → s.dEncNow d = r.enc →
    (s.dom d).lock = .locked → (s.dom d).everLocked = true → s.encFaulty r.enc = false → r.up = !s.encInvert r.enc →
    (s.dom d).hist = [(c0, t0)] → (s.dom d).tPrev = some p →
    let m := s.dom d
    let c := if r.up then r.count else -r.count
    let x := m.base + (c - m.c0) * (s.dScale d : Int) / 2 ^ 32
    let full := t0 + s.dTMin d ≤ r.newest ∧ c0 + (s.dNMin d : Int) ≤ c
    ∃ t, exec .edgeReportReceive s = .next t ∧ t.pos.reports = rest ∧
      (let y := t.pos.dom[d]
       y.coord = x ∧ y.hwm = max m.hwm x ∧ y.tPrev = some r.newest ∧ y.hist = [(c, r.newest), (c0, t0)] ∧ y.lock = .locked ∧
       (full → y.v = ((c - c0) * (s.dScale d : Int)).tdiv ((r.newest - t0 : Nat) : Int) ∧ y.acc = 0 ∧ y.pe = x ∧ y.te = r.newest ∧
         (s.dCreepT d < r.newest - p → y.motion = .creep) ∧ (2 * (r.newest - p) ≤ s.dCreepT d → y.motion = .track) ∧
         (s.dCreepT d < 2 * (r.newest - p) → r.newest - p ≤ s.dCreepT d →
           y.motion = if m.motion = .stopped ∨ m.motion = .reverse then .creep else m.motion)) ∧
       (¬ full → y.motion = .creep ∧ y.v = m.v ∧ y.acc = m.acc)) ∧
      ∀ g : Fin 32, s.gensOf d = [g.val] → s.live = true → s.psq.gateOff[g] = false → 0 < s.dPitch d → 0 < s.dScale d → r.first = r.newest →
        s.pos.gen[g].prevFire = none → s.pos.gen[g].lossFrom = none → s.rbit (rPosTgPhase g) 21 = false → ¬ full →
        let k := s.nextLine g
        let fire := 16 * ((r.newest : Int) + 1000) + s.gComp g
        (x < s.target g k → t.pos.gen[g].trigs = s.pos.gen[g].trigs) ∧
        (s.target g k ≤ x → x < s.target g (k + (s.gDiv1 g : Int)) → ∃ tr : Trig, t.pos.gen[g].trigs = s.pos.gen[g].trigs ++ [tr] ∧
          tr.k = k ∧ tr.fire = fire ∧ tr.target = s.target g k ∧ tr.x = s.lineX d k ∧ tr.creep = true ∧ tr.cancelled = false ∧
          LdMsg.event { id := tr.id, kind := .trg g, time := fire } ∈ t.pos.toLd)) ∧
  ∀ (s : State) (d : Fin 16), s.clk.shutdown = false → s.rootDom d = d → s.dCheckEn d = true → (s.dom d).onCheck = false → (s.dom d).everLocked = true →
    s.onEncoder d = true → CanReport s evPosCheckDiff 0 →
    let p := s.encCount (s.dEncSel d)
    let c := s.encCount (s.dCheckEnc d)
    let dp := (p - (s.dom d).cmpP) * (s.reg64 (rPosDScaleLo d) : Int) / 2 ^ 32
    let dc := (c - (s.dom d).cmpC) * (s.reg64 (rPosDCscaleLo d) : Int) / 2 ^ 32
    let u : State := { s with pos := { s.pos with dom := s.pos.dom.set d ({ s.dom d with cmpP := p, cmpC := c } : Domain) } }
    (dp.natAbs < 1000000000 → exec (.posCheckCompare d) s = .next s) ∧
    (1000000000 ≤ dp.natAbs → (dc - dp).natAbs ≤ 1000 * s.dCheckTol d → exec (.posCheckCompare d) s = .next u) ∧
    (1000000000 ≤ dp.natAbs → 1000 * s.dCheckTol d < (dc - dp).natAbs →
      ∃ t, exec (.posCheckCompare d) s = .next t ∧ t = u.noting t ∧ Reported u t evPosCheckDiff 0)

/-- R13, R14, R31, R46, R52, R56, R59, R89, R282, R283, R289. A message of a lost die link is lost. Which counter a late phase event takes is
the model's choice (log 121). -/
def Obligations.OutputEventsAndPulses : Prop :=
  (∀ (s : State) (r : List LdMsg), s.sys.dieLink = false →
    (∀ e, s.pos.toLd = .event e :: r → exec .outputEventArrive s = .next { s with pos := { s.pos with toLd := r } }) ∧
    ∀ id, s.pos.toLd = .cancel id :: r → exec .outputCancelArrive s = .next { s with pos := { s.pos with toLd := r } }) ∧
  (∀ (s : State) (e : OutEvent) (r : List LdMsg), s.sys.dieLink = true → s.pos.toLd = .event e :: r →
    (16 * (s.ts : Int) ≤ e.time →
      exec .outputEventArrive s = .next { s with pos := { s.pos with toLd := r, held := s.pos.held ++ [e] } }) ∧
    (∀ g : Fin 32, e.kind = .trg g → e.time < 16 * (s.ts : Int) → (∀ t ∈ s.pos.gen[g].trigs, t.id ≠ e.id) →
      ∃ t, exec .outputEventArrive s = .next t ∧ t.pos.held = s.pos.held ∧ t.pos.toLd = r ∧ t.balls = s.balls ∧
        t.pos.gen = s.pos.gen.set g { s.pos.gen[g] with lateCnt := s.pos.gen[g].lateCnt + 1 } ∧ t.mrk = s.mrk) ∧
    (∀ (g : Fin 32) (b c : Nat), e.kind = .phase g b c → e.time < 16 * (s.ts : Int) →
      ∃ t, exec .outputEventArrive s = .next t ∧ t.pos.held = s.pos.held ∧ t.pos.toLd = r ∧ t.balls = s.balls ∧
        t.pos.gen = s.pos.gen.set g { s.pos.gen[g] with lateCnt := s.pos.gen[g].lateCnt + 1 } ∧ t.mrk = s.mrk)) ∧
  (∀ (s : State) (id : Nat) (e : OutEvent) (r : List LdMsg), s.sys.dieLink = true → s.pos.toLd = .cancel id :: r → s.pos.held.find? (fun x => x.id == id) = some e →
    (e.time ≤ 16 * (s.ts : Int) → exec .outputCancelArrive s = .next { s with pos := { s.pos with toLd := r } }) ∧
    (16 * (s.ts : Int) < e.time → ∃ t, exec .outputCancelArrive s = .next t ∧ t.pos.toLd = r ∧
      t.pos.held = s.pos.held.filter (fun x => x.id != id) ∧ t.balls = s.balls ∧
      (∀ n : Fin 8, e.kind ≠ .mrkOn n → t.mrk[n] = s.mrk[n]) ∧
      ∀ n : Fin 8, e.kind = .mrkOn n → (∀ m ∈ t.mrk[n].queue, m.start ≠ .recalled id) ∧
        t.mrk[n].queue.map (fun m => (m.t, m.tEnd)) = s.mrk[n].queue.map (fun m => (m.t, m.tEnd)))) ∧
  (∀ (s : State) (e : OutEvent), s.pos.held = [e] →
    (16 * (s.ts : Int) < e.time → exec .outputEventFire s = .next s) ∧
    (e.time ≤ 16 * (s.ts : Int) →
      (∀ (g b c : Nat) (hb : b + 1 < 16), e.kind = .phase g b c →
        exec .outputEventFire s = .next { s with
          pos := { s.pos with held := [] },
          balls := if s.sys.outEn then
              { s.balls with gpo := (s.balls.gpo.set b (lvl (bitN c 0))).set (b + 1) (lvl (bitN c 1)) } else s.balls }) ∧
      ∀ n : Fin 8, e.kind = .mrkOn n → s.mkSpan n = false → (∀ m ∈ s.mrk[n].queue, ∃ f, m.start = .committed e.id f ∧ m.span = false) →
        ∃ t, exec .outputEventFire s = .next t ∧ t.pos.held = [] ∧
          (s.sys.outEn = true → t.balls = { s.balls with mrk := s.balls.mrk.set n (s.mrkOn n) } ∧
            t.mrk[n].pulseEnd = some (e.time + s.mkWidth16 n) ∧ t.mrk[n].fired = (s.mrk[n].fired + 1) % 2 ^ 32) ∧
          (s.sys.outEn = false → t.balls = s.balls ∧ t.mrk = s.mrk))) ∧
  (∀ (s : State) (e : OutEvent) (g : Fin 32) (tr : Trig), s.pos.held = [e] → e.kind = .trg g → e.time ≤ 16 * (s.ts : Int) →
    s.pos.gen[g].trigs = [tr] → tr.id = e.id →
    let b := s.gBall g
    let n := s.genLead g
    let ball := s.gOut g % 2 = 1 ∧ s.sys.outEn = true ∧ s.rbit rIoxTrgEn b = true
    ∃ t, exec .outputEventFire s = .next t ∧ t.pos.held = [] ∧ t.pos.gen[g].trigs = [] ∧
      t.pos.gen[g].lastK = some (max (s.pos.gen[g].lastK.getD tr.k) tr.k) ∧ t.balls.mrk = s.balls.mrk ∧ t.balls.gpo = s.balls.gpo ∧
      (s.live = true → ball → t.balls.trg = setV s.balls.trg b (if s.rbit rIoxTrgPol b then .low else .high) ∧
        t.pos.trgEnd = setV s.pos.trgEnd b (some (e.time + 16 * (s.gWidth g : Int))) ∧ t.pos.gen[g].fired = (s.pos.gen[g].fired + 1) % 2 ^ 32) ∧
      (s.live = false ∨ ¬ ball → t.balls.trg = s.balls.trg ∧ t.pos.trgEnd = s.pos.trgEnd) ∧
      (s.live = true → 2 ≤ s.gOut g → s.lPers n = 1 → s.laneUp n = true → t.pos.gen[g].fired = (s.pos.gen[g].fired + 1) % 2 ^ 32 ∧
        ∃ fill codes, Sent.lane n (ttsBit tr.fire) fill (bcTrigger (leBytes 1 (tr.phase + 4 * b2n tr.coast + 8 * b2n tr.creep) ++
          leBytes 1 0 ++ leBytes 4 (unsigned 32 tr.k) ++ leBytes 8 (unsigned 64 tr.x))) codes ∈ t.sent)) ∧
  (∀ (s : State) (e : OutEvent) (n : Fin 8), s.pos.held = [e] → e.kind = .mrkOff n → e.time ≤ 16 * (s.ts : Int) →
    ∃ t, exec .outputEventFire s = .next t ∧ t.pos.held = [] ∧
      (s.sys.outEn = true → t.balls = { s.balls with mrk := s.balls.mrk.set n (s.mrkOff n) } ∧ t.mrk[n].since = none ∧
        t.mrk[n].pulseEnd = none ∧ (∀ m ∈ t.mrk[n].queue, m ∈ s.mrk[n].queue ∧ ∀ f, m.stop ≠ .committed e.id f) ∧
        (∀ m ∈ s.mrk[n].queue, (∀ f, m.stop ≠ .committed e.id f) → m ∈ t.mrk[n].queue) ∧ ∀ k : Fin 8, k ≠ n → t.mrk[k] = s.mrk[k]) ∧
      (s.sys.outEn = false → t.balls = s.balls ∧ t.mrk = s.mrk)) ∧
  (∀ (s : State) (b : Fin 16) (e : Int), s.pos.trgEnd[b] = some e →
    let idle : Level := if s.sys.laggLost then .hiZ else if s.sys.outEn && s.rbit rIoxTrgEn b && s.rbit rIoxTrgPol b then .high else .low
    exec (.trgPulseEnd b) s = .next (if e ≤ 16 * (s.ts : Int) then
      { s with pos := { s.pos with trgEnd := s.pos.trgEnd.set b none },
               balls := { s.balls with trg := s.balls.trg.set b idle } } else s)) ∧
  ∀ (s : State) (n : Fin 8) (e : Int), s.clk.shutdown = false → s.mrk[n].pulseEnd = some e →
    let idle : Level := if s.sys.mrkLive = false ∨ s.sys.laggLost = true then .hiZ else if s.rbit rIoxMrkPol n then .high else .low
    let off : State := { s with
      mrk := s.mrk.set n { s.mrk[n] with since := none, pulseEnd := none }, balls := { s.balls with mrk := s.balls.mrk.set n idle } }
    exec (.markerPulseEnd n) s = .next (if e ≤ 16 * (s.ts : Int) then off else s) ∧
    exec (.markerSpanLostEnd n) s = .next (if e ≤ 16 * (s.ts : Int) ∧ (s.dom (s.mkDom n)).lock = .lost then off else s)

/-- R47, R282, R332. -/
def Obligations.CommitWithinTheHorizon : Prop :=
  (∀ (s : State) (g : Fin 32), s.clk.shutdown = false → s.genReady g = true → 0 < (s.dom (s.gDom g)).v →
    let fire := s.predictFire g
    let k := s.nextLine g
    (s.commit16 < fire - 16 * (s.ts : Int) → exec (.triggerCommit g) s = .next s) ∧
    (fire - 16 * (s.ts : Int) ≤ s.commit16 → (∀ p, s.pos.gen[g].prevFire = some p → s.minPeriod16 g ≤ fire - p) →
      s.rbit (rPosTgPhase g) 21 = false → s.pos.gen[g].lossFrom = none →
      ∃ t tr, exec (.triggerCommit g) s = .next t ∧
        t.pos.toLd = s.pos.toLd ++ [.event { id := s.pos.nextEv, kind := .trg g, time := fire }] ∧
        t.pos.gen = s.pos.gen.set g { s.pos.gen[g] with trigs := s.pos.gen[g].trigs ++ [tr], prevFire := some fire, kMin := none } ∧
        tr.k = k ∧ tr.fire = fire ∧ tr.id = s.pos.nextEv ∧ tr.target = s.target g k ∧ tr.cancelled = false ∧
        t = { s with pos := { s.pos with toLd := t.pos.toLd, gen := t.pos.gen, nextEv := s.pos.nextEv + 2 } })) ∧
  (∀ (s : State) (n : Fin 8) (m : Marking), s.clk.shutdown = false → s.mrk[n].queue = [m] → m.start = .pending → m.span = false → s.mkPred n = true →
    let f := s.mkFire n m.t
    (12800 ≤ f - 16 * (s.ts : Int) → s.commit16 < f - 16 * (s.ts : Int) → exec (.markerCommit n) s = .next s) ∧
    (12800 ≤ f - 16 * (s.ts : Int) → f - 16 * (s.ts : Int) ≤ s.commit16 →
      exec (.markerCommit n) s = .next { s with
        pos := { s.pos with toLd := s.pos.toLd ++ [.event { id := s.pos.nextEv, kind := .mrkOn n, time := f }], nextEv := s.pos.nextEv + 1 },
        mrk := s.mrk.set n { s.mrk[n] with queue := [{ m with start := .committed s.pos.nextEv f }] } })) ∧
  ∀ (s : State) (msg : FabMsg) (r : List FabMsg), s.clk.shutdown = false → s.fab.inbox = msg :: r → msg.mtype = 0x10 → s.pos.ttCopy = [] →
    s.res.held = [] →
    ∃ t, exec .trackSampleReceive s = .next t ∧ t.fab.inbox = r ∧ ∃ tab : TrkTable, t.pos.ttCopy =
      [(bitsN (fieldAt msg.payload 0 1) 3 0, bitsN (fieldAt msg.payload 1 1) 7 4, tab)] ∧ tab.count = 1 ∧
      tab.base = signed 64 (fieldAt msg.payload 4 8) ∧ tab.lastX = signed 64 (fieldAt msg.payload 12 8) ∧ t.balls = s.balls


/-! Ingress lanes and slices -/

/-- R93, R94, on a lane where a message leaves at once. -/
def Obligations.LaneTraining : Prop :=
  ∀ (s : State) (n : Fin 32), s.clk.shutdown = false → LaneFree s n →
    let l := s.lane[n]
    let down := fun (r : Nat) => bcMessage 0x22 (leBytes 1 r)
    -- TRAIN k went out, and of `u` nothing but lane n, to `l'`, has changed
    let trained := fun (u t : State) (k : Nat) (l' : Lane) =>
      t = { u with lane := t.lane, sent := t.sent } ∧ t.lane = s.lane.set n t.lane[n] ∧ t.lane[n].rx = l'.rx ∧
        SentOn n s.sent [bcMessage 0x20 (leBytes 1 k ++ leBytes 1 (s.rf (rIglLCtrl n) 9 8))] t.sent
    let repeats := fun (k : Nat) =>
      (s.ts < l.lastTrain + 80000 → exec (.trainMessageRepeat n) s = .next s) ∧
        (l.lastTrain + 80000 ≤ s.ts → ∃ t, exec (.trainMessageRepeat n) s = .next t ∧ trained s t k { l with lastTrain := s.ts })
    (l.phase = .bcLock →
      (s.ts < l.since + 4000000 → exec (.laneBcLockDone n) s = .next s) ∧
      (l.since + 4000000 ≤ s.ts → ∃ t, exec (.laneBcLockDone n) s = .next t ∧
        trained s t 1 { l with phase := .equalise, since := s.ts, lastTrain := s.ts })) ∧
    (l.phase = .equalise → repeats 1 ∧ ∀ eye : BitVec 16,
      (l.since + 16000000 < s.ts → exec (.laneEqualiseDone { lane := n, eye := eye }) s = .next s) ∧
      (s.ts ≤ l.since + 16000000 → ∃ t, exec (.laneEqualiseDone { lane := n, eye := eye }) s = .next t ∧
        trained (s.setReg (rIglLEq n) (eye.setWidth 32)) t 2 { l with phase := .blockLock, since := s.ts, lastTrain := s.ts })) ∧
    (l.phase = .blockLock → repeats 2 ∧ ∀ last : BitVec 58,
      (l.since + 8000000 < s.ts → exec (.laneBlockLockDone { lane := n, last := last }) s = .next s) ∧
      (s.ts ≤ l.since + 8000000 → ∃ t, exec (.laneBlockLockDone { lane := n, last := last }) s = .next t ∧
        trained s t 3 { l with phase := .capability, since := s.ts, lastTrain := s.ts, descr := last.toNat })) ∧
    (l.phase = .capability → repeats 3) ∧
    (l.phase = .up → exec (.trainMessageRepeat n) s = .next s ∧ exec (.laneTrainStepTimeout n) s = .next s) ∧
    (l.phase = .capability → s.laneDisabled n = false → s.ts ≤ l.since + 4000000 → ∀ (a : List Byte) (w : KslWord), w.sync = 2 →
      let v := (descramble l.descr w.bits.toNat).1
      (v % 256 = 0x2D → s.capAgrees n (leBytes 8 v) = true →
        ∃ t, exec (.capWordReceive n w) s = .next t ∧ t.lane[n].capA = some (leBytes 8 v) ∧ t.lane[n].phase = .capability ∧ t.sent = s.sent) ∧
      (v % 256 = 0x2E → l.capA = some a → l.capPair = some (a, leBytes 8 v) → l.retraining = false →
        ∃ t, exec (.capWordReceive n w) s = .next t ∧ t.lane[n].phase = .up ∧ t.lane[n].base = 0 ∧ t.lane[n].failed = 0 ∧
          SentOn n s.sent [bcMessage 0x21 [], bcMessage 0x10 (leBytes 2 0 ++ leBytes 8 0)] t.sent ∧
          (∀ m : Fin 32, m ≠ n → t.lane[m] = s.lane[m])) ∧
      (v % 256 = 0x2E → l.capA = some a → l.capPair ≠ some (a, leBytes 8 v) →
        ∃ t, exec (.capWordReceive n w) s = .next t ∧ t.lane[n].capA = none ∧ t.lane[n].capPair = some (a, leBytes 8 v) ∧
          t.lane[n].phase = .capability ∧ t.sent = s.sent) ∧
      (v % 256 = 0x2D → s.capAgrees n (leBytes 8 v) = false →
        ∃ t, exec (.capWordReceive n w) s = .next t ∧ t.lane[n].phase = .failed ∧ SentOn n s.sent [down 3] t.sent ∧
          (∀ m : Fin 32, m ≠ n → t.lane[m] = s.lane[m]))) ∧
    ((l.phase = .equalise ∧ l.since + 16000000 < s.ts) ∨ (l.phase = .blockLock ∧ l.since + 8000000 < s.ts) ∨
        (l.phase = .capability ∧ l.since + 4000000 < s.ts) → CanReport s evIglLaneDown n →
      ∃ t, exec (.laneTrainStepTimeout n) s = .next t ∧
        (l.failed < 2 → t.lane[n].phase = .bcLock ∧ t.lane[n].failed = l.failed + 1 ∧ t.lane[n].attempts = l.attempts + 1 ∧
          t.eru = s.eru ∧ SentOn n s.sent [down 4, symIdle] t.sent) ∧
        (2 ≤ l.failed → t.lane[n].phase = .failed ∧ Reported s t evIglLaneDown n ∧ SentOn n s.sent [down 4] t.sent))

/-- R95. -/
def Obligations.LanesGoDown : Prop :=
  ∀ (s : State) (n : Fin 32), s.clk.shutdown = false → LaneFree s n →
    let o := rIglLCtrl n
    let l := s.lane[n]
    let down := fun (r : Nat) => bcMessage 0x22 (leBytes 1 r)
    (l.phase ≠ .up → exec (.laneSyncLoss n) s = .next s ∧ exec (.laneIdleTimeout n) s = .next s) ∧
    (l.syncLoss = false → exec (.laneSyncLoss n) s = .next s) ∧
    (s.ts < l.lastIdle + 8000 → exec (.laneIdleTimeout n) s = .next s) ∧
    (l.phase = .up → (∀ r ∈ s.record (s.headGen n), r.done = true) → CanReport s evIglLaneDown n →
      (∀ c ∈ [(Instr.laneSyncLoss n, 1), (Instr.laneIdleTimeout n, 2)],
        (c.2 = 1 → l.syncLoss = true) → (c.2 = 2 → l.lastIdle + 8000 ≤ s.ts) →
        ∃ t, exec c.1 s = .next t ∧ SentOn n s.sent (down c.2 :: if s.rbit o 4 then [symIdle] else []) t.sent ∧
          Reported s t evIglLaneDown n ∧
          t.lane[n].phase = (if s.rbit o 4 then .bcLock else .failed) ∧ t.lane[n].base = 0 ∧ t.lane[n].missing = [] ∧
          ∀ m : Fin 32, m ≠ n → t.lane[m] = s.lane[m]) ∧
      (CoreMayAccess s → s.FieldsGood o →
        ∃ t, exec (.laneRetrainWrite .core .p n (s.reg o)) s = .next t ∧ SentOn n s.sent [down 0, symIdle] t.sent ∧
          t.lane[n].phase = .bcLock ∧ t.lane[n].retraining = true ∧ t.lane[n].failed = 0 ∧ t.rdResp = "OK")) ∧
    (l.phase = .failed → CoreMayAccess s → s.FieldsGood o →
      ∃ t, exec (.laneRetrainWrite .core .p n (s.reg o)) s = .next t ∧ t.lane[n].phase = .bcLock ∧ t.lane[n].failed = 0 ∧
        SentOn n s.sent [symIdle] t.sent)

/-- R4, R72, R75 to R77, R79 to R82, R98 to R105: on a lane that is off or disabled nothing is received; else every word is read through the
descrambler and judged by its sync header and type, every block by its words and checksum, and a line block joins its line. That an invalid
sync header outside a block counts in SYNC_ERR, and that a start word without its block and a lone TERM are judged as they are, is the model's
reading (DEDUCED, log 84); so is what happens to a block of a line already complete (DESIGN CHOICE, log 121). -/
def Obligations.SelectiveRepeat : Prop :=
  (∀ (rs : List KslRead) (h p : List Byte), kslBlockOf rs = some (h, p) →
    h.length = 16 ∧ p.length = 16 * (fieldAt h 4 1 % 128 + 1) ∧ rs.length = 2 * (fieldAt h 4 1 % 128 + 1) + 3 ∧
      rs.getLast? = some (.ctl (0xE1 + 256 * crc32c (h ++ p)))) ∧
  ∀ (s : State) (n : Fin 32), s.clk.shutdown = false →
    let l := s.lane[n]
    let heard := fun (l' : Lane) => ({ s with lane := s.lane.set n l' } : State)
    let only := fun (t : State) (l' : Lane) =>
      t = { s with lane := t.lane, sent := t.sent } ∧ t.lane = s.lane.set n t.lane[n] ∧ t.lane[n].rx = l'.rx
    (s.laneHears n = false → ∀ (w : KslWord) w0 w1 p term st,
      ∀ c ∈ [Instr.kslIdleWord n w, .kslStrayWord { lane := n, word := w }, .capWordReceive n w, .kslBlockReceive n [] w0 w1 p term st],
        exec c s = .next s) ∧
    (s.laneHears n = true → ∀ w : KslWord,
      let words := [Instr.kslIdleWord n w, .kslStrayWord { lane := n, word := w }, .capWordReceive n w]
      let r := l.takeWord w
      (w.sync ≠ 2 → ∀ c ∈ words, exec c s = .next ((heard r.2).addWrap (rIglLSyncErr n) 1)) ∧
      (∀ v, r.1 = .ctl v → ctlKnown v = false ∨ v % 256 = 0xE1 → ∀ c ∈ words, exec c s = .next ((heard r.2).addWrap (rIglLSyncErr n) 1)) ∧
      (∀ v, r.1 = .ctl v → v % 256 = 0x4B ∨ v % 256 = 0x4D → l.phase = .up →
        ∀ c ∈ words, exec c s = .next ((heard r.2).addWrap (rIglLBlkBad n) 1)) ∧
      (∀ v, r.1 = .ctl v → v % 256 = 0x1E → l.phase ≠ .up → ∀ c ∈ words, exec c s = .next (heard { r.2 with lastIdle := s.ts })) ∧
      (∀ (v k : Nat), r.1 = .ctl v → v % 256 = 0x1E → v / 256 % 65536 = (l.base + k) % 65536 → 1 ≤ k → k ≤ 8 → l.phase = .up → LaneFree s n →
        l.got = [] → l.missing = [] → l.top = l.base →
        ∀ c ∈ words, ∃ t, exec c s = .next t ∧ t.lane[n].top = l.base + k ∧ t.lane[n].base = l.base ∧ t.lane[n].lastIdle = s.ts ∧
          t.lane[n].missing = (List.range k).map (fun i => { seq := l.base + i, reqs := 1, last := s.ts }) ∧
          SentOn n s.sent [bcMessage 0x11 (leBytes 1 k ++ (List.range k).flatMap fun i => leBytes 2 (l.base + i))] t.sent) ∧
      ∀ (b : List KslWord) w0 w1 p term st t, exec (.kslStrayWord { lane := n, word := w }) s = .next t →
        exec (.kslBlockReceive n (w :: b) w0 w1 p term st) s = exec (.kslBlockReceive n b w0 w1 p term st) t) ∧
    (s.laneHears n = true → ∀ (w0 w1 : KslWord) (ws : List KslWord) (term : KslWord) (st : Nat),
      let r := l.takeWords (w0 :: w1 :: (ws ++ [term]))
      let u := (heard r.2).addWrap (rIglLSyncErr n) (syncErrs r.1)
      (l.phase ≠ .up → exec (.kslBlockReceive n [] w0 w1 ws term st) s = .next u) ∧
      (l.phase = .up → kslBlockOf r.1 = none ∨ (∃ h p, kslBlockOf r.1 = some (h, p) ∧ s.kslHeaderOk n h = false) →
        exec (.kslBlockReceive n [] w0 w1 ws term st) s = .next (u.addWrap (rIglLBlkBad n) 1)) ∧
      (∀ h p, l.phase = .up → kslBlockOf r.1 = some (h, p) → s.kslHeaderOk n h = true → fieldAt h 0 1 = 0x4D → fieldAt h 1 1 = 1 →
        fieldAt h 2 2 = l.base % 65536 → l.got = [] → l.lost = [] → l.top = l.base → l.rxReady = false → 2 ≤ s.rf (rIglLSr n) 31 24 →
        l.ackCnt = 0 →
        ∃ t, exec (.kslBlockReceive n [] w0 w1 ws term st) s = .next t ∧ t.lane[n].base = l.base + 1 ∧ t.lane[n].descr = r.2.descr ∧
          t.lane[n].rxReady = true ∧ t.lane[n].mgRx = p ∧ t.lane[n].ackCnt = 1 ∧ t.sent = s.sent ∧
          ∀ m : Fin 32, m ≠ n → t.lane[m] = s.lane[m]) ∧
      -- the line blocks: a good block, next in turn, on a lane whose ACK is not yet due
      ∀ h p, l.phase = .up → kslBlockOf r.1 = some (h, p) → s.kslHeaderOk n h = true → fieldAt h 0 1 = 0x4B →
        fieldAt h 2 2 = l.base % 65536 → l.got = [] → l.lost = [] → l.top = l.base → l.ackCnt + 1 < s.rf (rIglLSr n) 31 24 →
        let g := s.headGen n
        let line := fieldAt h 8 4
        let first := bitN (fieldAt h 1 1) 4
        let last := bitN (fieldAt h 1 1) 5
        let ofs := fieldAt h 6 2
        let body := if first then p.drop 16 else p
        let d := s.headDepth n
        let room := (s.lIdx n + 1) * (s.headPixels n / s.lLanes n) - ofs
        let isBlk := fun (b : LineBlk) => b.idx = s.lIdx n ∧ b.plane = bitsN (fieldAt h 5 1) 7 6 ∧ b.ofs = ofs ∧ b.first = first ∧ b.last = last ∧
          (0 < d → b.pix.length = min (8 * body.length / d) room ∧
            ∀ j < b.pix.length, b.pix.getD j 0 = bitsN (leNat body) (j * d + d - 1) (j * d))
        let took := fun (t : State) => exec (.kslBlockReceive n [] w0 w1 ws term st) s = .next t ∧ t.lane[n].base = l.base + 1
        (s.lFree n = false → s.record g = [] → atV s.orphans g [] = [] → CanReport s evIglOrphan n →
          ∃ t, took t ∧ t.record g = [] ∧ t.slice = s.slice ∧ Reported s t evIglOrphan n) ∧
        (s.lFree n = true → s.record g = [] → last = false →
          ∃ t x b, took t ∧ isBlk b ∧ t.record g = [x] ∧ x.blks = [b] ∧ x.free = true ∧ x.line = line ∧ x.wire = some line ∧ x.done = false ∧
            x.x = s.coordAt (s.headDom n) ((st : Int) - (nsTs (s.rf (rIglLLto n) 15 0) : Int))) ∧
        ∀ x : TrigRec, s.lFree n = false → s.record g = [x] → x.free = false → x.bad = false → x.line = line → x.stampErr = false →
          (first = true → bitN (fieldAt p 12 1) 4 = false) →
          let err := first && x.differs (p.take 16)
          (x.done = true → err = false → CanReport s evIglOrphan n →
            ∃ t, took t ∧ t.record g = [{ x with wire := some line }] ∧ t.slice = s.slice ∧ Reported s t evIglOrphan n) ∧
          (x.done = false → x.blks = [] → last = false →
            ∃ t b, took t ∧ isBlk b ∧ t.record g = [{ x with wire := some line, stampErr := err, blks := [b] }] ∧ t.slice = s.slice ∧
              (err = false → t.eru = s.eru) ∧ (err = true → CanReport s evIglOrphan n → Reported s t evIglOrphan n)) ∧
          (x.done = false → x.blks = [] → last = true → first = true → err = false → s.headPlanes n = 1 → s.lLanes n = 1 → s.lIdx n = 0 → ofs = 0 →
            0 < d → 0 < s.headPixels n → s.headPixels n ≤ 8 * body.length / d →
            ∃ t, took t ∧ t.record g = [{ x with wire := some line, done := true, blks := [] }] ∧
              (s.rbit (rLcuSCtrl (s.genLead g)) 0 = false → (s.gen g).gated = [] → s.MemWf →
                t.slice = s.slice ∧ t.reg (rIglLLines (s.genLead g)) = s.reg (rIglLLines (s.genLead g)) + 1))) ∧
    (l.phase ≠ .up → ∀ c ∈ [Instr.kslResendTimeout n, .kslAckTimer n, .kslAckRepeat n], exec c s = .next s) ∧
    (l.missing = [] → exec (.kslResendTimeout n) s = .next s) ∧ (l.ackFirst = none → exec (.kslAckTimer n) s = .next s) ∧
    (l.phase = .up → LaneFree s n →
      (∀ m : Missing, l.missing = [m] →
        (s.ts < m.last + s.rf (rIglLSr n) 15 8 * 800 → exec (.kslResendTimeout n) s = .next s) ∧
        (m.last + s.rf (rIglLSr n) 15 8 * 800 ≤ s.ts → m.reqs < 3 →
          ∃ t, exec (.kslResendTimeout n) s = .next t ∧ t.lane[n].missing = [{ m with reqs := m.reqs + 1, last := s.ts }] ∧
            SentOn n s.sent [bcMessage 0x11 (leBytes 1 1 ++ leBytes 2 m.seq)] t.sent) ∧
        (m.last + s.rf (rIglLSr n) 15 8 * 800 ≤ s.ts → 3 ≤ m.reqs → m.seq = l.base → l.got = [] → l.lost = [] → l.goods = [] →
          ∃ t, exec (.kslResendTimeout n) s = .next t ∧ t.lane[n].missing = [] ∧ t.lane[n].base = l.base + 1 ∧
            SentOn n s.sent [bcMessage 0x10 (leBytes 2 (l.base + 1) ++ leBytes 8 0)] t.sent)) ∧
      (∀ u, l.ackFirst = some u →
        (s.ts < u + s.rf (rIglLSr n) 23 16 * 80 → exec (.kslAckTimer n) s = .next s) ∧
        (u + s.rf (rIglLSr n) 23 16 * 80 ≤ s.ts →
          let a := leBytes 2 l.base ++ leBytes 8 l.bitmap
          ∃ t, exec (.kslAckTimer n) s = .next t ∧ only t { l with ack := a, ackCnt := 0, ackFirst := none, lastAck := s.ts } ∧
            SentOn n s.sent [bcMessage 0x10 a] t.sent)) ∧
      (s.ts < l.lastAck + 8000 → exec (.kslAckRepeat n) s = .next s) ∧
      (l.lastAck + 8000 ≤ s.ts →
        ∃ t, exec (.kslAckRepeat n) s = .next t ∧ only t { l with lastAck := s.ts } ∧ SentOn n s.sent [bcMessage 0x10 l.ack] t.sent)) ∧
    (s.genLead (s.headGen n) ≠ n.val → exec (.lineTimeout n) s = .next s) ∧
    ∀ r : TrigRec, s.genLead (s.headGen n) = n → s.record (s.headGen n) = [r] → r.done = false →
      (16 * (s.ts : Int) < r.fire + s.lineTo16 n → exec (.lineTimeout n) s = .next s) ∧
      (r.fire + s.lineTo16 n ≤ 16 * (s.ts : Int) →
        ∃ t, exec (.lineTimeout n) s = .next t ∧ t.record (s.headGen n) = [{ r with done := true, blks := [] }] ∧ t.pos.dom = s.pos.dom)

/-- R90, R110 to R113, and the CoaXPress stream packets. That MGMT and control packets leave on a lane that trains, and that SEND does nothing
on a lane that is OFF or FAILED, is the model's choice (log 50); so is what becomes of a stream packet that matches no record (log 103), and which
pixels of a line are held until it is whole (log 86). -/
def Obligations.ManagementMessages : Prop :=
  ∀ (s : State) (n : Fin 32), s.clk.shutdown = false →
    let l := s.lane[n]
    let only := fun (t : State) (l' : Lane) => t.lane = s.lane.set n l' ∧ t.balls = s.balls ∧ t.pos = s.pos ∧ t.rdResp = "OK"
    (CoreMayAccess s →
      (∀ w, s.txBusy n = false → l.mgTx.length ≤ 60 →
        ∃ t, exec (.mgTxWrite .core .p n w) s = .next t ∧ only t { l with mgTx := l.mgTx ++ leBytes 4 w.toNat } ∧ t.sent = s.sent) ∧
      (∀ (w : Word) (k : BitVec 7), 1 ≤ k.toNat → k.toNat ≤ 64 → s.txBusy n = true →
        ∃ t u, exec (.mgTxWrite .core .p n w) s = .next t ∧ exec (.mgSend .core .p n k) s = .next u ∧ only t l ∧ only u l ∧
          t.sent = s.sent ∧ u.sent = s.sent) ∧
      (∀ k : BitVec 7, 1 ≤ k.toNat → l.mgTx.length = k.toNat → k.toNat ≤ 64 → s.txBusy n = false → s.MemWf →
        (l.phase = .off ∨ l.phase = .failed → ∃ t, exec (.mgSend .core .p n k) s = .next t ∧ only t l ∧ t.sent = s.sent) ∧
        (l.phase = .up → LaneFree s n →
          ∃ t, exec (.mgSend .core .p n k) s = .next t ∧ only t t.lane[n] ∧ t.lane[n].rx = ({ l with mgTx := [] } : Lane).rx ∧
            SentOn n s.sent [bcMessage 0x30 l.mgTx] t.sent ∧ t.txBusy n = true) ∧
        (l.phase = .up → s.lPers n = 1 → l.bcq = [] →
          (∃ b, s.nextTts n = some b ∧ b < s.bcStart n + 10 * ((k.toNat : Int) + 6)) →
          ∃ t, exec (.mgSend .core .p n k) s = .next t ∧ only t { l with mgTx := [], bcq := [(0x30, l.mgTx)] } ∧ t.sent = s.sent ∧
            t.txBusy n = true) ∧
        (l.phase = .up → s.lPers n = 2 →
          ∃ t, exec (.mgSend .core .p n k) s = .next t ∧ only t { l with mgTx := [] } ∧ t.sent = .mgmt n l.mgTx :: s.sent)) ∧
      (l.rxReady = true → l.mgPos + 4 ≤ l.mgRx.length →
        ∃ t, exec (.mgRxRead .core .p n) s = .next t ∧ only t { l with mgPos := l.mgPos + 4 } ∧
          t.rdData = w32 (fieldAt l.mgRx l.mgPos 4)) ∧
      (∀ k : BitVec 7, 1 ≤ k.toNat → k.toNat ≤ 64 →
        ∃ t, exec (.mgRxDone .core .p n k) s = .next t ∧ only t { l with mgRx := [], mgPos := 0, rxReady := false })) ∧
    (∀ p, s.rf (rIglLCtrl n) 1 0 ≠ 2 → exec (.cxpPacketReceive n p) s = .next s) ∧
    (s.laneDisabled n = true → ∀ p, exec (.cxpPacketReceive n p) s = .next s) ∧
    (s.rf (rIglLCtrl n) 1 0 = 2 → s.laneDisabled n = false →
      exec (.cxpPacketReceive n .trigger) s = .next (s.setReg (rIglLEvt n) (s.reg (rIglLEvt n) ||| 128)) ∧
      (∀ b, l.rxReady = false → b.length ≤ 256 →
        exec (.cxpPacketReceive n (.control b)) s = .next { s with lane := s.lane.set n { l with mgRx := b, mgPos := 0, rxReady := true } }) ∧
      ∀ (plane ofs : Nat) (last crcOk : Bool) (pix : List Nat),
        let g := s.headGen n
        let k := s.genLead g
        let got := fun (first sup : Bool) => exec (.cxpPacketReceive n (.stream plane ofs first last pix crcOk sup)) s
        s.lFree n = false →
          (s.record g = [] → k < 32 → CanReport s evIglOrphan n →
            ∃ t, got true true = .next t ∧ t.record g = [] ∧ (t.laneAt k).cxpSkip = true ∧ Reported s t evIglOrphan n) ∧
          ((s.laneAt k).cxpSkip = true → got false true = .next s) ∧
          ∀ x : TrigRec, s.record g = [x] → x.wire = none → x.done = false → x.blks = [] → s.lineDue k x = false →
            (crcOk = false → ∃ t, got true true = .next t ∧ t.record g = [{ x with wire := some x.line, done := true, blks := [] }]) ∧
            (CanReport s evIglCfgMismatch n →
              ∃ t, got true false = .next t ∧ t.record g = [{ x with wire := some x.line, done := true, blks := [] }]) ∧
            (crcOk = true → ofs ≠ 0 ∨ pix.length < s.headPixels n → plane = 0 → 0 < s.headPixels n →
              ∃ t, got true true = .next t ∧ t.slice = s.slice ∧ t.record g = [{ x with wire := some x.line, blks :=
                [{ idx := s.lIdx n, plane := 0, ofs := ofs, first := true, last := last, pix := pix }] }]) ∧
            (crcOk = true → ofs = 0 → plane = 0 → s.headPlanes n = 1 → 0 < s.headPixels n → s.headPixels n ≤ pix.length →
              ∃ t, got true true = .next t ∧ t.record g = [{ x with wire := some x.line, done := true, blks := [] }]))

/-- R115 to R123, R126, R129, R131 to R133. The first part says what the pixel steps compute, one enabled at a time, and what line of the grid
an input line on it forms. Which table set serves a line, and that an entry beyond the line does nothing, is the model's choice (logs 89, 103). -/
def Obligations.SlotsStripsAndBanks : Prop :=
  (∀ (s : State) (n : Fin 32) (m : Int) (q : Nat) (raw : List Nat),
    let c := rLcuSCtrl n
    let ts := s.tabFor n m
    let tab := s.tabBytes ts
    let v := fun (j : Nat) => raw.getD j 0 * 2 ^ (16 - s.headDepth n)
    let out := s.condition n 0 q m raw
    let on := fun (ff dpm xm : Bool) => s.rbit c 11 = ff ∧ s.rbit c 12 = dpm ∧ s.rbit c 13 = xm
    (on false false false → out.2 = 0 ∧ out.1.length = raw.length ∧ ∀ j < raw.length, out.1.getD j 0 = v j) ∧
    (∀ o, on true false false → s.tabOfs ts n 4 = some o →
      let y := fun (j : Nat) =>
        let e := fieldAt tab (o + (q * s.headPixels n + j) * 4) 4
        (((v j : Int) - signed 16 e) * ((e / 65536 : Nat) : Int) + 8192) / 16384
      out.1.length = raw.length ∧ (∀ j < raw.length, (out.1.getD j 0 : Int) = max 0 (min (y j) 65535)) ∧
        (out.2 = 0 ↔ ∀ j < raw.length, 0 ≤ y j ∧ y j ≤ 65535)) ∧
    (∀ o, on false true false → s.tabOfs ts n 8 = some o → s.dirField ts n 2 2 = 1 →
      let e := fieldAt tab o 4
      let p := bitsN e 14 0
      let meth := bitsN e 18 16
      let left := p ≠ 0
      let right := p + 1 < raw.length
      out.2 = 0 ∧ out.1.length = raw.length ∧ (∀ j < raw.length, j ≠ p → out.1.getD j 0 = v j) ∧
        (p < raw.length → left → right → meth = 0 → out.1.getD p 0 = (v (p - 1) + v (p + 1) + 1) / 2) ∧
        (p < raw.length → left → meth = 1 ∨ ¬ right → out.1.getD p 0 = v (p - 1)) ∧
        (p < raw.length → right → meth = 2 ∨ ¬ left → out.1.getD p 0 = v (p + 1)) ∧
        (p < raw.length → ¬ left → ¬ right → out.1.getD p 0 = 0)) ∧
    (∀ o, on false false true → s.tabOfs ts n 12 = some o →
      out.2 = 0 ∧ out.1.length = s.outPixels n ∧ ∀ j < s.outPixels n,
        let e := fieldAt tab (o + j * 4) 4
        let i := bitsN e 31 17
        let f := bitsN e 16 8
        let hi := if i + 1 < raw.length then v (i + 1) else v i
        (e % 2 = 0 → out.1.getD j 0 = 0) ∧ (e % 2 = 1 → i < raw.length → out.1.getD j 0 = (v i * (512 - f) + hi * f + 256) / 512)) ∧
    ∀ (x : Int) (line flags : Nat), s.rbit c 0 = true → s.headPlanes n = 1 → s.stitchL n = false → s.stitchR n = false → 0 < s.opitch n →
      (s.planeAt n 0).prev = none → (s.planeAt n 0).mNext = none →
      let st := x + 10 * s.phOfs n 0
      let k := s.lineAtOrAfter n st
      let one := s.condition n 0 0 k raw
      let t := s.lcuLine n x line 0 flags (some [raw])
      let u := s.lcuLine n x line 0 flags none
      (st < s.lineY n k → t.slice[n].lines = s.slice[n].lines ∧ u.slice[n].lines = s.slice[n].lines) ∧
      (s.lineY n k = st → (s.bankFor n k).ready = true →
        (t.slice[n].lines = s.slice[n].lines ++ [{ m := k, q := 0, y := st, line := line, flags := flags, sat := one.2, pix := one.1,
                                                   filled := false, formed := s.ts, waits := false }] ∧
          (t.planeAt n 0).mNext = some (k + 1) ∧ (t.planeAt n 0).lastGood = some one.1) ∧
        (s.rf c 17 16 = 0 → ∃ z, u.slice[n].lines = s.slice[n].lines ++ [z] ∧ z.m = k ∧ z.filled = true ∧
          z.pix = List.replicate (s.outPixels n) 0 ∧ z.flags = flags ||| 1 ||| 128))) ∧
  (∀ (s : State) (n : Fin 32), s.clk.shutdown = false →
    (∀ ls, s.slice[n].lines = ls → (∀ l ∈ ls, l.waits = true) → exec (.sliceSlotWrite n) s = .next s) ∧
    (∀ l : OutLine, s.slice[n].lines = [l] → l.waits = false →
      let a := gddrKey (s.slotPort n) (s.slotAddr n l.q l.m)
      ∃ t, exec (.sliceSlotWrite n) s = .next t ∧ t.slice[n].lines = [] ∧ (∀ m : Fin 32, m ≠ n → t.slice[m] = s.slice[m]) ∧
        ((s.gdcAt (s.slotPort n)).st ≠ 2 → t.gddr = s.gddr) ∧
        ((s.gdcAt (s.slotPort n)).st = 2 → s.MemWf →
          (∀ p ∈ [(0, 8, unsigned 64 l.y), (8, 8, unsigned 64 l.m), (16, 8, s.ts), (24, 4, l.line), (28, 2, l.flags), (30, 1, l.q), (31, 1, n.val)],
            leNat (memGetBytes ramDefault t.gddr (a + p.1) p.2.1) = p.2.2 % 2 ^ (8 * p.2.1)) ∧
          (l.pix.length ≤ s.outPixels n → ∀ i < l.pix.length,
            leNat (memGetBytes ramDefault t.gddr (a + 64 + 2 * i) 2) = l.pix.getD i 0 % 65536) ∧
          ∀ x, x < a ∨ a + slotBytes (s.outPixels n) ≤ x → memGet ramDefault t.gddr x = memGet ramDefault s.gddr x)) ∧
    (∀ l : OutLine, s.slice[n].lines = [l] → l.waits = true →
      (s.ts < l.formed + s.rf (rLcuSCtrl n) 31 24 * 800 → exec (.edgeStripTimeout n) s = .next s) ∧
      (l.formed + s.rf (rLcuSCtrl n) 31 24 * 800 ≤ s.ts →
        ∃ t, exec (.edgeStripTimeout n) s = .next t ∧ t.slice = s.slice.set n { s.slice[n] with lines := [{ l with flags := l.flags ||| 32, waits := false }] } ∧
          (CanReport s evLcuStitchMiss n → Reported s t evLcuStitchMiss n))) ∧
    (s.slice[n].loads = [] ∨ s.sysCopyUp = false → exec (.tableBankLoadDone n) s = .next s) ∧
    ∀ (o : Fin 2) (rest : List Nat), s.slice[n].loads = o.val :: rest → s.sysCopyUp = true →
      exec (.tableBankLoadDone n) s = .next { s with slice := s.slice.set n { s.slice[n] with
        banks := s.slice[n].banks.set o { s.slice[n].banks[o] with ready := true }, loads := rest } }) ∧
  ∀ (s : State) (msg : FabMsg) (r : List FabMsg) (n : Fin 32), s.clk.shutdown = false → s.fab.inbox = msg :: r → msg.mtype = 0x08 →
    fieldAt msg.payload 9 1 = n →
    let b := msg.payload
    let col := fun (i : Nat) => fieldAt b (32 + 2 * i) 2
    (∀ l : OutLine, s.slice[n].lines = [l] → l.m = signed 64 (fieldAt b 0 8) → l.q = fieldAt b 8 1 → l.waits = true →
      s.ts ≤ l.formed + s.rf (rLcuSCtrl n) 31 24 * 800 → l.filled = false → bitN (fieldAt b 12 2) 0 = false →
      s.ownLo n ≤ fieldAt b 14 2 →
      let ts := s.tabFor n l.m
      let w := fun (i : Nat) => fieldAt (s.tabBytes ts) (s.dirField ts n 16 4 + 2 * i) 2 % 4096
      ∃ t pix, exec .edgeStripReceive s = .next t ∧ t = { s with fab := { s.fab with inbox := r }, slice := t.slice } ∧
        t.slice[n].lines = [{ l with pix := pix, waits := false }] ∧ (∀ k : Fin 32, k ≠ n → t.slice[k] = s.slice[k]) ∧
        pix.length = l.pix.length ∧ ∀ i < l.pix.length, pix.getD i 0 =
          if i < s.ownLo n then (col i * (4096 - w i) + l.pix.getD i 0 * w i + 2048) / 4096 else l.pix.getD i 0) ∧
    (s.slice[n].lines = [] → (s.planeAt n (fieldAt msg.payload 8 1)).mNext = none →
    ∃ t x, exec .edgeStripReceive s = .next t ∧ t = { s with
        fab := { s.fab with inbox := r }, slice := s.slice.set n { s.slice[n] with strips := s.slice[n].strips ++ [x] } } ∧
      x.m = signed 64 (fieldAt msg.payload 0 8) ∧ x.q = fieldAt msg.payload 8 1 ∧ x.flags = fieldAt msg.payload 12 2 ∧
      x.pix.length = fieldAt msg.payload 14 2 ∧ ∀ i < x.pix.length, x.pix.getD i 0 = col i)


/-! The Askak tiles -/

/-- R142, R143, R148. The word: slot 0 is a constant move, the seven others are empty, no header bit is set. -/
def Obligations.TileMoveWords : Prop :=
  ∀ (s : State) (k : Fin 272) (r : RunFrame) (c : BitVec 8), s.clk.shutdown = false →
    let x := s.tile[k]
    let value := lanes 16 fun _ => unsigned 16 c.toInt
    let word := fun (dst : Nat) => 2 * 2 ^ 32 + dst * 2 ^ 24 + c.toNat * 2 ^ 16
    let onTile := fun (t : State) (y : Tile) =>
      t = { s with tile := s.tile.set k { y with pc := (x.pc + 1) % 2048, cyc := x.cyc + 1, pcLast := x.pc, links := t.tile[k].links }, fresh := s.fresh + 9 }
    s.frm.running = some r → x.st = .run → x.done = false → x.rep = 0 → x.loops = [] → x.pc < 2048 → x.cyc + 1 < r.len → s.inStep k = true →
    s.rf (rTileNet k) 9 0 = 0 →
    (x.pipe = [] → (x.move x.pc).toNat = word 0x01 →
      ∃ t, exec (.moveWordExecute k .clean) s = .next t ∧ onTile t { x with aluA := x.aluA.set 0 value }) ∧
    (∀ op < 0x1E, x.pipe = [] → (x.move x.pc).toNat = word (2 + op) →
      ∃ t, exec (.moveWordExecute k .clean) s = .next t ∧ onTile t { x with pipe := [(x.cyc + 1, .alu 0 (aluOp op x.aluA[0] value))] }) ∧
    ∀ v, x.pipe = [(x.cyc, .alu 0 v)] → (x.move x.pc).toNat = word 0x01 →
      ∃ t, exec (.moveWordExecute k .clean) s = .next t ∧
        onTile t { x with aluR := x.aluR.set 0 v, aluA := x.aluA.set 0 value, pipe := [] }

/-- R149. The operations are those of the constants that TileMoveWords triggers. -/
def Obligations.TileAluLanes : Prop :=
  ∀ (a b : V128) (i : Nat), i < 8 →
    let x := vlane 16 a i
    let y := vlane 16 b i
    let r := fun (op : Nat) => vlane 16 (aluOp op a b) i
    let sgn := fun (n : Nat) => (BitVec.ofNat 16 n).toInt
    r 0x00 = (x + y) % 65536 ∧ r 0x01 = (x + 65536 - y) % 65536 ∧ r 0x02 = min (x + y) 65535 ∧ r 0x03 = x - y ∧
    sgn (r 0x04) = max (-32768) (min (sgn x + sgn y) 32767) ∧ sgn (r 0x05) = max (-32768) (min (sgn x - sgn y) 32767) ∧
    r 0x06 = (if x < y then y - x else x - y) ∧ r 0x07 = (x + y + 1) / 2 ∧ r 0x08 = min x y ∧ r 0x09 = max x y ∧
    sgn (r 0x0A) = min (sgn x) (sgn y) ∧ sgn (r 0x0B) = max (sgn x) (sgn y) ∧
    aluOp 0x0C a b = a &&& b ∧ aluOp 0x0D a b = a ||| b ∧ aluOp 0x0E a b = a ^^^ b ∧ aluOp 0x0F a b = a &&& ~~~b ∧
    r 0x10 = x * 2 ^ (y % 16) % 65536 ∧ r 0x11 = x / 2 ^ (y % 16) ∧ sgn (r 0x12) = sgn x / 2 ^ (y % 16) ∧
    r 0x13 = (if i + 1 < 8 then vlane 16 a (i + 1) else vlane 16 b (i + 1 - 8)) ∧
    r 0x14 = (if i + 2 < 8 then vlane 16 a (i + 2) else vlane 16 b (i + 2 - 8)) ∧
    r 0x15 = (if i + 4 < 8 then vlane 16 a (i + 4) else vlane 16 b (i + 4 - 8)) ∧
    r 0x16 = vlane 16 a (vlane 16 b 0 % 8) ∧ vlane 8 (aluOp 0x17 a b) i = min 255 x ∧ vlane 8 (aluOp 0x17 a b) (i + 8) = min 255 y ∧
    r 0x18 = vlane 8 b i ∧ r 0x19 = vlane 8 b (i + 8) ∧
    (i < 4 → vlane 32 (aluOp 0x1A a b) i = (vlane 32 a i + vlane 32 b i) % 2 ^ 32 ∧
      vlane 32 (aluOp 0x1B a b) i = (vlane 32 a i + 2 ^ 32 - vlane 32 b i) % 2 ^ 32 ∧
      vlane 32 (aluOp 0x1C a b) i = vlane 32 a i / 2 ^ (vlane 32 b i % 32)) ∧
    aluOp 0x1D a b = b

/-- R162 to R168, R178, R179. `used y n`: `n` free cycles of the tile go to a user of its port, the present one first; `checked y a b`: the check
bits of word `a` show `b` from now on. -/
def Obligations.TileQueuesAndScrubbing : Prop :=
  ∀ (s : State) (k : Fin 272), s.clk.shutdown = false →
    let x := s.tile[k]
    let used := fun (y : Tile) (n : Nat) =>
      if s.frm.running.isSome = true then { y with portBusy := y.portBusy + n, portLater := y.portLater + (n - 1) }
      else { y with idleUsed := y.idleUsed + n }
    let checked := fun (bad : SMap Nat) (a b : Nat) => smPut (fun _ => 0) bad (a % 16384) b
    let free := x.st ≠ .off ∧ (x.done = true ∨ (x.st ≠ .run ∧ x.st ≠ .faulted) ∨ (x.move x.pc).getLsbD 7 = true)
    let opened := free ∧ (s.frm.running.isSome = false ∨ x.portBusy = x.portLater)
    let scrubs := opened ∧ (s.frm.running.isSome = false ∨ x.portBusy = 0) ∧ s.rbit (rTileCtrl k) 1 = true ∧ x.port = [] ∧ x.engine = []
    let due := 2 ^ s.rf (rTileCtrl k) 7 4 ≤ s.scrubIdle k + 1
    (∀ r, s.frm.running = some r → x.st = .run → x.done = false →
      (x.cyc < r.len → exec (.tileBudgetEnd k) s = .next s) ∧
      (r.len ≤ x.cyc → 0 < r.len → x.fCode = 0 → (∃ j ∈ s.mappedTiles, j ≠ k.val ∧ (s.tileAt j).cyc < r.len) →
        ∃ t e, exec (.tileBudgetEnd k) s = .next t ∧ t.tile[k].fCode = 10 ∧ t.tile[k].fCyc = (r.len - 1) % 2 ^ 24 ∧ t.tile[k].fPc = x.pcLast ∧
          t.tile[k].fFrame = x.frame ∧ t.tile[k].st = .faulted ∧ t.tile[k].done = true ∧ e ∈ t.tile[k].outq ∧ e.isEnd = true ∧ e.fault = true ∧
          t.frm.running = some { r with faults := r.faults ++ [(k.val, 10)] } ∧ ∀ j : Fin 272, j ≠ k → t.tile[j] = s.tile[j])) ∧
    (x.outq = [] → exec (.outqDrain k) s = .next s) ∧
    (∀ e q, x.outq = e :: q →
      let waits := ∃ r ∈ s.frm.ended ++ s.frm.running.toList, e.frame = unsigned 16 r.f
      let t0 : State := { s with tile := s.tile.set k { x with outq := q } }
      (waits → exec (.outqDrain k) s = .next { t0 with res := { s.res with outq := s.res.outq ++ [e] } }) ∧
      (¬ waits → exec (.outqDrain k) s = .next t0)) ∧
    (¬ opened → ∀ u, exec (.streamPortWrite { tile := k, upset := u }) s = .next s) ∧
    (∀ a v, opened → x.port = [(a, v)] → x.engine = [] →
      let wrote := fun (bad : SMap Nat) => used { x with
        port := [], mem := smPut (fun _ => (0 : V128)) x.mem (a % 16384) v, bad := checked bad a 0,
        scrubFix := if x.scrubFix = some (a % 16384) then none else x.scrubFix } 1
      (x.badAt a = 0 → exec (.streamPortWrite { tile := k, upset := .clean }) s = .next { s with tile := s.tile.set k (wrote x.bad) }) ∧
      (x.badAt a = 0 → smWf (fun _ => 0) x.bad = true → ∃ t, exec (.streamPortWrite { tile := k, upset := .memSingle }) s = .next t ∧
        t.tile = s.tile.set k { wrote (checked x.bad a 1) with ceCnt := x.ceCnt + 1, ceAddr := a % 16384 }) ∧
      (smWf (fun _ => 0) x.bad = true → ∃ t, exec (.streamPortWrite { tile := k, upset := .memDouble }) s = .next t ∧
        t.tile = s.tile.set k { wrote (checked x.bad a 2) with ueCnt := x.ueCnt + 1, ueAddr := a % 16384 })) ∧
    (¬ scrubs → (∀ u, exec (.scrubRead k u) s = .next s) ∧ exec (.scrubWriteback k) s = .next s) ∧
    (¬ due → ∀ u, exec (.scrubRead k u) s = .next s) ∧
    (scrubs →
      (due → x.scrubFix = none → x.badAt x.scrubNext = 0 → exec (.scrubRead k .clean) s = .next { s with tile := s.tile.set k (used { x with
        scrubNext := (x.scrubNext + 1) % 16384, passes := if x.scrubNext = 16383 then (x.passes + 1) % 65536 else x.passes,
        idleFree := 0, idleFrom := s.ts, idleUsed := 0 } 1) }) ∧
      (due → x.scrubFix = none → x.badAt x.scrubNext = 0 → smWf (fun _ => 0) x.bad = true →
        ∃ t, exec (.scrubRead k .memSingle) s = .next t ∧ t.tile[k].scrubFix = some x.scrubNext ∧
          t.tile[k].ceCnt = x.ceCnt + 1 ∧ t.tile[k].ceAddr = x.scrubNext % 16384 ∧ t.tile[k].mem = x.mem ∧ t.tile[k].ueCnt = x.ueCnt) ∧
      (∀ w, x.scrubFix = some w → exec (.scrubWriteback k) s = .next { s with tile := s.tile.set k (used { x with
        scrubFix := none, bad := checked x.bad w 0 } 1) })) ∧
    (x.scrubFix = none → exec (.scrubWriteback k) s = .next s)

/-- R164, R166, R168, R179, R182. What a double-bit error in a word it reads makes of a tile-space access is the model's choice (log 91). -/
def Obligations.TileSpaceAndControl : Prop :=
  ∀ (s : State) (k : Fin 272) (a : BitVec 19),
    let x := s.tile[k]
    let held := fun (y : Tile) (i : Nat) => BitVec.ofNat 8 ((y.word (i / 16)).toNat / 2 ^ (8 * (i % 16)))
    let port := fun (u : TileUpset) => ({ tile := k, upset := u } : TilePort)
    let free := (x.done = true ∨ (x.st ≠ .run ∧ x.st ≠ .faulted) ∨ (x.move x.pc).getLsbD 7 = true) ∧
      (s.frm.running.isSome = false ∨ x.st = .off ∨ (x.portBusy = x.portLater ∧ x.portBusy = 0)) ∧ x.port = [] ∧ x.engine = []
    let used := fun (y : Tile) (n : Nat) =>
      if s.frm.running.isSome = true ∧ x.st ≠ .off then { y with portBusy := y.portBusy + n, portLater := y.portLater + (n - 1) }
      else { y with idleUsed := y.idleUsed + n }
    (∀ n u d l, ∃ t, exec (.tileSpaceAccess (.fabric n) (port u) a d l) s = .next t ∧ t.rdResp = "DECERR" ∧ t.rdData = 0 ∧ t.tile = s.tile ∧
      (s.rbit rMtxErrInfo 31 = false → s.MemWf → t.rf rMtxErrInfo 31 28 = 9 ∧ t.rf rMtxErrInfo 26 24 = 5 ∧ t.rf rMtxErrInfo 22 20 = 6 ∧
        t.reg rMtxErrAddr = w32 (0x60000000 + k.val * 0x80000 + a.toNat))) ∧
    (¬ free → a.toNat < 0x40000 → ∀ u d l, exec (.tileSpaceAccess .core (port u) a d l) s = .next s) ∧
    (∀ (d : List Byte) (l : Fin 65), free → a.toNat + d.length ≤ 0x40000 → 1 ≤ d.length → smWf (fun _ => (0 : V128)) x.mem = true →
      (∀ w ∈ memWords a.toNat d.length, x.badAt w = 0) →
      ∃ t, exec (.tileSpaceAccess .core (port .clean) a (some d) l) s = .next t ∧ t.rdResp = "OK" ∧
        t.tile[k].portBusy = (used x (portCycles true a.toNat d.length)).portBusy ∧
        t.tile[k].portLater = (used x (portCycles true a.toNat d.length)).portLater ∧
        t.tile[k].idleUsed = (used x (portCycles true a.toNat d.length)).idleUsed ∧
        (∀ i, (h : i < d.length) → held t.tile[k] (a.toNat + i) = d[i]) ∧
        (∀ i < 0x40000, i < a.toNat ∨ a.toNat + d.length ≤ i → held t.tile[k] i = held x i) ∧
        t.tile[k].moves = x.moves ∧ t.tile[k].pc = x.pc ∧ t.tile[k].st = x.st ∧ ∀ j : Fin 272, j ≠ k → t.tile[j] = s.tile[j]) ∧
    (∀ l : Fin 65, free → 4 ≤ l.val → a.toNat + l.val ≤ 0x40000 → (∀ w ∈ memWords a.toNat l, x.badAt w = 0) →
      smWf (fun _ => 0) x.bad = true →
      let busy := used x (portCycles false a.toNat l)
      let word := held x (a.toNat + 3) ++ held x (a.toNat + 2) ++ held x (a.toNat + 1) ++ held x a.toNat
      exec (.tileSpaceAccess .core (port .clean) a none l) s = .next (({ s with tile := s.tile.set k busy } : State).answer "OK" word) ∧
      (∃ t, exec (.tileSpaceAccess .core (port .memSingle) a none l) s = .next t ∧ t.rdResp = "OK" ∧ t.rdData = word ∧
        t.tile = s.tile.set k { busy with ceCnt := x.ceCnt + 1, ceAddr := a.toNat / 16, bad := smPut (fun _ => 0) x.bad (a.toNat / 16) 1 }) ∧
      ∃ t, exec (.tileSpaceAccess .core (port .memDouble) a none l) s = .next t ∧ t.rdResp = "SLVERR" ∧
        t.tile = s.tile.set k { busy with ueCnt := x.ueCnt + 1, ueAddr := a.toNat / 16, bad := smPut (fun _ => 0) x.bad (a.toNat / 16) 2 }) ∧
    (0x40000 ≤ a.toNat → a.toNat < 0x50000 → x.st ≠ .off → x.st ≠ .halted → ∀ (d : List Byte) (l : Fin 65), CanReport s evTileAccessRefused k →
      s.MemWf →
      ∃ t u, exec (.tileSpaceAccess .core (port .clean) a (some d) l) s = .next t ∧
        exec (.tileSpaceAccess .core (port .clean) a none l) s = .next u ∧
        t.tile = s.tile ∧ u.tile = s.tile ∧ u.rdData = 0 ∧ t.reg (rTileEvt k) = s.reg (rTileEvt k) ||| 16 ∧
        Reported s t evTileAccessRefused k ∧ Reported s u evTileAccessRefused k) ∧
    (CoreMayAccess s → s.FieldsGood (rTileCtrl k) →
      (x.st = .halted → s.frm.running = none →
        ∃ t, exec (.tileRestartWrite .core .p k ((s.reg (rTileCtrl k)) &&& 0xF3)) s = .next t ∧ t.tile[k].st = .idle ∧ t.tile[k].fCode = 0 ∧
          t.tile[k].outq = [] ∧ t.tile[k].lsuQ = [] ∧ t.tile[k].mem = x.mem ∧ t.tile[k].moves = x.moves ∧
          ∀ j : Fin 272, j ≠ k → t.tile[j] = s.tile[j]) ∧
      (∃ t, exec (.tileHwmClear .core .p k ((s.reg (rTileCtrl k)) &&& 0xF3)) s = .next t ∧
        t.tile = s.tile.set k { x with hwm := Vector.replicate 7 0 }))


/-! Frames -/

/-- R186, R187, R189, R198 to R200. -/
def Obligations.FramesSlipAndDispatch : Prop :=
  ∀ (s : State) (e : DueFrame), s.frm.due = [e] → e.late = false → (∀ w ∈ s.frm.switches, w.ms.isSome = true) →
    let last := e.due + s.rcpSA e.recipe * 800
    let p := s.nextProg e.recipe
    (s.ts ≤ last →
      exec .frameSlip s = .next s ∧
      (s.canDispatch e = false ∨ s.switchesDue ≠ [] ∨ s.cen.committed.any s.epochDue = true ∨ s.frm.stepReq ≠ none → exec .frameDispatch s = .next s) ∧
      (s.canDispatch e = true → s.switchesDue = [] → s.cen.committed.any s.epochDue = false → s.frm.stepReq = none → s.psq.swap = none → s.psq.swapped = [] →
        s.jnl.wait = [] → s.shadow = [] → s.res.growing = [] → s.frm.lateRun = false → s.MemWf →
        ∃ t r, exec .frameDispatch s = .next t ∧ t.frm.running = some r ∧ r.f = e.f ∧ r.prog = p ∧ r.len = ssBudget s.arrBytes p ∧
          r.out = s.sys.outEn ∧ r.late = false ∧ r.disp = s.ts ∧ t.frm.due = [] ∧ t.sys = s.sys ∧ t.res = s.res ∧
          t.reg rPsqFrmDisp = s.reg rPsqFrmDisp + 1 ∧
          ∀ k : Fin 272,
            (s.tile[k].st = .off → t.tile[k] = s.tile[k]) ∧
            (s.tile[k].st ≠ .off → s.tile[k].st ≠ .halted →
              t.tile[k].cyc = 0 ∧ t.tile[k].prog = p ∧ t.tile[k].frame = e.f ∧ t.tile[k].done = false ∧ t.tile[k].mem = s.tile[k].mem ∧
                (bitsN (s.tile[k].move p).toNat 44 40 = 0 → t.tile[k].st = .run ∧ t.tile[k].pc = bitsN (s.tile[k].move p).toNat 10 0)))) ∧
    (last < s.ts → s.reloadAhead e.line = true →
      ∃ t, exec .frameSlip s = .next t ∧ t.frm.due = [] ∧ t.frm.running = s.frm.running ∧ t.lane = s.lane ∧
        (s.MemWf → t.rf rPsqFrmSwitch 15 0 = min 65535 (s.rf rPsqFrmSwitch 15 0 + 1) ∧ t.reg rPsqFrmDrop = s.reg rPsqFrmDrop)) ∧
    (last < s.ts → s.reloadAhead e.line = false →
      (s.rcpSlipDrop e.recipe = false → CanReport s evFrmLate 0 → s.frm.lateRun = true →
        ∃ t, exec .frameSlip s = .next t ∧ t.frm.due = [{ e with late := true }] ∧ t.frm.lateN = s.frm.lateN + 1 ∧ Reported s t evFrmLate 0 ∧ t.tile = s.tile ∧
          t.frm.running = s.frm.running) ∧
      (s.rcpSlipDrop e.recipe = true → CanReport s evFrmDrop 0 → s.peat.queue.length ≤ 1022 →
        ∃ t, exec .frameSlip s = .next t ∧ t.frm.due = [] ∧ atV t.eru.cnt 2 0 = (atV s.eru.cnt 2 0 + 1) % 2 ^ 32 ∧
          t.frm.running = s.frm.running ∧ t.lane = s.lane))

/-- R192, R194, R197, R206 to R208, R475. That a frame which the overspeed band in force would not keep is not staged is the model's choice
(log 87). -/
def Obligations.StagingStepsAndSwitches : Prop :=
  ∀ (s : State), s.clk.shutdown = false →
    (∀ (h : Fin 32) (q : Fin 4) (j : Fin 128),
      let r := s.frm.recipe.getD 0
      let own := s.frm.staged = [] ∨ s.frm.stagedBy = (r, s.nextProg r)
      let kept := fun (m0 : Int) => s.frm.due ≠ [] ∨ s.frameKept r s.frm.band (s.frameOf m0) = true
      (s.frm.next = none → exec (.streamLineStage h q j) s = .next s) ∧
      (∀ m0, s.frm.next = some m0 → s.frm.switches = [] → own → (s.planeAt h q).wLast = none ∨ ¬ kept m0 →
        exec (.streamLineStage h q j) s = .next s) ∧
      ∀ (m0 a z : Int), s.frm.next = some m0 → (s.planeAt h q).wFirst = some a → (s.planeAt h q).wLast = some z → a ≤ m0 + j → m0 + j ≤ z →
        s.live = true → s.frm.reload = none → s.frm.switches = [] → own → kept m0 → (∀ e ∈ s.frm.staged, e.1.m ≠ m0 + j) →
        s.img.arr = some (s.rcpSS (s.frm.recipe.getD 0)) → j.val < s.rcpB (s.frm.recipe.getD 0) →
        let key := gddrKey (s.slotPort h) (s.slotAddr h q (m0 + j))
        let holds := (s.gdcAt (s.slotPort h)).st = 2 ∧ leNat (memGetBytes ramDefault s.gddr (key + 8) 8) = unsigned 64 (m0 + j)
        ∃ t x, exec (.streamLineStage h q j) s = .next t ∧ t.frm.staged = s.frm.staged ++ [x] ∧ t.frm.stagedBy = (r, s.nextProg r) ∧
          x.1.head = h.val ∧ x.1.q = q.val ∧
          x.1.m = m0 + j ∧ (x.2 = false ↔ holds) ∧ t.gddr = s.gddr ∧
          ∀ k : Fin 272, ∃ ws, t.tile[k].port ++ t.tile[k].engine = s.tile[k].port ++ s.tile[k].engine ++ ws ∧
            t.tile[k].mem = s.tile[k].mem ∧ (¬ holds → ∀ w ∈ ws, w.2 = 0 ∨ ∃ e ∈ s.tile[k].strWait, w ∈ e.2)) ∧
    (s.frm.stepReq = none → exec .aclkStepApply s = .next s) ∧
    (∀ n, s.frm.stepReq = some n →
      (s.frm.running.isSome = true → exec .aclkStepApply s = .next s) ∧
      (s.frm.running = none → ∃ t, exec .aclkStepApply s = .next t ∧ s.fastest ≤ t.frm.step ∧ (s.fastest ≤ n → t.frm.step = n) ∧
        t.frm = { s.frm with step := t.frm.step, stepReq := none, gapCyc := s.gapCycles, gapFrom := s.ts } ∧
        (t.frm.step = n → n ≤ s.frm.step → t.sent = s.sent ∧ t.clk = s.clk) ∧
        ∀ k : Fin 272, t.tile[k] = { s.tile[k] with idleFree := t.tile[k].idleFree, idleFrom := s.ts, idleUsed := 0 })) ∧
    (s.frm.recipe.isSome = true → s.frm.mode = 4 → 3 ≤ s.fastest) ∧ (s.rbit rClkAvsCtrl 7 = false → 1 ≤ s.fastest) ∧
    s.rf rClkCtrl 2 0 ≤ s.fastest ∧
    (∀ (w : Switch) (m x : Int) (old : Nat), s.frm.switches = [w] → w.ms = some m → w.isMode = false → s.frm.running = none →
      s.frm.reload = none → s.frm.next = some x → s.frm.recipe = some old → s.live = true →
      (x < m → exec .recipeSwitchEffect s = .next s) ∧
      (m ≤ x → s.rcpMode w.recipe ≠ 4 →
        (s.seamless (old, s.frm.mode) (w.recipe, s.rcpMode w.recipe) = true →
          ∃ t, exec .recipeSwitchEffect s = .next t ∧ t.frm.recipe = some w.recipe ∧ t.frm.mode = s.rcpMode w.recipe ∧
            t.frm.switches = [] ∧ t.frm.reload = none ∧ t.frm.due = s.frm.due ∧ t.tile = s.tile) ∧
        (s.seamless (old, s.frm.mode) (w.recipe, s.rcpMode w.recipe) = false →
          ∃ t r, exec .recipeSwitchEffect s = .next t ∧ t.frm.recipe = some w.recipe ∧ t.frm.reload = some r ∧ r.oldRecipe = old ∧
            r.recipe = w.recipe ∧ ∀ k : Fin 272, t.tile[k].mem = s.tile[k].mem))) ∧
    (∀ r, s.frm.reload = some r →
      (s.sysCopyUp = false → exec .reloadSwitchDone s = .next s) ∧
      (s.sysCopyUp = true → ∃ t, exec .reloadSwitchDone s = .next t ∧ t.frm.reload = none ∧ t.img.arr = some (s.rcpSS r.recipe) ∧
        t.frm.endTs = s.ts ∧ ∀ k : Fin 272, t.tile[k].mem = s.tile[k].mem)) ∧
    (s.frm.fallbackReq = false → exec .fallbackRecipeSelect s = .next s) ∧
    (∀ r, s.frm.fallbackReq = true → s.live = true → s.frm.running = none → s.frm.recipe = some r →
      (s.fallbackOf 63 r = none → exec .fallbackRecipeSelect s = .next { s with frm := { s.frm with fallbackReq := false } }) ∧
      ∀ x, s.fallbackOf 63 r = some x → s.frm.switches = [] →
        ∃ t w, exec .fallbackRecipeSelect s = .next t ∧ t.frm.switches = [w] ∧ w.recipe = x ∧ w.mode = s.rcpMode x ∧ w.seq = 0 ∧
          t.frm.fallbackReq = false ∧ s.clearOfLost x = true)

/-- R216, R218. -/
def Obligations.TwinMirrorAndWatch : Prop :=
  ∀ (s : State), s.clk.shutdown = false →
    (∀ (msg : FabMsg) (r : List FabMsg), s.fab.inbox = msg :: r → msg.mtype = 0x09 →
      let m := signed 64 (fieldAt msg.payload 8 8)
      let q := fieldAt msg.payload 30 1
      let h := fieldAt msg.payload 31 1
      (s.twinRole ≠ 2 → exec .mirrorSlotReceive s = .next { s with fab := { s.fab with inbox := r } }) ∧
      (s.twinRole = 2 → (s.recAt m).2 = 2 → h < 32 → q < 4 → s.frm.twinLost = true → s.peerGone = true →
        ∃ t, exec .mirrorSlotReceive s = .next t ∧ t.fab.inbox = r ∧ t.frm.twinLost = true ∧ t.frm.due = s.frm.due ∧ t.frm.running = s.frm.running) ∧
      (s.twinRole = 2 → (s.recAt m).2 = 2 → h < 32 → q < 4 → s.frm.twinLost = false →
        (∀ z, (s.planeAt h q).wLast = some z → m ≤ z → exec .mirrorSlotReceive s = .next { s with fab := { s.fab with inbox := r } }) ∧
        ((s.planeAt h q).wLast = some (m - 1) → (s.gdcAt (s.slotPort h)).st = 2 → s.MemWf → 64 ≤ msg.payload.length →
          ∃ t z, exec .mirrorSlotReceive s = .next t ∧ t.fab.inbox = r ∧ (t.planeAt h q).wLast = some z ∧ m ≤ z ∧
            (∃ x ∈ t.frm.slots, x.head = h ∧ x.q = q ∧ x.m = m ∧ x.flags = fieldAt msg.payload 28 2) ∧
            ∀ i < 64, memGet ramDefault t.gddr (gddrKey (s.slotPort h) (s.slotAddr h q m) + i) = msg.payload.getD i 0))) ∧
    (s.peerGone = false → exec .twinPeerLoss s = .next s) ∧
    (s.live = true → s.frm.mode = 2 → s.frm.twinLost = false → s.peerGone = true → CanReport s evTwinPeerLost 0 →
      (s.twinRole = 2 → ∃ t, exec .twinPeerLoss s = .next t ∧ t.frm.twinLost = true ∧ t.frm.due = [] ∧ t.frm.staged = [] ∧
        (s.frm.due = [] → Reported s t evTwinPeerLost 0)) ∧
      (s.twinRole = 1 → ∃ t, exec .twinPeerLoss s = .next t ∧ t.frm = { s.frm with twinLost := true } ∧ t.tile = s.tile ∧
        Reported s t evTwinPeerLost 0))


/-! Results -/

/-- R217, R264, R267, R270, R271. The first clause says when a frame is formed, decided or released, whatever its records are; the others
follow one record that waits alone. -/
def Obligations.FrameRecordsAndTwins : Prop :=
  ∀ (s : State), s.clk.shutdown = false →
    ((∀ (r : RunFrame) rest, s.frm.ended = r :: rest → s.endsIn r = true → s.live = true → ∃ t, exec .resultFrameForm s = .next t) ∧
      (∀ (msg : FabMsg) r, s.fab.inbox = msg :: r → msg.mtype = 0x02 → ∃ t, exec .frameCheckReceive s = .next t) ∧
      (∀ (w : TwinWait) r, s.res.twin = w :: r → w.at_ + w.wait * 800 ≤ s.ts → ∃ t, exec .twinWaitTimeout s = .next t) ∧
      ∃ t, exec .trackedHoldTimeout s = .next t) ∧
    (s.frm.ended = [] → s.live = false ∨ s.res.bands = [] → exec .resultFrameForm s = .next s) ∧
    (∀ (r : RunFrame) (rest : List RunFrame), s.frm.ended = r :: rest →
      (s.endsIn r = false ∨ s.live = false → exec .resultFrameForm s = .next s) ∧
      ∀ (k : Nat) (d e : OutqEnt), s.live = true → r.mode ≠ 1 → r.mode ≠ 2 → r.tiles = [k] → r.halted = [] →
        s.rcpHeads r.recipe = [] → s.res.growing = [] → s.res.bands = [] → s.res.outq = [d, e] → s.tileVcol k < 16 →
        (∀ x ∈ [d, e], x.frame = unsigned 16 r.f ∧ x.vcol = s.tileVcol k ∧ x.vrow = k % 16) → d.isEnd = false → e.isEnd = true →
        e.fault = false → e.poison = false → s.detKeeps r d = true → 1 ≤ s.rf rResCtrl 31 16 →
        let det := s.detOf r k 0 d
        s.rdomOf det.recipe det.rule det.fdom = det.fdom → s.ruleMkmask det.recipe det.rule = 0 → PlainRule s det → RingBusy s → s.MemWf →
        ∃ t, exec .resultFrameForm s = .next t ∧ t.frm.ended = rest ∧ t.res.outq = [] ∧ t.res.seq = (s.res.seq + 1) % 2 ^ 32 ∧
          t.mrk = s.mrk ∧ t.sent = s.sent ∧ (r.out = false → t.res.waiting = []) ∧
          (r.out = true → ∃ b, t.res.waiting = [b] ∧ IsDefect s det b ∧ bitN (fieldAt b 44 2) 0 = r.late)) ∧
    (∀ (w : TwinWait), s.res.twin = [w] →
      (s.ts < w.at_ + w.wait * 800 → exec .twinWaitTimeout s = .next s) ∧
      (∀ d, w.at_ + w.wait * 800 ≤ s.ts → w.bands = [] → w.dets = [d] → d.out = true → s.rdomOf d.recipe d.rule d.fdom = d.fdom →
        s.ruleMkmask d.recipe d.rule = 0 → PlainRule s d → RingBusy s → s.MemWf →
        ∃ t b, exec .twinWaitTimeout s = .next t ∧ t.res.twin = [] ∧ t.res.waiting = [b] ∧ IsDefect s d b ∧ bitN (fieldAt b 44 2) 7 = true ∧
          (CanReport s evTwinLate 0 → Reported s t evTwinLate 0)) ∧
      (∀ (msg : FabMsg) (r : List FabMsg), s.fab.inbox = msg :: r → msg.mtype = 0x02 →
        let crc := fieldAt msg.payload 8 4
        let took : State := { s with fab := { s.fab with inbox := r } }
        (s.twinRole ≠ 1 ∨ s.live = false → exec .frameCheckReceive s = .next took) ∧
        (s.twinRole = 1 → s.live = true → signed 64 (fieldAt msg.payload 0 8) ≠ w.frame → (∃ x ∈ s.frm.ended, x.f = signed 64 (fieldAt msg.payload 0 8)) →
          exec .frameCheckReceive s = .next { took with
            frm := { s.frm with twinLost := false },
            res := { s.res with checks := s.res.checks ++
              [{ frame := signed 64 (fieldAt msg.payload 0 8), crc := crc, fault := bitN (fieldAt msg.payload 12 1) 0 }] } }) ∧
        (s.twinRole = 1 → s.live = true → signed 64 (fieldAt msg.payload 0 8) = w.frame → w.bands = [] → w.dets = [] →
          (w.at_ + w.wait * 800 < s.ts → CanReport s evTwinLate 0 →
            ∃ t, exec .frameCheckReceive s = .next t ∧ t.res.twin = [] ∧ Reported s t evTwinLate 0) ∧
          (s.ts ≤ w.at_ + w.wait * 800 →
            let flt := bitN (fieldAt msg.payload 12 1) 0
            (crc = w.crc → flt = w.fault → exec .frameCheckReceive s =
              .next { took with frm := { s.frm with twinLost := false }, res := { s.res with twin := [] } }) ∧
            (crc ≠ w.crc ∨ flt ≠ w.fault → flt = true → CanReport s evTwinPeerFault 0 → s.MemWf →
              ∃ t, exec .frameCheckReceive s = .next t ∧ t.res.twin = [] ∧ t.rbit rPsqFrmEvt 6 = true ∧ Reported s t evTwinPeerFault 0) ∧
            (crc ≠ w.crc → flt = false → w.fault = false → CanReport s evTwinDisagree 0 → s.MemWf →
              ∃ t, exec .frameCheckReceive s = .next t ∧ t.res.twin = [] ∧ t.rbit rPsqFrmEvt 6 = true ∧ Reported s t evTwinDisagree 0) ∧
            (w.fault = true → flt = false → s.MemWf →
              ∃ t, exec .frameCheckReceive s = .next t ∧ t.res.twin = [] ∧ t.rbit rPsqFrmEvt 6 = true ∧ t.eru = s.eru))))) ∧
    ∀ (d : Det) (t0 : Nat), s.res.held = [.det d t0] → s.rdomOf d.recipe d.rule d.fdom ≠ d.fdom →
      s.translate d.fdom (s.rdomOf d.recipe d.rule d.fdom) d.y = .notYet →
      (s.ts < t0 + 1600000000 → exec .trackedHoldTimeout s = .next s) ∧
      (t0 + 1600000000 ≤ s.ts → d.out = true → PlainRule s d → RingBusy s → s.MemWf → CanReport s evResTrkOor 0 →
        ∃ t b, exec .trackedHoldTimeout s = .next t ∧ t.res.held = [] ∧ t.res.waiting = [b] ∧ IsDefect s d b ∧
          bitN (fieldAt b 44 2) 8 = true ∧ (d.flags < 256 → bitN (fieldAt b 44 2) 11 = decide (s.ruleMkmask d.recipe d.rule ≠ 0)) ∧
          Reported s t evResTrkOor 0 ∧ t.mrk = s.mrk)

/-- R274, R276 to R278, R280. That IRQ_T serves both rings, and what becomes of records and clips while no ring takes them, is the model's reading
(DEDUCED, logs 12 and 62). -/
def Obligations.RingsClipsAndTokens : Prop :=
  ∀ (s : State), s.clk.shutdown = false →
    (s.res.waiting = [] ∨ s.recRoom = false → exec .recordRingWrite s = .next s) ∧
    (∀ b, s.res.waiting = [b] → s.recRoom = true → s.rbit rResCtrl 1 = false →
      let at_ := s.reg64 rResRecBaseLo + 64 * (s.res.recR.pi % 2 ^ s.rf rResRecCfg 4 0)
      let pi := (s.res.recR.pi + 1) % 2 ^ 32
      ∃ t, exec .recordRingWrite s = .next t ∧ t.res.waiting = [] ∧ t.res.recR.pi = pi ∧ t.res.clipR = s.res.clipR ∧
        t.sent = .hostWrite (s.reg64 rResWbLo) (leBytes 4 pi ++ leBytes 4 s.res.clipR.pi) :: .hostWrite at_ b :: s.sent) ∧
    (∀ c cs, s.res.clips = c :: cs →
      let cut := fun (t : State) => t.res.clips = cs ∧ t.res.clipR.pi = (s.res.clipR.pi + 1) % 2 ^ 32 ∧ t.res.recR = s.res.recR
      (s.clipWaits c = true → exec .clipCut s = .next s) ∧
      (s.ts < c.at_ + 1600000 → exec .clipLineTimeout s = .next s) ∧
      (s.ringOpen (s.rbit rResCtrl 2) = true →
        (s.clipWaits c = false → ∃ t, exec .clipCut s = .next t ∧ cut t) ∧
        (c.at_ + 1600000 ≤ s.ts → ∃ t, exec .clipLineTimeout s = .next t ∧ cut t))) ∧
    (∃ t, exec .ringIrqTimer s = .next t ∧ t = { s with res := { s.res with recR := t.res.recR, clipR := t.res.clipR } } ∧
      ∀ p ∈ [(s.res.recR, t.res.recR), (s.res.clipR, t.res.clipR)],
        (p.1.unsig ≠ 0 → p.1.firstTs + s.rf rResRecCfg 15 8 * 800 ≤ s.ts → p.2 = { p.1 with unsig := 0, due := true }) ∧
        (p.1.unsig = 0 ∨ s.ts < p.1.firstTs + s.rf rResRecCfg 15 8 * 800 → p.2 = p.1)) ∧
    (∀ b r, s.res.waiting = b :: r → s.recRoom = true → ∃ t, exec .recordRingWrite s = .next t ∧ t.res.waiting.length ≤ r.length) ∧
    ∀ (msg : FabMsg) (r : List FabMsg), s.fab.inbox = msg :: r → msg.mtype = 0x01 →
      let b := msg.payload
      let took : State := { s with fab := { s.fab with inbox := r } }
      (s.sys.st ≠ .running → exec .tokenReceive s = .next (took.addWrap rResTokRx 1)) ∧
      (s.sys.st = .running → fieldAt b 64 1 = 0 → 65 ≤ b.length → s.rbit rResCtrl 3 = true → RingBusy s → s.MemWf →
        ∃ t x, exec .tokenReceive s = .next t ∧ t.res.waiting = [x] ∧ t.fab.inbox = r ∧ t.mrk = s.mrk ∧ t.res.seq = s.res.seq ∧
          x.length = 64 ∧ x.take 44 = b.take 44 ∧ fieldAt x 44 2 = fieldAt b 44 2 ||| 16384 ∧ (x.drop 46).take 14 = (b.drop 46).take 14 ∧
          fieldAt x 60 4 = crc32c (x.take 60) % 2 ^ 32)


/-! The position sequencer -/

/-- R241, R245 to R253, R262: the customer contexts, and the Kabrimor contexts in what the spec lays down of their words. What such a
context meets beside it (a stack past its end, a word outside its region) is the model's choice (log 96). -/
def Obligations.MicrowordsAndWaits : Prop :=
  ∀ (s : State), s.live = true → s.clk.shutdown = false →
    (∀ (c : Fin 8) (up : Bool), s.psq.cx[c].st ≠ 1 → exec (.microwordIssue c up) s = .next s) ∧
    (∀ c : Fin 8, s.psq.cx[c].st = 1 → CanReport s evPsqCsParity 0 → (s.slotAt 6).valid = false → (s.slotAt 7).valid = false →
      ∃ t, exec (.microwordIssue c true) s = .next t ∧ atV t.eru.cnt 3 0 = (atV s.eru.cnt 3 0 + 1) % 2 ^ 32 ∧ t.psq.cs = s.psq.cs) ∧
    ∀ c : Fin 8,
      let x := s.psq.cx[c]
      let w := s.cxWord c
      let k := decide (c.val < 6)
      let limit := if k then 0x1800 else 1024
      let target := if k then mw w 116 104 else mw w 113 104
      let put := fun (y : Cx) => ({ s with psq := { s.psq with cx := s.psq.cx.set c y } } : State)
      let goes := fun (y : Cx) => ({ put y with fresh := if k then s.fresh + 6 else s.fresh } : State)
      let idle := mw w 69 67 = 0 ∧ mw w 74 73 = 0 ∧ mw w 81 80 = 0 ∧ mw w 84 82 = 0 ∧ mw w 85 85 = 0 ∧ mw w 49 49 = 0 ∧ mw w 59 59 = 0 ∧ mw w 50 50 = 0
      let ends := fun (code : Nat) =>
        (k = false → CanReport s evPsqCxFault 0 →
          ∃ t, exec (.microwordIssue c false) s = .next t ∧ t.psq.cx[c].st = 3 ∧ t.psq.cx[c].fcode = code ∧
            (∀ j : Fin 8, j ≠ c → t.psq.cx[j] = s.psq.cx[j]) ∧ Reported s t evPsqCxFault 0) ∧
        (k = true → ∃ u < 0x1800, exec (.microwordIssue c false) s = .next (goes { x with upc := u }))
      (mwParityOk w = true → x.st = 1 →
        (mw w 95 92 ≠ 0 → exec (.microwordIssue c false) s = .next (put { x with st := 2, waitFrom := s.ts, sawGap := false, sawDisp := false })) ∧
        (mw w 95 92 = 0 → idle → mw w 64 62 = 0 →
          (mw w 119 117 = 0 → x.upc + 1 < limit → exec (.microwordIssue c false) s = .next (goes { x with upc := x.upc + 1 })) ∧
          (mw w 119 117 = 0 → limit ≤ x.upc + 1 → ends 3) ∧
          (mw w 119 117 = 1 → target < limit → exec (.microwordIssue c false) s = .next (goes { x with upc := target })) ∧
          (mw w 119 117 = 1 → limit ≤ target → ends 3) ∧
          (mw w 119 117 = 2 → target < limit → x.stack.length < 8 →
            exec (.microwordIssue c false) s = .next (goes { x with upc := target, stack := (x.upc + 1) :: x.stack })) ∧
          (mw w 119 117 = 2 → 8 ≤ x.stack.length → ends 1) ∧
          (∀ a r, mw w 119 117 = 3 → x.stack = a :: r → a < limit → exec (.microwordIssue c false) s = .next (goes { x with upc := a, stack := r })) ∧
          (mw w 119 117 = 3 → x.stack = [] → ends 2) ∧
          (mw w 119 117 = 4 → target < limit → x.upc + 1 < limit →
            exec (.microwordIssue c false) s = .next (goes { x with upc := if s.branchHolds c w then target else x.upc + 1 })) ∧
          (mw w 119 117 = 6 → k = true →
            (s.frm.due = [] → s.frm.switches = [] → target < limit → exec (.microwordIssue c false) s = .next (goes { x with upc := target })) ∧
            ∀ u, exec .frameDispatch s = .next u →
              ∃ t, exec (.microwordIssue c false) s = .next t ∧ t.frm = u.frm ∧ t.tile = u.tile ∧ t.regs = u.regs) ∧
          (mw w 119 117 = 7 → exec (.microwordIssue c false) s = .next (goes { x with st := 0 }))) ∧
        (mw w 95 92 = 0 → idle → mw w 119 117 = 1 → target < limit →
          let n := mw w 61 60
          let imm := w32 (mw w 31 0)
          ∀ p ∈ [(1, imm), (2, 0), (3, s.cntVal n + 1), (4, s.cntVal n - 1), (5, s.cntVal n + imm)], mw w 64 62 = p.1 →
            exec (.microwordIssue c false) s =
              let t := goes { x with upc := target }
              .next (if k then t else { t with psq := { t.psq with cnt := setV s.psq.cnt n p.2 } }))) ∧
      (x.st ≠ 2 → exec (.psqWaitEnd c) s = .next s ∧ exec (.psqWaitTimeout c) s = .next s) ∧
      (x.st = 2 →
        (s.waitHolds c w = false → exec (.psqWaitEnd c) s = .next s) ∧
        (s.waitHolds c w = true → idle → mw w 64 62 = 0 → mw w 119 117 = 1 → target < limit → (∀ n ∈ [4, 5, 6], mw w 95 92 ≠ n) →
          let cap := if mw w 95 92 = 1 then s.cmpVal (mw w 91 88 % 4) else s.coordNow (s.cxDom c)
          exec (.psqWaitEnd c) s = .next (goes { x with st := 1, upc := target, cap := cap })) ∧
        (s.timedOut c w = false ∨ s.waitHolds c w = true → exec (.psqWaitTimeout c) s = .next s) ∧
        (s.timedOut c w = true → s.waitHolds c w = false → target < limit →
          exec (.psqWaitTimeout c) s = .next (put { x with st := 1, upc := target })))

/-- R242, R244, R246, R258 to R260, R263. -/
def Obligations.ControlStoreAndPages : Prop :=
  ∀ (s : State), s.clk.shutdown = false →
    (CoreMayAccess s →
      (∀ (a : BitVec 13) (i : Fin 3) (w : Word), ∃ t, exec (.csHoldingWrite .core .p a i w) s = .next t ∧
        t.psq = { s.psq with hold := s.psq.hold.set i w } ∧ t.rdResp = "OK" ∧ t.frm = s.frm) ∧
      (∀ (a : BitVec 13) (w : Word),
        let h := fun (i : Fin 3) => s.psq.hold[i].toNat
        let word := mwStore (h 0 + 2 ^ 32 * h 1 + 2 ^ 64 * h 2 + 2 ^ 96 * (w.toNat % 2 ^ 24))
        let page := fun (p : Nat) => 0x1800 + 0x400 * p ≤ a.toNat ∧ a.toNat < 0x1C00 + 0x400 * p
        (s.live = true → s.psq.swap = none → s.psq.page < 2 → page (1 - s.psq.page) → mwReason word = 0 → smWf csDefault s.psq.cs = true →
          ∃ t, exec (.csWordCommit .core .p a w) s = .next t ∧ t.csWord a.toNat = word ∧ mwParityOk word = true ∧
            (∀ b ≠ a.toNat, t.csWord b = s.csWord b) ∧ t.psq = { s.psq with cs := t.psq.cs } ∧ t.rdResp = "OK") ∧
        ((page s.psq.page ∨ s.psq.swap ≠ none ∨ s.live = false) → s.MemWf →
          ∃ t, exec (.csWordCommit .core .p a w) s = .next t ∧ t.psq = s.psq ∧ t.rf rPsqCsErr 31 28 = 1 ∧ t.rf rPsqCsErr 12 0 = a.toNat ∧
            t.rbit rPsqEvt 0 = true) ∧
        (a.toNat < 0x1800 → s.psq.page < 2 → s.live = true → s.psq.swap = none → s.MemWf →
          ∃ t, exec (.csWordCommit .core .p a w) s = .next t ∧ t.psq = s.psq ∧ t.rf rPsqCsErr 31 28 = 2 ∧ t.rbit rPsqEvt 0 = true)) ∧
      (∀ (k : Fin 2) (c : Fin 8), c.val = 6 + k.val → s.FieldsGood (rPsqCxCtrl k) → s.MemWf →
        ∃ t, exec (.psqCxRestart .core .p k (s.reg (rPsqCxCtrl k))) s = .next t ∧ t.rdResp = "OK" ∧
          let st := if s.live && s.rbit (rPsqCxCtrl k) 0 then 1 else 0
          t.psq = { s.psq with cx := s.psq.cx.set c { s.psq.cx[c] with st := st, upc := k, stack := [], fcode := 0 } }) ∧
      (s.psq.uevt = [] → exec (.psqUevtRead .core .p) s = .next (s.answer "OK" 0)) ∧
      (∀ e r, s.psq.uevt = e :: r → e.cx < 2 → e.code < 256 → s.MemWf → ∃ t, exec (.psqUevtRead .core .p) s = .next t ∧
        t.rdData = w32 (2 ^ 31 + 2 ^ 24 * e.cx + e.code) ∧ t.psq = { s.psq with uevt := r } ∧ t.reg64 rPsqUevtCrdLo = unsigned 64 e.crd)) ∧
    (s.psq.swap = none → exec .pageSwapEffect s = .next s ∧ ∀ bad, exec (.pageSwapCheckDone bad) s = .next s) ∧
    (∀ q, s.psq.swap = some q → q.checked = false →
      exec .pageSwapEffect s = .next s ∧
      ((∀ x ∈ s.jnl.wait, x.seq ≠ q.seq) → ∀ bad, exec (.pageSwapCheckDone bad) s = .next s) ∧
      ((∃ x ∈ s.jnl.wait, x.seq = q.seq) →
      (∀ b : Fin 1024, ∃ t, exec (.pageSwapCheckDone (some b)) s = .next t ∧ t.psq = { s.psq with swap := none }) ∧
      ((∀ i < 1024, mwParityOk (s.csWord (pageAddr (1 - s.psq.page) i)) = true) → s.fdomGoes = true →
        exec (.pageSwapCheckDone none) s = .next { s with psq := { s.psq with swap := some { q with checked := true } } }))) ∧
    (∀ q, s.psq.swap = some q → q.checked = true →
      (s.frm.running.isSome = true → s.fdomGoes = true → exec .pageSwapEffect s = .next s) ∧
      (s.frm.running = none → s.frm.switches = [] → s.cen.committed.any s.epochDue = false → ∃ t, exec .pageSwapEffect s = .next t ∧ t.psq.page = 1 - s.psq.page ∧ t.psq.swap = none ∧
        t.psq.swapped = s.psq.swapped ++ [q.seq] ∧
        t.psq.cnt = s.psq.cnt ∧ t.psq.cmp = s.psq.cmp ∧ t.mrk = s.mrk ∧
        ∀ c : Fin 8, 6 ≤ c.val → t.psq.cx[c].upc = c.val - 6 ∧ t.psq.cx[c].stack = [] ∧ t.psq.cx[c].cap = s.psq.cx[c].cap))


/-! The fabric -/

/-- R293, R294, R296, R298, R311: the words of a control block are read as they were formed. -/
def Obligations.FabricLinks : Prop :=
  ∀ (s : State) (p : Fin 4), s.clk.shutdown = false →
    let q := s.fport[p]
    let put := fun (y : FabPort) => ({ s with fport := s.fport.set p y } : State)
    let down := fun (t : State) =>
      t.fport[p].st = (if 2 ≤ (q.downs.filter fun u => decide (s.ts < u + 800000000)).length then 3 else 1) ∧ t.fport[p].downAt = s.ts ∧
        t.rbit (rFabPEvt p) 1 = true ∧ t.reg (rFabPDowns p) = s.reg (rFabPDowns p) + 1 ∧ t.fab.topoDue = true ∧
        ∀ r : Fin 4, r ≠ p → t.fport[r].st = s.fport[r].st
    (s.fabEn = false ∨ q.st ≠ 1 → exec (.fabLinkUp p) s = .next s) ∧
    (s.fabEn = true → q.st = 1 → s.fabUse p = 1 ∨ s.fabUse p = 2 → CanReport s evFabLinkUp p →
      ∃ t, exec (.fabLinkUp p) s = .next t ∧ t.fport[p].st = 2 ∧ t.fport[p].mode = q.trying ∧ t.fport[p].lastHello = s.ts ∧
        (∀ tc : Fin 4, t.fport[p].tx[tc] = FabTxq.init ∧ t.fport[p].rx[tc] = FabRxq.init) ∧ Reported s t evFabLinkUp p ∧
        ∀ r : Fin 4, r ≠ p → t.fport[r] = s.fport[r]) ∧
    exec (.fabRateAlternate p) s = .next (if q.st = 1 ∧ s.rf (rFabPCtrl p) 5 4 = 0 ∧ q.since + 160000000 ≤ s.ts
      then put { q with trying := 3 - q.trying, since := s.ts } else s) ∧
    exec (.fabHolddownEnd p) s = .next (if q.st = 3 ∧ q.since + 8000000 ≤ s.ts then put { q with st := 1, since := s.ts } else s) ∧
    (q.st ≠ 2 → exec (.fabBlockLockLoss p) s = .next s ∧ exec (.fabHelloTimeout p) s = .next s ∧
      (∀ n, exec (.fabFecBurst p n) s = .next s) ∧ ∀ a d l, exec (.helloReceive p a d l) s = .next s) ∧
    (∀ (ct : BitVec 8) (src : Option (Fin 512)) (tx : BitVec 64) (body : List Byte), body.length = 16 → bodyOk ct.toNat body = true →
      fabCtlOf (ctlWords ct.toNat (src.map (·.val)) tx.toNat body) =
        some { ctype := ct.toNat, src := src.map (·.val), txtime := tx.toNat, body := body }) ∧
    (q.st = 2 → s.MemWf →
      (∃ t, exec (.fabBlockLockLoss p) s = .next t ∧ down t) ∧
      (∀ n, 16 < n → ∃ t, exec (.fabFecBurst p n) s = .next t ∧ down t) ∧
      (∀ n, n ≤ 16 → exec (.fabFecBurst p n) s = .next (s.addWrap (rFabPFecUnc p) n)) ∧
      (q.lastHello + 40000 ≤ s.ts → ∃ t, exec (.fabHelloTimeout p) s = .next t ∧ down t) ∧
      (s.ts < q.lastHello + 40000 → exec (.fabHelloTimeout p) s = .next s) ∧
      (CoreMayAccess s → s.FieldsGood (rFabPCtrl p) →
        ∃ t, exec (.fabRetrainWrite .core .p p (s.reg (rFabPCtrl p))) s = .next t ∧ down t ∧ t.rdResp = "OK") ∧
      ∀ a d l,
        let hello := exec (.helloReceive p a d l) s
        let c := fabCtlOf (a :: d ++ [l])
        (c = none → hello = .next (s.addSat (rFabPCtl p) 31 16 1)) ∧
        ∀ b, c = some b →
          (b.ctype ≠ 0x10 → b.ctype ≠ 0x11 → hello = .next s) ∧
          (b.ctype = 0x10 → ∃ t, hello = .next t ∧ t.fport[p].lastHello = s.ts ∧ t.fport[p].peerSerial = some (fieldAt b.body 0 8) ∧
            t.fport[p].peerUse = bitsN (fieldAt b.body 9 1) 3 2 ∧ t.fport[p].peerAddr = b.src ∧ t.fport[p].tx = q.tx ∧ t.fport[p].rx = q.rx) ∧
          (b.ctype = 0x11 → ∃ t, hello = .next t ∧ t.fport[p].lastHello = s.ts ∧ t.fport[p].rootSerial = some (fieldAt b.body 0 8) ∧
            t.fport[p].rootPrio = fieldAt b.body 8 1 ∧ t.fport[p].dist = fieldAt b.body 9 1 ∧ t.fport[p].up = bitN (fieldAt b.body 12 1) 0)) ∧
    (s.fabEn = false ∨ (q.st ≠ 1 ∧ q.st ≠ 2) ∨ (∃ u, q.helloAt = some u ∧ s.ts < u + 4000) → exec (.helloSend p) s = .next s) ∧
    (s.fabEn = true → q.st = 1 ∨ q.st = 2 → (∀ u, q.helloAt = some u → u + 4000 ≤ s.ts) → ∃ body, body.length = 16 ∧
      exec (.helloSend p) s = .next { put { q with sendB := !q.sendB, helloAt := some s.ts } with
        sent := .fabCtl p (ctlWords (if q.sendB then 0x11 else 0x10) s.fab.addr s.fabricTime body) :: s.sent } ∧
      (q.sendB = false → body.take 8 = leBytes 8 s.otp.serial) ∧ (q.sendB = true → body.take 8 = leBytes 8 s.fab.rootSerial))

/-- R295 to R306, R314: a mismatched link carries HELLO alone, IDLE between, and the words of a payload block are read as they were formed. That
ACK_T runs again for good blocks that an ACK does not pass, and for one that passes a lost SEQ, is the model's reading (DEDUCED, log 102). -/
def Obligations.FabricBlocks : Prop :=
  ∀ (s : State) (p : Fin 4), s.clk.shutdown = false →
    let q := s.fport[p]
    let putTx := fun (tc : Fin 4) (y : FabTxq) => ({ s with fport := s.fport.set p { q with tx := q.tx.set tc y } } : State)
    let words := fun (ct : Nat) (body : List Byte) => Sent.fabCtl p (ctlWords ct s.fab.addr s.fabricTime body)
    let idle : State := { s with sent := .fabBlock p [fabIdle] :: s.sent }
    let acked := fun (t : State) (tc : Fin 4) => t.fport[p].rx[tc].ackFirst = (if q.rx[tc].got = [] then none else some s.ts) ∧
      t.fport[p].rx[tc].ackCnt = 0 ∧
      t.fport[p].rx[tc].lastAck = s.ts ∧ t.fport[p].rx[tc].base = q.rx[tc].base ∧ t.regs = s.regs ∧
      ∃ body, t.sent = words 0x18 body :: s.sent ∧ body.length = 16 ∧ fieldAt body 0 1 = tc.val ∧ fieldAt body 1 1 = 0 ∧
        fieldAt body 2 2 = q.rx[tc].base % 65536 ∧ fieldAt body 4 2 = q.rx[tc].freed % 65536
    (∀ (b : FabBlk) (seq : BitVec 16) (resend : Bool), b.tc < 4 → b.mtype < 64 → b.dst < 512 → b.hops < 32 → b.src < 512 → 1 ≤ b.len →
      b.len ≤ 512 → b.msgid < 65536 → b.frag < 256 → b.nfrag < 256 → b.payload.length = b.len →
      fabBlkOf (b.words seq.toNat resend) = some (seq.toNat, b)) ∧
    (q.st ≠ 2 → (∀ b, exec (.fabPayloadBlockReceive p b) s = .next s) ∧ (∀ a b c d e, exec (.fabAckReceive p a b c d e) s = .next s) ∧
      ∀ a b c d e, exec (.txstateReceive p a b c d e) s = .next s) ∧
    (s.portUp p = false → exec (.fabBlockTransmit p) s = .next (if s.fabEn = true ∧ (q.st = 1 ∨ q.st = 2) then idle else s) ∧ exec (.fabTxstateSend p) s = .next s ∧
      ∀ tc, exec (.fabAckTimer p tc) s = .next s ∧ exec (.fabAckRepeat p tc) s = .next s ∧ exec (.fabResendTimeout p tc) s = .next s) ∧
    (q.st = 2 →
      (∀ b : FabIn, let s0 := (s.addWrap (rFabPFecCorr p) b.corrected).addWrap (rFabPFecUnc p) b.uncorrectable
        (fabBlkOf b.words = none → exec (.fabPayloadBlockReceive p b) s = .next (s0.addWrap (rFabPBlkBad p) 1)) ∧
        ∀ seq (x : FabBlk), fabBlkOf b.words = some (seq, x) →
          (s.useDiffers p = true → exec (.fabPayloadBlockReceive p b) s = .next s0) ∧
          (s.useDiffers p = false → s.MemWf → ∀ tc : Fin 4, tc.val = x.tc →
            (0 < q.rx[tc].base → seq = (q.rx[tc].base - 1) % 65536 →
              exec (.fabPayloadBlockReceive p b) s = .next ((s0.addWrap (rFabPBlkRx p) 1).addSat (rFabPResend p) 15 0 1)) ∧
            (seq = q.rx[tc].base % 65536 → q.rx[tc].got = [] → q.rx[tc].held = [] → q.rx[tc].lost = [] → q.rx[tc].missing = [] →
              q.rx[tc].top = q.rx[tc].base → s.fab.addr = some x.dst → x.bcast = false → x.nfrag = 0 → x.frag = 0 → s.fab.reasm = [] →
              knownMsg x.tc x.mtype = true → x.mtype ≠ 0x20 → x.mtype ≠ 0x09 →
              ∃ t, exec (.fabPayloadBlockReceive p b) s = .next t ∧ t.fport[p].rx[tc].base = q.rx[tc].base + 1 ∧
                t.fport[p].rx[tc].freed = q.rx[tc].freed + 1 ∧ t.fport[p].rx[tc].held = [] ∧
                t.fab.inbox = s.fab.inbox ++ [{ src := x.src, nosrc := x.nosrc, tc := x.tc, mtype := x.mtype, payload := x.payload }]))) ∧
      (∀ a b c d e, let ack := exec (.fabAckReceive p a b c d e) s
        let w := fabCtlOf [a, b, c, d, e]
        (w = none → ack = .next (s.addSat (rFabPCtl p) 31 16 1)) ∧
        ∀ y, w = some y → (y.ctype ≠ 0x18 ∨ s.useDiffers p = true → ack = .next s) ∧
          (y.ctype = 0x18 → s.useDiffers p = false → fieldAt y.body 1 1 = 0 → ∀ (tc : Fin 4) (i j : Nat), tc.val = fieldAt y.body 0 1 →
            let x := q.tx[tc]
            x.base + i ≤ x.next → i < 32768 → x.freed + j ≤ x.next → j < 32768 → fieldAt y.body 2 2 = (x.base + i) % 65536 →
            fieldAt y.body 4 2 = (x.freed + j) % 65536 →
            ack = .next (putTx tc { x with
              base := x.base + i, freed := x.freed + j, unsettled := x.unsettled.filter fun u => decide (x.base + i ≤ u.1),
              resend := x.resend.filter fun u => decide (x.base + i ≤ u) }))) ∧
      (∀ a b c d e, let txs := exec (.txstateReceive p a b c d e) s
        let w := fabCtlOf [a, b, c, d, e]
        (w = none → txs = .next (s.addSat (rFabPCtl p) 31 16 1)) ∧
        ∀ y, w = some y → (y.ctype ≠ 0x19 ∨ s.useDiffers p = true → txs = .next s) ∧
          (y.ctype = 0x19 → s.useDiffers p = false → (∀ tc : Fin 4, q.rx[tc].top = q.rx[tc].base) →
            (∀ tc : Fin 4, tc ≠ 0 → fieldAt y.body (2 * tc.val) 2 = q.rx[tc].base % 65536) →
            let r := q.rx[(0 : Fin 4)]
            (fieldAt y.body 0 2 = r.base % 65536 → txs = .next s) ∧
            (fieldAt y.body 0 2 = (r.base + 1) % 65536 → r.got = [] → r.missing = [] →
              ∃ t body, txs = .next t ∧ t.fport[p].rx[(0 : Fin 4)].missing = [{ seq := r.base, reqs := 1, last := s.ts }] ∧
                t.sent = words 0x18 body :: s.sent ∧ fieldAt body 1 1 = 1 ∧ fieldAt body 6 2 = r.base % 65536)))) ∧
    (s.portUp p = true →
      (s.fabPick p = none → exec (.fabBlockTransmit p) s = .next idle) ∧
      (s.fab.addr = none → (∀ tc : Fin 4, (∀ n ∈ q.tx[tc].resend, ∃ b, q.tx[tc].unsettled.find? (fun u => u.1 == n) = some (n, b) ∧ b.mtype ≠ 0x20 ∧
          b.mtype ≠ 0x21) ∧ ∀ w ∈ q.tx[tc].waiting, w.blk.mtype ≠ 0x20 ∧ w.blk.mtype ≠ 0x21) → exec (.fabBlockTransmit p) s = .next idle) ∧
      (∀ n r b, q.tx[(0 : Fin 4)].resend = n :: r → q.tx[(0 : Fin 4)].unsettled.find? (fun u => u.1 == n) = some (n, b) → s.maySend b.mtype = true →
        ∃ t, exec (.fabBlockTransmit p) s = .next t ∧
          t.fport[p].tx = q.tx.set 0 { q.tx[(0 : Fin 4)] with resend := r } ∧ t.sent = .fabBlock p (b.words n true) :: s.sent) ∧
      (∀ w r, let x := q.tx[(0 : Fin 4)]; x.resend = [] → x.waiting = w :: r → s.maySend w.blk.mtype = true → w.inPort = none → 0 < x.credits 0 → x.next - x.base < 16 →
        let b := { w.blk with down := w.blk.down || s.hopDown p }
        ∃ t, exec (.fabBlockTransmit p) s = .next t ∧ t.sent = .fabBlock p (b.words x.next false) :: s.sent ∧
          t.fport[p].tx = q.tx.set 0 { x with waiting := r, next := x.next + 1, unsettled := x.unsettled ++ [(x.next, b)] }) ∧
      (∀ (tc : Fin 4) u, q.rx[tc].ackFirst = some u →
        (s.ts < u + s.fabAckT p → exec (.fabAckTimer p tc) s = .next s) ∧
        (u + s.fabAckT p ≤ s.ts → ∃ t, exec (.fabAckTimer p tc) s = .next t ∧ acked t tc)) ∧
      (∀ tc : Fin 4, (q.rx[tc].taken ≤ q.rx[tc].freed ∨ s.ts < q.rx[tc].lastAck + 800 → exec (.fabAckRepeat p tc) s = .next s) ∧
        (q.rx[tc].freed < q.rx[tc].taken → q.rx[tc].lastAck + 800 ≤ s.ts → ∃ t, exec (.fabAckRepeat p tc) s = .next t ∧ acked t tc)) ∧
      ((∀ tc : Fin 4, q.tx[tc].unsettled = []) → exec (.fabTxstateSend p) s = .next s) ∧
      (∀ u, q.txstateAt = some u → s.ts < u + 800 → exec (.fabTxstateSend p) s = .next s) ∧
      (∀ tc : Fin 4, q.tx[tc].unsettled ≠ [] → (∀ u, q.txstateAt = some u → u + 800 ≤ s.ts) → ∃ body,
        exec (.fabTxstateSend p) s = .next { s with fport := s.fport.set p { q with txstateAt := some s.ts }, sent := words 0x19 body :: s.sent } ∧
        body.length = 16 ∧ ∀ e : Fin 4, fieldAt body (2 * e.val) 2 = q.tx[e].next % 65536) ∧
      ∀ (tc : Fin 4) (m : Missing), q.rx[tc].missing = [m] →
        (s.ts < m.last + s.fabResendTo p → exec (.fabResendTimeout p tc) s = .next s) ∧
        (m.last + s.fabResendTo p ≤ s.ts → m.reqs < 3 → ∃ t, exec (.fabResendTimeout p tc) s = .next t ∧
          t.fport[p].rx[tc].missing = [{ m with reqs := m.reqs + 1, last := s.ts }] ∧ t.fport[p].rx[tc].base = q.rx[tc].base) ∧
        (m.last + s.fabResendTo p ≤ s.ts → 3 ≤ m.reqs → m.seq = q.rx[tc].base → q.rx[tc].got = [] → q.rx[tc].held = [] →
          q.rx[tc].lost = [] → CanReport s evFabBlockLost p →
          ∃ t, exec (.fabResendTimeout p tc) s = .next t ∧ t.fport[p].rx[tc].missing = [] ∧ t.fport[p].rx[tc].base = q.rx[tc].base + 1 ∧
            t.fport[p].rx[tc].freed = q.rx[tc].freed + 1 ∧ t.fport[p].rx[tc].ackFirst = some (q.rx[tc].ackFirst.getD s.ts) ∧
            Reported s t evFabBlockLost p)) ∧
    ∀ r : Reasm, s.fab.reasm = [r] →
      (s.ts < r.first + s.rf rFabCtrl 15 8 * 800 → exec .fabMsgTimeout s = .next s) ∧
      (r.first + s.rf rFabCtrl 15 8 * 800 ≤ s.ts →
        exec .fabMsgTimeout s = .next (({ s with fab := { s.fab with reasm := [] } } : State).addWrap rFabMsgInc 1))

/-- R309, R312 to R316, R319, R507. That a P-view write which its session does not cover is counted by the gate as well as by the view is the
model's reading (DEDUCED, log 116). -/
def Obligations.FabricMapAndRemote : Prop :=
  ∀ (s : State), s.clk.shutdown = false →
    (s.fabEn = false → ∀ c ∈ [Instr.topoSend, .mapBroadcast, .rootSeqTick, .rootSeqTimeout, .discoveryTimeout], exec c s = .next s) ∧
    (s.fabEn = true →
      (s.fab.topoDue = true → s.fab.isRoot = true →
        exec .topoSend s = .next { s with fab := { s.fab with lastTopo := s.ts, topoDue := false, mapDue := true } }) ∧
      (∀ p : Fin 4, s.fab.topoDue = true → s.fab.isRoot = false → s.fab.upPort = some p → s.portUp p = true →
        ∃ t dst b, exec .topoSend s = .next t ∧ t.sent = .fabMsg 3 0x20 dst b :: s.sent ∧ t.fab.topoDue = false ∧ t.fab.lastTopo = s.ts) ∧
      (s.fab.topoDue = false → s.ts < s.fab.lastTopo + 80000000 → exec .topoSend s = .next s) ∧
      (s.fab.isRoot = false → s.fab.upPort = none → exec .topoSend s = .next s) ∧
      (s.fab.mapDue = false → s.ts < s.fab.lastTopo + 80000000 → exec .mapBroadcast s = .next s) ∧
      (s.fab.isRoot = false → exec .mapBroadcast s = .next s ∧ exec .rootSeqTick s = .next s) ∧
      (s.fab.isRoot = true → s.fab.mapDue = true → ∃ t, exec .mapBroadcast s = .next t ∧ t.fab.mapDue = false ∧ t.fab.mapNew = true ∧
        t.fab.mapEpoch = (if t.fab.map = s.fab.map then s.fab.mapEpoch else (s.fab.mapEpoch + 1) % 2 ^ 32)) ∧
      (s.fab.isRoot = true →
        (s.fab.rootSeqAt + 8000 ≤ s.ts →
          exec .rootSeqTick s = .next { s with fab := { s.fab with rootSeq := (s.fab.rootSeq + 1) % 65536, rootSeqAt := s.ts } }) ∧
        (s.ts < s.fab.rootSeqAt + 8000 → exec .rootSeqTick s = .next s) ∧ exec .rootSeqTimeout s = .next s) ∧
      (s.fab.isRoot = false → s.ts < s.fab.rootSeqAt + 80000 → exec .rootSeqTimeout s = .next s) ∧
      (s.fab.isRoot = false → s.fab.rootSeqAt + 80000 ≤ s.ts → ∃ t, exec .rootSeqTimeout s = .next t ∧ ∀ p : Fin 4,
        t.fport[p].rootSerial = if s.fport[p].rootSerial = some s.fab.rootSerial then none else s.fport[p].rootSerial) ∧
      exec .discoveryTimeout s = .next (
        if s.sys.st = .train ∧ s.fab.discDone = false ∧ s.sys.stAt + 10 * s.rf rFabCtrl 23 16 * 800000 ≤ s.ts
        then { s with fab := { s.fab with part := true, discDone := true, discAt := s.ts } } else s)) ∧
    exec .addrReserveExpiry s =
      .next { s with fab := { s.fab with reserved := s.fab.reserved.filter fun r => decide (s.ts < r.2.2 + 8000000000) } } ∧
    (s.fab.mapNew = false → exec .routeTableSwitch s = .next s) ∧
    (s.fab.mapNew = true → ∃ t, exec .routeTableSwitch s = .next t ∧
      t = { s with fab := { s.fab with mapNew := false, table := t.fab.table, downs := t.fab.downs, dead := t.fab.dead } } ∧
      (∀ p : Fin 4, p.val ∈ t.fab.dead ↔ s.portUp p = false) ∧
      (s.fab.addr = none → t.fab.table = [] ∧ t.fab.downs = []) ∧
      ∀ a, s.fab.addr = some a → (∀ k ∈ t.fab.downs, ∃ b, (k, b) ∈ mapPeers s.fab.map a) ∧ t.fab.table.map (·.addr) = s.fab.map.map (·.addr) ∧ ∀ x ∈ t.fab.table, (x.self = true ↔ x.addr = a) ∧
        (x.addr = a → x.hops = 0 ∧ x.pri = none)) ∧
    (∀ (m : FabMsg) (r : List FabMsg), s.fab.inbox = m :: r →
      let took : State := { s with fab := { s.fab with inbox := r } }
      (m.mtype = 0x20 → s.fab.isRoot = true → ∃ t x, exec .topoReceive s = .next t ∧ t.fab.inbox = r ∧ x.at_ = s.ts ∧
        t.fab.topos = x :: s.fab.topos.filter fun y => y.serial != x.serial) ∧
      (m.mtype = 0x20 → s.fab.isRoot = false → s.fab.upPort = none → exec .topoReceive s = .next took) ∧
      (m.mtype = 0x21 → s.fab.isRoot = true ∨ fieldAt m.payload 8 8 ≠ s.fab.rootSerial → exec .mapReceive s = .next took) ∧
      (m.mtype = 0x21 → s.fab.isRoot = false → fieldAt m.payload 8 8 = s.fab.rootSerial → ∃ t, exec .mapReceive s = .next t ∧
        t.fab.map = mapRecsOf m.payload ∧ t.fab.mapNew = true ∧ t.fab.mapEpoch = fieldAt m.payload 0 4 ∧
        t.fab.addr = (t.fab.map.find? fun x => x.serial == s.otp.serial).map (·.addr)) ∧
      (m.mtype = 0x38 → exec .fwMsgReceive s = .next { took with core := { s.core with fwMsg := s.core.fwMsg ++ [m] } }) ∧
      (m.mtype = 0x29 → s.fab.ra = none → exec .regRspReceive s = .next took) ∧
      (∀ x, m.mtype = 0x29 → s.fab.ra = some x → x.tag = fieldAt m.payload 2 2 → x.dev = m.src → s.MemWf →
        ∃ t, exec .regRspReceive s = .next t ∧ t.fab.ra = none ∧ t.reg rFabRaData = (if x.write then s.reg rFabRaData else w32 (fieldAt m.payload 8 4)) ∧
          t.rf rFabRaCmd 11 9 = fieldAt m.payload 0 1 % 8) ∧
      (m.mtype = 0x28 → m.nosrc = true → 2 ^ 25 ≤ fieldAt m.payload 4 4 → exec .regReqReceive s = .next took) ∧
      (∀ a, m.mtype = 0x28 → m.nosrc = false → s.fabEn = true → s.fab.addr = some a → m.src ≠ a → m.src < 512 → fieldAt m.payload 0 1 = 3 →
        let o := fieldAt m.payload 4 4 / 4 * 4
        fieldAt m.payload 4 4 < 2 ^ 25 → (regSpec o).isSome = true → openReg (fieldAt m.payload 4 4) = false → s.sys.st ≠ .hold → s.sys.st ≠ .wiped →
        s.sessionOpen m.src = false →
        ∃ t rsp, exec .regReqReceive s = .next t ∧ t.eru.udrop = (s.eru.udrop + 1) % 2 ^ 32 ∧ (s.MemWf → t.reg rSecNosess = s.reg rSecNosess + 1) ∧
          t.sent = .fabMsg 3 0x29 m.src rsp :: s.sent ∧ fieldAt rsp 0 1 = 1 ∧ fieldAt rsp 2 2 = fieldAt m.payload 2 2) ∧
      -- a request that is served: a read in the U view, and in the P view without a session; a write in the P view with one
      (∀ a rg, m.mtype = 0x28 → m.nosrc = false → s.fabEn = true → s.fab.addr = some a → m.src ≠ a → m.src < 512 → s.sys.st ≠ .hold →
        s.sys.st ≠ .wiped → s.hiLatch = [] →
        let o := fieldAt m.payload 4 4 / 4 * 4
        let op := fieldAt m.payload 0 1
        let who := Requester.fabric (BitVec.ofNat 9 m.src)
        (op = 0 ∨ (op = 2 ∧ s.sessionOpen m.src = false ∧ openReg (fieldAt m.payload 4 4) = false) → o < 2 ^ 25 → csWindow o = false → regSpec o = some rg →
          isLo o = false → o ≠ rPsqUevt → (∀ n : Fin 32, o ≠ rIglLMgRx n) →
          ∃ t rsp, exec .regReqReceive s = .next t ∧ t.sys = s.sys ∧ t.pos = s.pos ∧ t.hiLatch = [] ∧ t.eru.udrop = s.eru.udrop ∧ t.reg rSecNosess = s.reg rSecNosess ∧
            t.sent = .fabMsg 3 0x29 m.src rsp :: s.sent ∧ rsp.length = 12 ∧ fieldAt rsp 0 1 = 0 ∧ fieldAt rsp 2 2 = fieldAt m.payload 2 2 ∧
            fieldAt rsp 8 4 = (if rg.pOnly then 0 else readMask o (s.viewReg who o)).toNat) ∧
        (op = 3 → o = rMtxMbxDbInset → s.sessionOpen m.src = true → s.MemWf →
          ∃ t rsp, exec .regReqReceive s = .next t ∧ t.reg rMtxMbxDbIn = s.reg rMtxMbxDbIn ||| w32 (fieldAt m.payload 8 4) ∧
            t.eru.udrop = s.eru.udrop ∧ t.reg rSecNosess = s.reg rSecNosess ∧ t.sent = .fabMsg 3 0x29 m.src rsp :: s.sent ∧
            fieldAt rsp 0 1 = 0 ∧ fieldAt rsp 2 2 = fieldAt m.payload 2 2 ∧ fieldAt rsp 8 4 = 0))) ∧
    (s.fab.ra = none → exec .regReqTimeout s = .next s) ∧
    (∀ x, s.fab.ra = some x →
      (s.ts < x.at_ + 80000 → exec .regReqTimeout s = .next s) ∧
      (x.at_ + 80000 ≤ s.ts → s.MemWf → ∃ t, exec .regReqTimeout s = .next t ∧ t.fab.ra = none ∧ t.rf rFabRaCmd 11 9 = 3)) ∧
    (CoreMayAccess s → s.FieldsGood rFabRaCmd → s.MemWf →
      let go := exec (.remoteAccessGo .core .p (s.reg rFabRaCmd)) s
      let dev := s.rf rFabRaCmd 8 0
      (s.fab.ra ≠ none → ∃ t, go = .next t ∧ t.fab = s.fab ∧ t.rbit rFabEvt 4 = true ∧ t.sent = s.sent) ∧
      (s.fab.ra = none → (∀ r ∈ s.fab.map, r.addr ≠ dev) → ∃ t, go = .next t ∧ t.fab = s.fab ∧ t.rf rFabRaCmd 11 9 = 2 ∧ t.sent = s.sent) ∧
      (∀ a r, s.fab.ra = none → s.fab.addr = some a → r ∈ s.fab.map → r.addr = dev → ∃ t x, go = .next t ∧ t.fab.ra = some x ∧
        x.dev = dev ∧ x.at_ = s.ts ∧ x.write = s.rbit rFabRaCmd 28 ∧ t.rf rFabRaCmd 11 9 = 0))


/-! The causeway, fabric time and the census -/

/-- R325 to R334. -/
def Obligations.FabricTimeAndBeacons : Prop :=
  ∀ (s : State), s.clk.shutdown = false →
    (s.fab.upPort = none ∨ s.fab.isRoot = true ∨ s.ft.tstate = .free → exec .syncExchangeStart s = .next s) ∧
    (∀ u, s.ft.reqAt = some u → s.ts < u + 8000 → exec .syncExchangeStart s = .next s) ∧
    (∀ p, s.fab.upPort = some p → s.fab.isRoot = false → s.ft.tstate ≠ .free → (∀ u, s.ft.reqAt = some u → u + 8000 ≤ s.ts) →
      let n := (s.ft.sseq + 1) % 65536
      exec .syncExchangeStart s = .next { s with
        ft := { s.ft with sseq := n, t1 := some s.fabricTime, reqAt := some s.ts },
        sent := .fabCtl p (ctlWords 0x20 s.fab.addr s.fabricTime (leBytes 2 n ++ leBytes 14 0)) :: s.sent }) ∧
    (∀ (p : Fin 4) (a : FabWord) (ds : List FabWord) (b c d e : FabWord),
      let bad := s.addSat (rFabPCtl p) 31 16 1
      let req := exec (.syncReqReceive p a ds) s
      let rsp := exec (.syncRspReceive p a b c d e) s
      let bcn := exec (.beaconReceive p a ds e) s
      let wReq := fabCtlOf (a :: ds)
      let wRsp := fabCtlOf [a, b, c, d, e]
      let wBcn := fabCtlOf (a :: ds ++ [e])
      (s.fport[p].st ≠ 2 → req = .next s ∧ rsp = .next s ∧ bcn = .next s) ∧
      (s.fport[p].st = 2 →
        (wReq = none → req = .next bad) ∧ (wRsp = none → rsp = .next bad) ∧ (wBcn = none → bcn = .next bad) ∧
        (∀ y, wReq = some y →
          (y.ctype ≠ 0x20 ∨ s.useDiffers p = true ∨ s.fab.noAddr = true → req = .next s) ∧
          (y.ctype = 0x20 → s.useDiffers p = false → s.fab.noAddr = false → ∃ w,
            req = .next { s with sent := .fabCtl p (ctlWords 0x21 s.fab.addr s.fabricTime w) :: s.sent } ∧ w.length = 16 ∧
            fieldAt w 0 2 = fieldAt y.body 0 2 % 65536 ∧ fieldAt w 2 8 = s.fabricTime % 2 ^ 64 ∧ fieldAt w 10 1 = s.ft.tstate.code)) ∧
        (∀ y, wRsp = some y →
          (y.ctype ≠ 0x21 ∨ s.useDiffers p = true → rsp = .next s) ∧
          (y.ctype = 0x21 → s.useDiffers p = false →
            (s.ft.t1 = none → rsp = .next (s.addSat (rFabPSync p) 31 16 1)) ∧
            ∀ u, s.ft.t1 = some u →
              (s.fab.upPort ≠ some p.val ∨ fieldAt y.body 0 2 ≠ s.ft.sseq ∨ u + 8000 < s.fabricTime ∨ s.ft.tstate = .free →
                rsp = .next (s.addSat (rFabPSync p) 31 16 1)) ∧
              (s.fab.upPort = some p.val → fieldAt y.body 0 2 = s.ft.sseq → s.fabricTime ≤ u + 8000 →
                s.ft.tstate = .acquire ∨ s.ft.tstate = .locked →
                let th := (250 * (((fieldAt y.body 2 8 : Nat) - (u : Int)) - ((s.fabricTime : Int) - (y.txtime : Nat))) -
                  (s.reg (rFabPAsym p)).toInt) / 500
                (th.natAbs ≤ 4000 → ∃ t, rsp = .next t ∧ t.ft.theta = th ∧ t.ft.t1 = none ∧
                  t.ft.lastRsp = s.ts ∧ -100000 ≤ t.ft.fadj ∧ t.ft.fadj ≤ 100000 ∧ t.ft.steps = s.ft.steps ∧
                  t.ft.tstate = (if th.natAbs ≤ 8 ∧ 7 ≤ s.ft.good then .locked else s.ft.tstate)) ∧
                (4000 < th.natAbs → CanReport s evFtStep 0 → ∃ t, rsp = .next t ∧ t.ft.theta = th ∧
                  t.ft.steps = s.ft.steps + 1 ∧ t.ft.good = 0 ∧ t.ft.ftBase = ((s.fabricTime : Int) + th).toNat ∧ t.ft.tsBase = s.ts ∧
                  atV t.eru.cnt 2 0 = (atV s.eru.cnt 2 0 + 1) % 2 ^ 32)))) ∧
        ∀ y, wBcn = some y → let z := beaconOf y.body
          (y.ctype ≠ 0x24 ∨ s.useDiffers p = true ∨ s.fabUse p ≠ 1 ∨ 24 < z.hops ∨ 32000 < z.age ∨ z.status = 3 ∨ s.fab.addr = some z.root →
            bcn = .next s) ∧
          (∀ m : Fin 16, m.val = z.dom → s.cw[m].ever = true → (y.txtime : Int) - z.age ≤ s.cw[m].lastSample → bcn = .next s) ∧
          (∀ m : Fin 16, m.val = z.dom → y.ctype = 0x24 → s.useDiffers p = false → s.fabUse p = 1 → z.hops < 24 → z.age ≤ 32000 →
            z.status ≠ 3 → s.fab.addr ≠ some z.root → s.cw[m].active = false → s.cw[m].ever = false → s.dEn m = false → s.MemWf →
            ∃ t, bcn = .next t ∧ t.cw[m].gen = z.gen ∧ t.cw[m].root = z.root ∧ t.cw[m].ever = true ∧ t.cw[m].lastAcc = s.ts ∧
              t.reg (rFabCwRx m) = s.reg (rFabCwRx m) + 1 ∧ t.pos = s.pos ∧
              (s.fab.noAddr = true → t.sent = s.sent) ∧
              (s.fab.noAddr = false → ∀ k ∈ s.fabricPorts (some p.val),
                .fabCtl k (ctlWords 0x24 s.fab.addr s.fabricTime (beaconBody { z with hops := z.hops + 1 })) ∈ t.sent)))) ∧
    ((s.ft.tstate = .free ∨ s.ft.tstate = .holdover ∨ s.ts < s.ft.lastRsp + 40000 → exec .timeHoldoverTimeout s = .next s) ∧
      (s.fab.isRoot = false → s.ft.tstate = .locked → s.ft.lastRsp + 40000 ≤ s.ts → CanReport s evFtHoldover 0 →
        ∃ t, exec .timeHoldoverTimeout s = .next t ∧ t.ft.tstate = .holdover ∧ t.ft.fadj = s.ft.fadj ∧
          atV t.eru.cnt 2 0 = (atV s.eru.cnt 2 0 + 1) % 2 ^ 32)) ∧
    ∀ (d : Fin 16),
      let c := s.cw[d]
      (c.active = false ∨ (c.lastSent ≠ 0 ∧ s.ts < c.lastSent + 760) → exec (.beaconSend d) s = .next s) ∧
      (∀ a, s.fab.addr = some a → (s.dom d).lock = .locked → s.fabEn = true → s.dEn d = true → s.dSource d = 0 → c.active = true →
        c.lastSent + 760 ≤ s.ts → ∃ t, exec (.beaconSend d) s = .next t ∧ t.cw[d].lastSent = s.ts ∧ t.cw[d].gen = c.gen ∧ t.pos = s.pos ∧
          ∀ k ∈ s.fabricPorts none, .fabCtl k (ctlWords 0x24 (some a) s.fabricTime (beaconBody
            { motion := (s.dom d).motion.code, dom := d, gen := c.gen, status := 0, hops := 0, root := a, coord := s.coordNow d, age := 0 })) ∈
            t.sent) ∧
      (s.onBeacons d = false ∨ s.ts < c.lastAcc + 6400 → exec (.beaconTimeout d) s = .next s) ∧
      (s.onBeacons d = true → c.lastAcc + 6400 ≤ s.ts → s.rootDom d = d →
        (s.pos.dom[d].lock = .locked → ∃ t, exec (.beaconTimeout d) s = .next t ∧ t.pos.dom[d].lock = .coast ∧ t.pos.dom[d].coastSince = s.ts ∧
          ∀ e : Fin 16, e ≠ d → t.pos.dom[e] = s.pos.dom[e]) ∧
        (s.pos.dom[d].lock = .acquire → exec (.beaconTimeout d) s = .next { s with
          pos := { s.pos with dom := s.pos.dom.set d { s.pos.dom[d] with hist := [] } } })) ∧
      (s.ts < c.lastLocked + 2400 ∨ c.standby = false ∨ c.ever = false → exec (.standbyTakeover d) s = .next s) ∧
      (s.dEn d = true → s.dSource d = 0 → c.standby = true → c.active = false → c.ever = true →
        c.lastLocked + 2400 ≤ s.ts → s.pos.shadowDom[d].lock = .locked → s.encFaulty (s.dEncSel d) = false →
        s.rootDom d = d →
        ∃ t, exec (.standbyTakeover d) s = .next t ∧ t.cw[d].active = true ∧ t.cw[d].standby = false ∧ t.cw[d].gen = (c.gen + 1) % 256 ∧
          t.pos.dom[d].lock = .locked ∧ t.pos.dom[d].coord = s.pos.shadowDom[d].coord + c.sofs ∧ t.pos.dom[d].c0 = s.pos.shadowDom[d].c0 ∧
          t.pos.dom[d].base = s.pos.shadowDom[d].base + c.sofs ∧ t.pos.dom[d].hist = s.pos.shadowDom[d].hist)

/-- R337 to R344. That a proposal refused by one device is aborted at once, and that epochs in order of their commit, are the model's reading
(DEDUCED, log 46); so is that a STOP changes no state while a FATAL event is handled (DEDUCED, log 118). -/
def Obligations.CensusAndEpochs : Prop :=
  ∀ (s : State), s.clk.shutdown = false →
    let period := s.polPeriod * 800000
    let speaks := fun (dst : Nat) => s.fabEn = true ∧ ∃ a, s.fab.addr = some a ∧ a ≠ dst
    exec .digestRecomputeDone s = .next
      (if s.cen.stale then { s with cen := { s.cen with stale := false, digest := s.configDigest } } else s) ∧
    (s.fab.isRoot = false ∨ s.cen.open_ ≠ none → exec .censusRoundStart s = .next s) ∧
    (∀ a, s.fabEn = true → s.fab.isRoot = true → s.fab.addr = some a → s.cen.open_ = none →
      (s.ts < s.cen.lastRound + period → exec .censusRoundStart s = .next s) ∧
      (s.cen.lastRound + period ≤ s.ts → ∃ t r, exec .censusRoundStart s = .next t ∧ t.cen.open_ = some s.ts ∧
        t.cen.cround = (s.cen.cround + 1) % 2 ^ 32 ∧ t.cen.pollEpoch = s.cen.epoch ∧ t.cen.reports = [r] ∧ r.addr = a ∧ r.cround = t.cen.cround ∧
        t.sent = .fabMsg 3 0x30 0x8000 (leBytes 4 t.cen.cround ++ leBytes 8 s.cen.epoch) :: s.sent)) ∧
    (s.cen.open_ = none → exec .censusRoundDecide s = .next s) ∧
    (∀ u, s.cen.open_ = some u → s.fab.isRoot = true →
      (s.ts < u + min (period / 2) 4000000 → exec .censusRoundDecide s = .next s) ∧
      (u + min (period / 2) 4000000 ≤ s.ts → ∃ t, exec .censusRoundDecide s = .next t ∧ t.cen.open_ = none ∧ t.cen.lastRound = u ∧
        t.cen.lastResult = s.ts ∧ t.cen.nores = false ∧ t.cen.resRound = s.cen.cround % 2 ^ 32)) ∧
    exec .cenResultTimeout s = .next (if s.fabEn ∧ s.fab.addr.isSome ∧ s.cen.lastResult + 3 * period ≤ s.ts
      then { s with cen := { s.cen with nores := true } } else s) ∧
    (∀ (m : FabMsg) (r : List FabMsg), s.fab.inbox = m :: r →
      let b := m.payload
      let took : State := { s with fab := { s.fab with inbox := r } }
      (m.mtype = 0x30 → speaks m.src → ∃ t x, exec .cenPollReceive s = .next t ∧ t.sent = .fabMsg 3 0x31 m.src x :: s.sent ∧
        fieldAt x 0 4 = fieldAt b 0 4 ∧ x.length = 56 ∧ (x.drop 12).take 32 = fitBytes 32 s.cen.digest) ∧
      (m.mtype = 0x31 → s.fab.isRoot = false ∨ s.cen.open_ = none ∨ fieldAt b 0 4 ≠ s.cen.cround → exec .cenReportReceive s = .next took) ∧
      (m.mtype = 0x31 → s.fab.isRoot = true → s.cen.open_ ≠ none → fieldAt b 0 4 = s.cen.cround →
        ∃ x, exec .cenReportReceive s = .next { took with cen := { s.cen with reports := x :: s.cen.reports.filter fun y => y.addr != m.src } } ∧
          x.addr = m.src ∧ x.epoch = fieldAt b 4 8) ∧
      (m.mtype = 0x32 → s.fab.isRoot = true → exec .cenResultReceive s = .next took) ∧
      (∀ a, m.mtype = 0x32 → s.fab.isRoot = false → s.fab.addr = some a →
        let listed := bitN (fieldAt b 16 64) a
        ∃ t, exec .cenResultReceive s = .next t ∧ t.cen.listed = listed ∧ t.cen.lastResult = s.ts ∧ t.cen.nores = false ∧
          t.cen.action = (if listed then (if bitN (fieldAt b 12 1) 0 then 2 else 1) else 0) ∧ t.sys.cenStop = (listed && bitN (fieldAt b 12 1) 0) ∧
          (s.sys.st = .running → s.fatalStands = false → listed = true → bitN (fieldAt b 12 1) 0 = true → s.cen.listed = false → t.sys.st = .armed ∧ t.sys.outEn = false)) ∧
      (m.mtype = 0x36 → s.fab.isRoot = false → exec .cenReqReceive s = .next took) ∧
      (m.mtype = 0x36 → s.fab.isRoot = true → s.cen.open_ ≠ none → exec .cenReqReceive s = .next took) ∧
      (m.mtype = 0x36 → s.fab.isRoot = true → s.cen.open_ = none → ∃ t, exec .cenReqReceive s = .next t ∧ t.cen.open_ = some s.ts ∧
        t.cen.cround = (s.cen.cround + 1) % 2 ^ 32 ∧ t.cen.pollEpoch = s.cen.epoch) ∧
      (m.mtype = 0x33 → s.fab.isRoot = false → speaks m.src →
        let e := fieldAt b 0 8
        let d := s.dom (fieldAt b 8 1 % 16)
        let x := signed 64 (fieldAt b 12 8)
        let answer := if d.lock ≠ .locked ∧ d.lock ≠ .coast then 1 else if x ≤ d.hwm then 2 else if e ≤ s.cen.epoch then 3 else 0
        ∃ t, exec .epochProposeReceive s = .next t ∧ t.sent = .fabMsg 3 0x34 m.src (leBytes 8 e ++ leBytes 1 answer) :: s.sent ∧
          (answer ≠ 0 → t.cen = s.cen) ∧
          (answer = 0 → ∃ p, t.cen = { s.cen with accepted := s.cen.accepted ++ [p] } ∧ p.epoch = e ∧ p.coord = x ∧ p.at_ = s.ts)) ∧
      (m.mtype = 0x34 → s.cen.prop = none → exec .epochAckReceive s = .next took) ∧
      (∀ p, m.mtype = 0x34 → s.cen.prop = some p → p.epoch = fieldAt b 0 8 →
        (fieldAt b 8 1 ≠ 0 → ∃ t, exec .epochAckReceive s = .next t ∧ t.cen.prop = none ∧ t.cen.acks = []) ∧
        (fieldAt b 8 1 = 0 → (∀ a ∈ s.cen.acks, a.2 = 0) → (∃ x ∈ s.fab.map, x.addr ≠ m.src ∧ ∀ a ∈ s.cen.acks, a.1 ≠ x.addr) →
          exec .epochAckReceive s = .next { took with cen := { s.cen with acks := (m.src, 0) :: s.cen.acks.filter fun a => a.1 != m.src } })) ∧
      (∀ p l, m.mtype = 0x35 → s.cen.accepted = p :: l → p.epoch = fieldAt b 0 8 →
        (fieldAt b 8 1 = 0 →
          ∃ q, exec .epochCommitReceive s = .next { took with cen := { s.cen with accepted := l, committed := s.cen.committed ++ [q] } } ∧
          q.epoch = p.epoch ∧ q.coord = p.coord ∧ q.dom = p.dom) ∧
        (fieldAt b 8 1 ≠ 0 → CanReport s evEpochAbort 0 → ∃ t, exec .epochCommitReceive s = .next t ∧
          t.cen.accepted = l.filter (fun x => x.epoch != p.epoch) ∧ t.cen.committed = s.cen.committed ∧ Reported s t evEpochAbort 0))) ∧
    (s.cen.prop = none → exec .epochAckTimeout s = .next s) ∧
    (∀ p, s.cen.prop = some p →
      (s.ts < p.at_ + 8000000 → exec .epochAckTimeout s = .next s) ∧
      (p.at_ + 8000000 ≤ s.ts → ∃ t, exec .epochAckTimeout s = .next t ∧ t.cen.prop = none ∧ t.cen.acks = [])) ∧
    ((∀ p ∈ s.cen.accepted, s.ts < p.at_ + 16000000) → exec .epochCommitTimeout s = .next s) ∧
    (∀ p l, s.cen.accepted = p :: l → p.at_ + 16000000 ≤ s.ts → CanReport s evEpochAbort 0 →
      ∃ t, exec .epochCommitTimeout s = .next t ∧ t.cen.accepted = l.filter (fun x => x.epoch != p.epoch) ∧ Reported s t evEpochAbort 0) ∧
    ((∀ p ∈ s.cen.committed, s.epochDue p = false) → exec .epochApply s = .next s) ∧
    (∀ p, s.cen.committed = [p] → s.epochDue p = true → CanReport s evEpochDone 0 →
      ∃ t, exec .epochApply s = .next t ∧ t.cen.epoch = p.epoch ∧ t.cen.committed = [] ∧ t.cen.stale = true ∧ Reported s t evEpochDone 0) ∧
    ∀ p q, s.cen.committed = [p, q] → s.epochDue p = true → s.epochDue q = true →
      ∃ t, exec .epochApply s = .next t ∧ t.cen.epoch = q.epoch ∧ t.cen.committed = []


/-! Scratchpad, mailbox, DMA, matrix errors and GDDR7 -/

/-- R387, R414, R422 to R437, R537. The model's choices: the turns of the DMA channels (log 102), a burst whose tile's port is not free waits
(log 91), how many transactions are open at a reset (log 109), what of the clock crossings is dropped then (log 110). -/
def Obligations.ScratchpadMailboxAndDma : Prop :=
  ∀ (s : State), s.clk.shutdown = false →
    let calm := s.mtx.wiping = false ∧ s.mtx.spmBad = []
    let byte := fun (t : State) (a : Nat) => memGet ramDefault t.mtx.spm a
    (s.mtx.wiping = false → exec .secureWindowWipe s = .next s) ∧
    (s.mtx.wiping = true → s.MemWf → ∃ t, exec .secureWindowWipe s = .next t ∧ t.mtx.wiping = false ∧
      (∀ a, 0x1C0000 ≤ a → a < 0x200000 → byte t a = 0) ∧ (∀ a, a < 0x1C0000 ∨ 0x200000 ≤ a → byte t a = byte s a) ∧
      t.rf rMtxSpmWipe 15 0 = min 65535 (s.rf rMtxSpmWipe 15 0 + 1)) ∧
    (calm → s.rbit rMtxSpmTest 31 = false → ∀ w, exec (.spmTestStep w []) s = .next s) ∧
    (calm → s.rbit rMtxSpmTest 31 = true →
      (∀ w, s.mtx.shadow = none → exec (.spmTestStep w []) s = .next { s with mtx := { s.mtx with
        shadow := some (s.mtx.testLine, memGetBytes ramDefault s.mtx.spm (64 * s.mtx.testLine) 64), testAt := s.cclk } }) ∧
      (∀ x w, s.mtx.shadow = some x → s.cclk < s.mtx.testAt + (if w then 5 else 40) * 2 ^ s.rf rMtxSpmTest 27 24 →
        exec (.spmTestStep w []) s = .next s) ∧
      (∀ l d, s.mtx.shadow = some (l, d) → s.mtx.testLine = 32767 → s.mtx.testAt + 40 * 2 ^ s.rf rMtxSpmTest 27 24 ≤ s.cclk → s.MemWf →
        ∃ t, exec (.spmTestStep false []) s = .next t ∧ t.mtx.spm = memPutBytes ramDefault s.mtx.spm (64 * l) d ∧ t.mtx.shadow = none ∧
          t.mtx.testLine = 0 ∧ t.rf rMtxSpmTest 15 0 = (s.rf rMtxSpmTest 15 0 + 1) % 65536 ∧ t.rbit rMtxSpmTest 31 = true) ∧
      ∀ l d, s.mtx.shadow = some (l, d) → s.mtx.testLine < 32767 →
        let back := memPutBytes ramDefault s.mtx.spm (64 * l) d
        (s.mtx.testAt + 40 * 2 ^ s.rf rMtxSpmTest 27 24 ≤ s.cclk →
          exec (.spmTestStep false []) s = .next { s with mtx := { s.mtx with spm := back, shadow := none, testLine := s.mtx.testLine + 1 } }) ∧
        (s.mtx.testAt + 5 * 2 ^ s.rf rMtxSpmTest 27 24 ≤ s.cclk → CanReport s evSpmTestFail 0 → s.MemWf → ∃ t, exec (.spmTestStep true []) s = .next t ∧ t.mtx.shadow = none ∧
          t.reg rMtxSpmFail = w32 (2 ^ 31 + 64 * l) ∧ Reported s t evSpmTestFail 0)) ∧
    (∀ (w : BitVec 10) (d : Word), s.MemWf →
      exec (.mailboxAccess .core w (some d) 15 false) s = .next s ∧
      (∃ t, exec (.mailboxAccess .dma w (some d) 15 false) s = .next t ∧ t.rdResp = "OK" ∧ t.regs = s.regs ∧
        (∀ i < 4, memGet ramDefault t.mtx.mbox (4 * w.toNat + i) = (leBytes 4 d.toNat).getD i 0) ∧
        ∀ a, a < 4 * w.toNat ∨ 4 * w.toNat + 4 ≤ a → memGet ramDefault t.mtx.mbox a = memGet ramDefault s.mtx.mbox a) ∧
      (CanReport s evMbxCollide 0 → ∃ t, exec (.mailboxAccess .dma w (some d) 15 true) s = .next t ∧ t.rdResp = "OK" ∧ t.mtx.mbox = s.mtx.mbox ∧
        t.rbit rMtxMbxColl 31 = true ∧ t.rf rMtxMbxColl 9 0 = w.toNat ∧ Reported s t evMbxCollide 0) ∧
      exec (.mailboxAccess .dma w none 15 false) s =
        .next (s.answer "OK" (w32 (leNat (memGetBytes ramDefault s.mtx.mbox (4 * w.toNat) 4))))) ∧
    (∀ c : Fin 4,
      let ch := s.mtx.dma[c]
      let put := fun (y : DmaCh) => ({ s with mtx := { s.mtx with dma := s.mtx.dma.set c y } } : State)
      (CoreMayAccess s →
        (ch.busy = false → s.rf (rMtxDmaLen c) 23 0 ≠ 0 → ∃ t, exec (.dmaGo .core .p c) s = .next t ∧ t.rdResp = "OK" ∧ t.mtx.spm = s.mtx.spm ∧
          t.mtx.dma = s.mtx.dma.set c { ch with src := (s.reg (rMtxDmaSrc c)).toNat, dst := (s.reg (rMtxDmaDst c)).toNat,
                                                left := s.rf (rMtxDmaLen c) 23 0, busy := true }) ∧
        (ch.busy = true → CanReport s evMtxMasterReset 0 → ∃ t n, exec (.dmaAbort .core .p c) s = .next t ∧
          t.mtx.dma = s.mtx.dma.set c { ch with busy := false, left := 0 } ∧ t.mtx.spm = s.mtx.spm ∧ n ≤ 4 ∧ (n = 0 → t.eru = s.eru ∧ t.mtx.owed = s.mtx.owed) ∧
          (0 < n → Reported s t evMtxMasterReset 0 ∧ (7 + c.val, n, s.ts) ∈ t.mtx.owed))) ∧
      (ch.busy = true → s.owes (7 + c) = false → (∀ e : Fin 4, e ≠ c → s.mtx.dma[e].busy = false) → s.dmaNext = some c.val) ∧
      (s.owes (7 + c) = true → s.dmaNext ≠ some c.val) ∧
      (s.dmaNext ≠ some c.val → exec (.dmaBurstDone c) s = .next s) ∧
      (calm → s.mtx.shadow = none → s.mtx.late = [] → s.dmaNext = some c.val → ch.left = 4 → ch.src % 4 = 0 → ch.dst % 4 = 0 → ch.src < 0x1C0000 →
        ch.dst < 0x1C0000 →
        let done := { ch with src := ch.src + 4, dst := ch.dst + 4, left := 0, busy := false, done := true }
        exec (.dmaBurstDone c) s = .next { put done with mtx := { (put done).mtx with
          dmaLast := c, spm := memPutBytes ramDefault s.mtx.spm ch.dst (memGetBytes ramDefault s.mtx.spm ch.src 4) } }) ∧
      (s.dmaNext = some c.val → s.tileWaits 2 ch.src = true ∨ s.tileWaits 2 ch.dst = true → exec (.dmaBurstDone c) s = .next s) ∧
      (s.dmaNext = some c.val → s.tileWaits 2 ch.dst = false → 4 ≤ ch.left → ch.src % 4 = 0 → ch.dst % 4 = 0 → 0x1C0000 ≤ ch.src → ch.src < 0x200000 →
        ∃ t, exec (.dmaBurstDone c) s = .next t ∧ t.mtx.dma = s.mtx.dma.set c { ch with busy := false, err := true } ∧ t.mtx.spm = s.mtx.spm)) ∧
    (CoreMayAccess s → s.MemWf → ∀ w : Word,
      (∃ t, exec (.mbxDoorbellInSet .core .p w) s = .next t ∧ t.reg rMtxMbxDbIn = s.reg rMtxMbxDbIn ||| w) ∧
      (∃ t, exec (.mbxDoorbellOutSet .core .p w) s = .next t ∧ t.reg rMtxMbxDbOut = s.reg rMtxMbxDbOut ||| w)) ∧
    (∀ x : BitVec 8,
      let rest := s.mtx.cdc.filter fun y => y != x.toNat
      exec (.cdcTransferEnd x 0 false) s = .next { s with mtx := { s.mtx with cdc := rest } } ∧
      exec (.cdcTransferEnd x 1 false) s = .next { s with mtx := { s.mtx with cdc := x.toNat :: rest } } ∧
      (s.MemWf → ∃ t, exec (.cdcTransferEnd x 2 true) s = .next t ∧ t.mtx.cdc = x.toNat :: rest ∧ t.rbit rMtxCdc 31 = true ∧
        t.rf rMtxCdc 15 0 = min 65535 (s.rf rMtxCdc 15 0 + 1))) ∧
    (∀ w0 w1 w2 w3 : Word, s.mtx.late = [] → s.peat.queue.length < 1024 →
      (s.core.st ≠ 1 ∨ s.priv = false → exec (.firmwarePeatCommit w0 w1 w2 w3) s = .next s) ∧
      (s.core.st = 1 → s.priv = true →
        ((∀ u, s.peat.fwLast = some u → u + 80000 ≤ s.ts) → ∃ t x, exec (.firmwarePeatCommit w0 w1 w2 w3) s = .next t ∧ t.rdResp = "OK" ∧
          t.peat.queue = s.peat.queue ++ [x] ∧ x.type = 0x0D ∧ x.sub = w0.toNat % 256 ∧ t.peat.fwLast = some s.ts ∧
          x.body = leBytes 3 (w0.toNat / 256) ++ leBytes 4 w1.toNat ++ leBytes 4 w2.toNat ++ leBytes 3 w3.toNat) ∧
        (∀ u, s.peat.fwLast = some u → s.ts < u + 80000 → ∃ t, exec (.firmwarePeatCommit w0 w1 w2 w3) s = .next t ∧ t.rdResp = "SLVERR" ∧
          t.peat.queue = s.peat.queue))) ∧
    (CoreMayAccess s →
      (∀ e, s.core.entry = some e → s.core.st ≠ 0 → ∃ t, exec (.coreResetWrite .core .p) s = .next t ∧ t.core.st = 1 ∧ t.core.pc = e ∧
        t.core.status = 1 ∧ t.core.vbase = 0 ∧ t.core.icache = false ∧ t.balls.ccLockup = false ∧
        t.mtx = { s.mtx with late := t.mtx.late, owed := t.mtx.owed, cdc := t.mtx.cdc } ∧ (∀ x, x ∈ t.mtx.late ↔ x ∈ s.mtx.late ∧ 2 ≤ x.1) ∧
        (∀ x ∈ t.mtx.cdc, x ∈ s.mtx.cdc) ∧ (∀ x ∈ s.mtx.owed, 2 ≤ x.1 → x ∈ t.mtx.owed)) ∧
      (s.core.entry = none → ∃ t, exec (.coreResetWrite .core .p) s = .next t ∧ t.core = s.core))

/-- R429, R442 to R447, R556, R564. That the request that ends so is one of the sender's, and takes its answer from this row, is the model's
reading (DEDUCED, log 26). -/
def Obligations.MatrixErrorsAndGddr7 : Prop :=
  ∀ (s : State), s.clk.shutdown = false →
    (s.rbit rMtxErrInfo 31 = false → s.MemWf → ∀ (tg : Fin 7) (w : Bool) (a : Word),
      let noted := fun (t : State) (kind m target : Nat) => t.rbit rMtxErrInfo 31 = true ∧ t.rf rMtxErrInfo 30 28 = kind ∧
        t.rf rMtxErrInfo 26 24 = m ∧ t.rf rMtxErrInfo 22 20 = target ∧ t.rbit rMtxErrInfo 0 = w ∧ t.reg rMtxErrAddr = a ∧ t.mtx.spm = s.mtx.spm
      (∀ m : Fin 7, CanReport s evMtxTimeout 0 → ∃ t, exec (.matrixTimeout m tg w a) s = .next t ∧ noted t 3 m tg ∧
        Reported s t evMtxTimeout 0 ∧ t.rdResp = (if m.val = 3 then "CA" else "SLVERR")) ∧
      (∀ br, CanReport s evMtxLockBreak 0 → ∃ t, exec (.matrixLockBreak br tg w a) s = .next t ∧ noted t 4 (if br then 4 else 3) tg ∧
        Reported s t evMtxLockBreak 0 ∧ t.rdResp = (if br then "SLVERR" else "CA")) ∧
      (∀ m : Fin 7, ∃ t, exec (.outboundCplTimeout m ⟨w, false⟩ a) s = .next t ∧ noted t 2 m 4 ∧
        t.rdResp = (if m.val = 3 then "CA" else "SLVERR") ∧ t.rf rPcieOutErr 31 16 = min 65535 (s.rf rPcieOutErr 31 16 + 1) ∧
        t.rf rPcieOutErr 15 0 = s.rf rPcieOutErr 15 0 ∧ t.rbit rPcieEvt 1 = true ∧ t.eru = s.eru) ∧
      (∀ m : Fin 7, ∃ t, exec (.outboundCplTimeout m ⟨w, true⟩ a) s = .next t ∧ noted t 2 m 4 ∧
        t.rdResp = (if m.val = 3 then "CA" else "SLVERR") ∧ t.rf rPcieOutErr 15 0 = min 65535 (s.rf rPcieOutErr 15 0 + 1) ∧
        t.rf rPcieOutErr 31 16 = s.rf rPcieOutErr 31 16 ∧ t.eru = s.eru)) ∧
    (∀ x : GddrTrain,
      let g := s.gdc[x.port]
      (g.st ≠ 1 → exec (.gddr7TrainDone x) s = .next s) ∧
      (g.st = 1 → x.passed = true → s.MemWf → ∃ t, exec (.gddr7TrainDone x) s = .next t ∧
        t.gdc = s.gdc.set x.port { g with st := 2, attempts := x.attempts, step := 5, trainMs := x.ms.toNat } ∧ t.eru = s.eru) ∧
      (g.st = 1 → x.passed = false → CanReport s evGdcTrainFail x.port → ∃ t, exec (.gddr7TrainDone x) s = .next t ∧
        t.gdc = s.gdc.set x.port { g with st := 3, syscopy := false, attempts := 3, step := x.step, trainMs := x.ms.toNat } ∧
        t.frm.fallbackReq = true ∧ Reported s t evGdcTrainFail x.port)) ∧
    (∀ (p : Fin 8),
      (s.gdc[p].st ≠ 2 → (∀ a b c, exec (.gddr7Tracking p a b c) s = .next s) ∧ (∀ a b, exec (.gddr7Refresh p a b) s = .next s) ∧
        ∀ r : GddrDone, r.port = p →
          (s.gdc[p].st ≠ 3 ∨ r.req = .own → exec (.gddr7RequestDone r) s = .next s) ∧
          (s.gdc[p].st = 3 →
            (∀ h q m, r.req = .slot h q m → s.MemWf → ∃ t, exec (.gddr7RequestDone r) s = .next t ∧
              memGetBytes ramDefault t.gddr (gddrKey (s.slotPort h) (s.slotAddr h q m) + 8) 8 = leBytes 8 0x8000000000000000) ∧
            ∀ m a, r.req = .window m a → s.mtx.owed = [] → ∃ t, exec (.gddr7RequestDone r) s = .next t ∧
              t.rdResp = (if m.val = 3 then "CA" else "SLVERR") ∧ (s.MemWf → t.rbit rMtxErrInfo 31 = true))) ∧
      (s.gdc[p].st = 2 → s.MemWf →
        (∀ a b c, ∃ t, exec (.gddr7Tracking p a b c) s = .next t ∧ t.reg (rGdcPTemp p) = a.setWidth 32 ∧ t.reg (rGdcPBwWr p) = b ∧
          t.reg (rGdcPBwRd p) = c ∧ t.gdc = s.gdc ∧ t.gddr = s.gddr) ∧
        (∀ a b, ∃ t, exec (.gddr7Refresh p a b) s = .next t ∧ t.rf (rGdcPRefresh p) 15 0 = b.toNat ∧
          t.rf (rGdcPRefresh p) 31 16 = max a.toNat (s.rf (rGdcPRefresh p) 31 16) ∧ t.gdc = s.gdc) ∧
        ∀ r : GddrDone, r.port = p → r.corrected = false → r.uncorrectable = false →
          (r.bad = 0 → exec (.gddr7RequestDone r) s = .next s) ∧
          (0 < r.bad → r.bad ≤ s.rf (rGdcPCtrl p) 11 8 → CanReport s evGdcRetry p → ∃ t, exec (.gddr7RequestDone r) s = .next t ∧
            t.gdc = s.gdc ∧ t.gddr = s.gddr ∧ t.rbit (rGdcPEvt p) 0 = true ∧ Reported s t evGdcRetry p) ∧
          (s.rf (rGdcPCtrl p) 11 8 < r.bad → s.gdc[p].fails = [] → 2 ≤ s.rf (rGdcPCtrl p) 23 16 → CanReport s evGdcRetryFail p →
            (r.req = .own → ∃ t, exec (.gddr7RequestDone r) s = .next t ∧ t.gdc = s.gdc.set p { s.gdc[p] with fails := [s.ts] } ∧
              t.reg64 (rGdcPErrAddrLo p) = r.addr.toNat ∧ t.rbit (rGdcPEvt p) 1 = true ∧ t.gddr = s.gddr ∧ Reported s t evGdcRetryFail p) ∧
            (∀ h q m, r.req = .slot h q m → ∃ t, exec (.gddr7RequestDone r) s = .next t ∧
              memGetBytes ramDefault t.gddr (gddrKey (s.slotPort h) (s.slotAddr h q m) + 8) 8 = leBytes 8 0x8000000000000000))))


/-! The PCIe endpoint -/

/-- R418, R422, R425, R429, R432, R436, R510, R543 to R549, R556, R557, R559, R561, R562. Where a capability lies in the configuration space is
PRESUMED (log 124). The model's choices: the forms of BAR4, of the Lagg bridge and of the debug gate (logs 115, 120, 123), an AtomicOp without a
session (log 27), what an FLR leaves of the link (log 39), and what is dropped on its way over a clock crossing (log 110). -/
def Obligations.PcieEndpoint : Prop :=
  ∀ (s : State),
    let onMsix := fun (n : State) => n.busMaster = true ∧ n.pcie.msixEn = true ∧ n.pcie.fnMask = false
    (∀ (v : Fin 64) (ag : Bool),
      let bit := fun (t : State) => t.pcie.pend.getLsbD v
      (s.vecCond v = false → ∃ t, exec (.msixSend v ag) s = .next t ∧ bit t = false ∧ t.pcie.cond.getLsbD v = false ∧ t.sent = s.sent) ∧
      (s.vecCond v = true → s.pcie.cond.getLsbD v = false ∨ ag = true →
        (onMsix s → s.pcie.mask.getLsbD v = false → ∃ t, exec (.msixSend v ag) s = .next t ∧ t.sent = .msix v :: s.sent ∧ bit t = false) ∧
        (s.busMaster = false ∨ s.pcie.msixEn = false ∨ s.pcie.fnMask = true ∨ s.pcie.mask.getLsbD v = true →
          ∃ t, exec (.msixSend v ag) s = .next t ∧ t.sent = s.sent ∧ bit t = true)) ∧
      (s.vecCond v = true → s.pcie.cond.getLsbD v = true → bit s = false → s.pcie.mask.getLsbD v = false → s.pcie.fnMask = false →
        ∃ t, exec (.msixSend v false) s = .next t ∧ t.sent = s.sent ∧ bit t = false)) ∧
    (s.pcie.linkUp = false → ∀ r, cfgInner r = false → exec (.configurationRequest r) s = .next s) ∧
    -- the Lagg bridge as master M4, and the control core through the debug gate
    (∀ a : Word, a.toNat < 0x1C0000 → a.toNat % 4 = 0 → s.mtx.spmBad = [] → s.mtx.wiping = false → s.mtx.shadow = none → s.mtx.late = [] → s.MemWf →
      exec (.configurationRequest (.laggRead a)) s = .next (s.answer "OK" (w32 (leNat (memGetBytes ramDefault s.mtx.spm a.toNat 4)))) ∧
      ∀ d, d.length = 4 → ∃ t, exec (.configurationRequest (.laggWrite a d)) s = .next t ∧ t.rdResp = "OK" ∧ t.regs = s.regs ∧
        memGetBytes ramDefault t.mtx.spm a.toNat 4 = d ∧
        ∀ b, b < a.toNat ∨ a.toNat + 4 ≤ b → memGet ramDefault t.mtx.spm b = memGet ramDefault s.mtx.spm b) ∧
    (∀ r, s.debugGate 0 = false → exec (.configurationRequest (.debug r)) s = .next s) ∧
    (s.debugGate 0 = true →
      let dbg := fun (r : DebugReq) => exec (.configurationRequest (.debug r)) s
      (s.core.st = 1 ∨ s.core.st = 2 → dbg .halt = .next { s with core := { s.core with st := 4 } }) ∧
      (s.core.st ≠ 1 → s.core.st ≠ 2 → dbg .halt = .next s) ∧ (s.core.st ≠ 4 → dbg .step = .next s) ∧
      (∀ n : BitVec 4, dbg (.readReg ⟨n.toNat, by omega⟩) = .next (s.answer "OK" (s.dr n)) ∧
        ∀ w, dbg (.writeReg ⟨n.toNat, by omega⟩ w) = .next (s.setDr n w)) ∧
      dbg (.readCsr 0x013) = .next (s.answer "OK" s.core.vbase) ∧
      (∀ a : Word, a.toNat < 0x1C0000 → a.toNat % 4 = 0 → s.mtx.spmBad = [] → s.mtx.wiping = false → s.mtx.shadow = none → s.mtx.late = [] →
        dbg (.readMem a) = .next (s.answer "OK" (w32 (leNat (memGetBytes ramDefault s.mtx.spm a.toNat 4)))))) ∧
    (s.pcie.linkUp = true →
      (s.pcie.crs = true → ∀ r, cfgBar4 r = false → cfgInner r = false → exec (.configurationRequest r) s = .next (s.answer "CRS" 0)) ∧
      (s.pcie.crs = false →
        (∀ on, ∃ t, exec (.configurationRequest (.msixEnable on)) s = .next t ∧ t.pcie.msixEn = on ∧ t.pcie.mask = s.pcie.mask ∧ t.rdResp = "OK") ∧
        (∀ on, ∃ t, exec (.configurationRequest (.busMaster on)) s = .next t ∧ t.pcie.bme = on ∧ t.pcie.msixEn = s.pcie.msixEn ∧ t.rdResp = "OK") ∧
        (∀ on, ∃ t, exec (.configurationRequest (.d3hot on)) s = .next t ∧ t.pcie.d3hot = on ∧ t.pcie.bme = s.pcie.bme ∧ t.rdResp = "OK") ∧
        (∀ (off : BitVec 12) w, ∃ t, exec (.configurationRequest (.write off w)) s = .next t ∧ t.rdResp = "OK" ∧ t.regs = s.regs ∧
          t.pcie.bme = (if off.toNat / 4 = 1 then w.getLsbD 2 else s.pcie.bme) ∧
          t.pcie.msixEn = (if off.toNat / 4 = 0x12 then w.getLsbD 31 else s.pcie.msixEn) ∧
          (smWf cfgInit s.pcie.cfg = true → ∀ p ∈ [(0x10, 0xFE000000, 4), (0x14, 0xFFFFFFFF, 0), (0x18, 0xFE000000, 4), (0x1C, 0xFFFFFFFF, 0),
              (0x20, 0xE0000000, 4), (0x24, 0xFFFFFFFF, 0)], s.pcie.cfg = [] → off.toNat / 4 * 4 = p.1 →
            t.cfgWord p.1 = (w &&& BitVec.ofNat 32 p.2.1) ||| BitVec.ofNat 32 p.2.2)) ∧
        (∀ off : BitVec 12, ∃ t, exec (.configurationRequest (.read off)) s = .next t ∧ t.rdResp = "OK" ∧ t.pcie = s.pcie ∧
          t.rdData = s.cfgWord (off.toNat / 4 * 4) ∧
          (off.toNat / 4 = 0 → s.pcie.cfg = [] → t.rdData.toNat / 65536 = if s.otp.grade = 1 then 0x0632 else 0x0648) ∧
          (off.toNat / 4 = 2 → s.pcie.cfg = [] → t.rdData.toNat / 256 = 0x118000) ∧
          (∀ p ∈ [(0x40, 0x4801), (0x48, 0x5811), (0x58, 0x0010), (0x100, 0x0001), (0x148, 0x0003)], off.toNat = p.1 → s.pcie.cfg = [] →
            t.rdData.toNat % 65536 = p.2) ∧
          (off = 0x14C → s.pcie.cfg = [] → t.rdData.toNat = s.otp.serial % 2 ^ 32))) ∧
      (∀ (v : Fin 64) (on : Bool), ∃ t, exec (.configurationRequest (.mask v on)) s = .next t ∧ t.rdResp = "OK" ∧ t.pcie.mask.getLsbD v = on ∧
        ∀ u : Fin 64, u ≠ v → t.pcie.mask.getLsbD u = s.pcie.mask.getLsbD u) ∧
      (∀ (v : Fin 64) k w, ∃ t, exec (.configurationRequest (.table v k w)) s = .next t ∧ t.rdResp = "OK" ∧ t.pcie.mask = s.pcie.mask ∧
        t.sent = s.sent) ∧
      ∀ hi, ∃ t, exec (.configurationRequest (.readPba hi)) s = .next t ∧ t.rdResp = "OK" ∧ t.sent = s.sent ∧
        ∀ j : Fin 32, t.rdData.getLsbD j = t.pcie.pend.getLsbD (j.val + if hi then 32 else 0)) ∧
    (∀ (sp : Fin 6) (wd : Fin 9),
      let up := ({ s with pcie := { s.pcie with perst := false, train := (sp.val, wd.val) } } : State)
      (s.sys.pdReleased = false → exec (.perstNRelease sp wd) s = .next up) ∧
      (s.sys.pdReleased = true → s.pcie.linkUp = false → wd.val ≠ 0 →
        exec (.perstNRelease sp wd) s = .next { up with pcie := { up.pcie with linkUp := true, flr := false, speed := sp.val, width := wd.val } })) ∧
    (s.MemWf → ∀ c : Fin 4, ∃ t, exec (.endpointReset c 0 none) s = .next t ∧ t.pcie.bme = false ∧ t.pcie.msixEn = false ∧ t.pcie.d3hot = false ∧
      t.pcie.pend = 0 ∧ t.pcie.mask = -1 ∧ t.pcie.table = [] ∧ t.pcie.cfg = [] ∧ t.sec.host = none ∧ t.pcie.linkUp = (decide (c.val = 3) && s.pcie.linkUp) ∧
      t.jnl.host.words = Vector.replicate 16 0 ∧ t.jnl.queue = s.jnl.queue ∧ t.rf rPcieRst 3 0 = c.val + 1 ∧
      t.rf rPcieRst 31 16 = min 65535 (s.rf rPcieRst 31 16 + 1) ∧ t.rbit rPcieEvt 5 = true ∧ t.reg rPcieGwinCtrl = 0 ∧ t.reg rPcieCtrl = s.reg rPcieCtrl ∧
      t.viewPcie rPcieStatus = 0 ∧
      t.balls = s.balls ∧ t.sys = s.sys ∧ t.frm = s.frm ∧ t.res = s.res ∧ t.mtx = { s.mtx with cdc := t.mtx.cdc } ∧ (∀ x ∈ t.mtx.cdc, x ∈ s.mtx.cdc) ∧
      t.gddr = s.gddr) ∧
    (∀ (op : AtOp) (wide : Bool) (v : BitVec 64) (off : BitVec 29) (lo hi : Bool),
      let k := if wide then 8 else 4
      let x := v.toNat % 2 ^ (8 * k)
      let new := fun (old : Nat) => match op with
        | .fetchAdd => (old + x) % 2 ^ (8 * k)
        | .swap => x
        | .cas c => if old = c.toNat % 2 ^ (8 * k) then x else old
      (s.pcie.linkUp = false ∨ s.owes 3 = true → exec (.atomicOp off wide op v lo hi) s = .next s) ∧
      (s.pcie.linkUp = true → s.owes 3 = false → s.sys.st.code < 2 ∨ off.toNat % k ≠ 0 ∨ (off.toNat < 0x10000 ∨ (0x11000 ≤ off.toNat ∧ off.toNat < 0x200000) ∨ 0x3C0000 ≤ off.toNat) →
        ∃ t, exec (.atomicOp off wide op v lo hi) s = .next t ∧ t.rdResp = "UR" ∧ t.mtx = s.mtx) ∧
      (s.pcie.linkUp = true → s.owes 3 = false → 2 ≤ s.sys.st.code → off.toNat % k = 0 → s.MemWf →
        (0x10000 ≤ off.toNat → off.toNat < 0x11000 →
          let a := off.toNat - 0x10000
          let old := leNat (memGetBytes ramDefault s.mtx.mbox a k)
          (s.sec.host.isSome → ∃ t, exec (.atomicOp off wide op v false false) s = .next t ∧ t.rdResp = "OK" ∧ t.sent = .resp "host" "OK" old :: s.sent ∧
            leNat (memGetBytes ramDefault t.mtx.mbox a k) = new old ∧ t.regs = s.regs ∧
            ∀ b, b < a ∨ a + k ≤ b → memGet ramDefault t.mtx.mbox b = memGet ramDefault s.mtx.mbox b) ∧
          (s.sec.host.isSome → wide = false → ∃ t, exec (.atomicOp off wide op v true hi) s = .next t ∧ t.rdResp = "OK" ∧ t.rdData = w32 old ∧
            t.mtx.mbox = s.mtx.mbox) ∧
          (s.sec.host = none → ∃ t, exec (.atomicOp off wide op v lo hi) s = .next t ∧ t.rdData = w32 old ∧ t.mtx.mbox = s.mtx.mbox ∧
            t.reg rSecNosess = s.reg rSecNosess + 1)) ∧
        (0x200000 ≤ off.toNat → off.toNat < 0x3C0000 → s.mtx.spmBad = [] → s.mtx.wiping = false → s.mtx.shadow = none → s.sec.host.isSome →
          let a := off.toNat - 0x200000
          let old := leNat (memGetBytes ramDefault s.mtx.spm a k)
          ∃ t, exec (.atomicOp off wide op v lo hi) s = .next t ∧ t.rdResp = "OK" ∧ t.sent = .resp "host" "OK" old :: s.sent ∧
            leNat (memGetBytes ramDefault t.mtx.spm a k) = new old ∧ t.regs = s.regs ∧
            ∀ b, b < a ∨ a + k ≤ b → memGet ramDefault t.mtx.spm b = memGet ramDefault s.mtx.spm b))) ∧
    (∀ off, s.owes 3 = true → exec (.configurationRequest (.bar4Read off)) s = .next s ∧ ∀ d, exec (.configurationRequest (.bar4Write off d)) s = .next s) ∧
    (∀ off : BitVec 29, s.pcie.linkUp = true → s.owes 3 = false → off.toNat % 4 = 0 → s.MemWf →
      let o := off.toNat
      let rd := exec (.configurationRequest (.bar4Read off)) s
      let wr := fun (d : List (BitVec 8)) => exec (.configurationRequest (.bar4Write off d)) s
      let p := s.rf rPcieGwinCtrl 2 0
      let g := s.reg64 rPcieGwinBaseLo + (o - 0x10000000)
      let shown := s.rbit rPcieGwinCtrl 31 = true ∧ (s.gdcAt p).st = 2 ∧ g + 4 ≤ s.gdcBytes p
      ((0x200000 ≤ o ∧ o < 0x400000 ∧ s.sys.st.code < 2) ∨ (0x400000 ≤ o ∧ o < 0x4000000) ∨ (0xC800000 ≤ o ∧ o < 0x10000000) ∨
          (0x10000000 ≤ o ∧ ¬ shown) → rd = .next (s.inbUr false) ∧ ∀ d, d.length = 4 → wr d = .next (s.inbUr true)) ∧
      -- the secure window: a decode error of the matrix, and UR; a posted write is logged under AER as well
      (0x3C0000 ≤ o → o < 0x400000 → 2 ≤ s.sys.st.code → CanReport s evMtxDecerr 0 →
        let turned := fun (t : State) => t.rdResp = "UR" ∧ t.mtx = s.mtx ∧ t.rbit rMtxEvt 2 = true ∧ Reported s t evMtxDecerr 0 ∧
          t.rf rPcieInbErr 31 16 = min 65535 (s.rf rPcieInbErr 31 16 + 1) ∧
          (s.rbit rMtxErrInfo 31 = false → t.rf rMtxErrInfo 30 28 = 1 ∧ t.rf rMtxErrInfo 26 24 = 3 ∧ t.reg rMtxErrAddr = w32 (o - 0x200000))
        (∃ t, rd = .next t ∧ turned t ∧ t.pcie = s.pcie) ∧
        ∀ d, d.length = 4 → ∃ t, wr d = .next t ∧ turned t ∧ (smWf cfgInit s.pcie.cfg = true → bitN (t.cfgKept 0x104) 20 = true)) ∧
      (0x200000 ≤ o → o < 0x3C0000 → 2 ≤ s.sys.st.code → s.mtx.spmBad = [] → s.mtx.wiping = false → s.mtx.shadow = none →
        let a := o - 0x200000
        rd = .next (s.answer "OK" (w32 (leNat (memGetBytes ramDefault s.mtx.spm a 4)))) ∧
        ∀ d, d.length = 4 →
          (s.sec.host.isSome → ∃ t, wr d = .next t ∧ t.rdResp = "OK" ∧ memGetBytes ramDefault t.mtx.spm a 4 = d ∧ t.regs = s.regs ∧
            ∀ b, b < a ∨ a + 4 ≤ b → memGet ramDefault t.mtx.spm b = memGet ramDefault s.mtx.spm b) ∧
          (s.sec.host = none → ∃ t, wr d = .next t ∧ t.mtx.spm = s.mtx.spm ∧ t.reg rSecNosess = s.reg rSecNosess + 1)) ∧
      (0x10000000 ≤ o → shown →
        let a := gddrKey p g
        rd = .next (s.answer "OK" (w32 (leNat (memGetBytes ramDefault s.gddr a 4)))) ∧
        ∀ d, d.length = 4 →
          (s.sec.host.isSome → s.inSysArea p (g + 3) = false → ∃ t, wr d = .next t ∧ t.rdResp = "OK" ∧ memGetBytes ramDefault t.gddr a 4 = d ∧
            t.regs = s.regs ∧ ∀ b, b < a ∨ a + 4 ≤ b → memGet ramDefault t.gddr b = memGet ramDefault s.gddr b) ∧
          (s.sec.host.isSome → s.inSysArea p (g + 3) = true → ∃ t, wr d = .next t ∧ t.rdResp = "CA" ∧ t.gddr = s.gddr ∧ t.rbit rMtxEvt 0 = true ∧
            t.rf rPcieInbErr 15 0 = min 65535 (s.rf rPcieInbErr 15 0 + 1)) ∧
          (s.sec.host = none → ∃ t, wr d = .next t ∧ t.gddr = s.gddr ∧ t.reg rSecNosess = s.reg rSecNosess + 1))) ∧
    ∀ (ci : Word) (who : Requester),
      let far := fun (pi old : Nat) => (pi + 2 ^ 32 - old) % 2 ^ 32 < (ci.toNat + 2 ^ 32 - old) % 2 ^ 32
      let rec' := ({ s with res := { s.res with recR := { s.res.recR with ci := ci.toNat } } } : State)
      let clip := ({ s with res := { s.res with clipR := { s.res.clipR with ci := ci.toNat } } } : State)
      (s.pcie.linkUp = true → s.owes 3 = false →
        (¬ far s.res.recR.pi s.res.recR.ci → exec (.recordCiDoorbell true who ci) s = .next (rec'.answer "OK" 0)) ∧
        (¬ far s.res.clipR.pi s.res.clipR.ci → exec (.clipCiDoorbell true who ci) s = .next (clip.answer "OK" 0)) ∧
        (far s.res.recR.pi s.res.recR.ci → s.MemWf → ∃ t, exec (.recordCiDoorbell true who ci) s = .next t ∧ t.res = s.res ∧ t.rbit rPcieEvt 4 = true) ∧
        (far s.res.clipR.pi s.res.clipR.ci → s.MemWf → ∃ t, exec (.clipCiDoorbell true who ci) s = .next t ∧ t.res = s.res ∧ t.rbit rPcieEvt 4 = true)) ∧
      (CoreMayAccess s →
        (¬ far s.res.recR.pi s.res.recR.ci → ∃ t, exec (.recordCiDoorbell false .core ci) s = .next t ∧ t.res = rec'.res ∧ t.rdResp = "OK") ∧
        (¬ far s.res.clipR.pi s.res.clipR.ci → ∃ t, exec (.clipCiDoorbell false .core ci) s = .next t ∧ t.res = clip.res ∧ t.rdResp = "OK"))

/-! Clocks, supplies, thermal control and the peat record -/

/-- R31, R532, R534, R541, R566, R568, R570, R571, R575, R576, R590, R591. The model's choices, no rule of the spec: in VERIFY and LOAD the
shutdown waits for TRAIN and in BOOT it is captured alone (log 113); the limits of VDD_ARR where no target is in force (log 119); a transition and
a completion that a loss of power meets (log 114); the 5 µs between peat entries (log 102); which rows stand still with the clocks of the
processing die, and the encoding of VOUT_COMMAND (log 125). -/
def Obligations.ClocksSuppliesAndPeat : Prop :=
  ∀ (s : State),
    let on := s.sys.powered = true ∧ s.sys.resetN = true
    (∀ (pd : Vector (BitVec 16) 8) (ld : BitVec 16) (hot : Int), (∀ i : Fin 8, pd[i].toInt ≤ hot) → (∃ i : Fin 8, pd[i].toInt = hot) →
      (s.sys.powered = false ∨ s.sys.resetN = false ∨ (∃ u, s.clk.thermAt = some u ∧ s.ts < u + 800000) →
        exec (.thermalSample pd ld) s = .next s) ∧
      (s.sys.powered = true → s.sys.resetN = true → (∀ u, s.clk.thermAt = some u → u + 800000 ≤ s.ts) → s.clk.shutdown = false →
        (hot < 1150 → ld.toInt < 1150 →
          let seen := fun (t : State) => t.clk.tPd = hot ∧ t.clk.tLd = ld.toInt ∧ t.clk.thermAt = some s.ts ∧ t.sys = s.sys ∧ t.balls = s.balls
          (1000 ≤ hot → s.clk.hotReq = none → s.frm.step < 4 → CanReport s evThermHigh 0 → s.MemWf →
            ∃ t, exec (.thermalSample pd ld) s = .next t ∧ seen t ∧ t.clk.hotReq = some s.ts ∧ t.frm.stepReq = some (s.frm.step + 1) ∧
              t.rf rClkTherm 31 16 = min 65535 (s.rf rClkTherm 31 16 + 1) ∧ t.rbit rClkEvt 1 = true ∧ Reported s t evThermHigh 0) ∧
          (∀ u, 1000 ≤ hot → s.clk.hotReq = some u → s.ts < u + 8000000 →
            ∃ t, exec (.thermalSample pd ld) s = .next t ∧ seen t ∧ t.frm = s.frm ∧ t.eru = s.eru) ∧
          (950 ≤ hot → hot < 1000 → ∃ t, exec (.thermalSample pd ld) s = .next t ∧ seen t ∧ t.clk.hotReq = none ∧ t.clk.coolFrom = none ∧
            t.frm = s.frm ∧ t.regs = s.regs) ∧
          (∀ u, hot < 950 → s.clk.coolFrom = some u → u + 80000000 ≤ s.ts → 0 < s.frm.step → s.fastest ≤ s.frm.step - 1 →
            s.rbit rClkAvsCtrl 7 = false → ∃ t, exec (.thermalSample pd ld) s = .next t ∧ seen t ∧ t.clk.coolFrom = some s.ts ∧
              t.frm.stepReq = some (s.frm.step - 1) ∧ t.eru = s.eru)) ∧
        (1150 ≤ hot ∨ 1150 ≤ ld.toInt → ∃ t, exec (.thermalSample pd ld) s = .next t ∧ t.clk.shutdown = true ∧ t.OutputsSafe ∧
          atV t.eru.cnt 3 0 = (atV s.eru.cnt 3 0 + 1) % 2 ^ 32 ∧
          (s.sys.st = .train ∨ s.sys.st = .armed ∨ s.sys.st = .running ∨ s.sys.st = .hold → t.sys.st = .faultStop ∧ t.sys.faultN = true) ∧
          (s.sys.st = .verify ∨ s.sys.st = .load → t.sys.st = s.sys.st ∧ t.sys.fatalPend = true) ∧
          (s.sys.st = .boot ∨ s.sys.st = .faultStop ∨ s.sys.st = .wiped → t.sys.st = s.sys.st))) ∧
      (s.sys.powered = true → s.sys.resetN = true → (∀ u, s.clk.thermAt = some u → u + 800000 ≤ s.ts) → s.clk.shutdown = true → s.sys.st = .boot →
        s.sec.env = false → s.testsPassed = true →
        (hot < 1000 → ld.toInt < 1000 → ∃ t, exec (.thermalSample pd ld) s = .next t ∧ t.clk.shutdown = false ∧ t.sys.pdReleased = true ∧ t.sys.st ≠ .boot) ∧
        (1000 ≤ hot ∨ 1000 ≤ ld.toInt → ∃ t, exec (.thermalSample pd ld) s = .next t ∧ t.clk.shutdown = true ∧ t.sys = s.sys))) ∧
    (∀ c : Instr, onPdClocks c = true → s.clk.shutdown = true → exec c s = .next s) ∧
    (¬ on ∨ s.rbit rClkAvsCtrl 7 = false → ∀ reply, exec (.avsVoutSettled reply) s = .next s) ∧
    (on → s.rbit rClkAvsCtrl 7 = true →
      let asked := s.send (.pmbus (s.rf rClkAvsCtrl 6 0) "READ_VOUT" 0)
      (CanReport s evAvsFault 0 → s.MemWf → ∃ t, exec (.avsVoutSettled none) s = .next t ∧ t.sent = asked.sent ∧ t.clk = s.clk ∧ t.frm = s.frm ∧
        t.rbit rClkEvt 2 = true ∧ Reported s t evAvsFault 0) ∧
      ∀ (mv : BitVec 16),
        let near := s.clk.target ≤ mv.toNat + 10 ∧ mv.toNat ≤ s.clk.target + 10
        let got := ({ asked with clk := { s.clk with vout := mv.toNat } } : State)
        (s.clk.avsStep = none ∨ ¬ near ∨ s.clk.avsAt + 400000 < s.ts → exec (.avsVoutSettled (some mv)) s = .next got) ∧
        (∀ n, s.clk.avsStep = some n → near → s.ts ≤ s.clk.avsAt + 400000 → ∃ t, exec (.avsVoutSettled (some mv)) s = .next t ∧
          t.frm = { s.frm with stepReq := some n } ∧ t.clk = { got.clk with avsStep := none } ∧ t.regs = s.regs ∧ t.sent = asked.sent)) ∧
    (s.clk.avsStep = none ∨ s.ts < s.clk.avsAt + 400000 → exec .avsTimeout s = .next s) ∧
    (∀ n, s.clk.avsStep = some n → s.clk.avsAt + 400000 ≤ s.ts → CanReport s evAvsFault 0 → s.MemWf → ∃ t, exec .avsTimeout s = .next t ∧
      t.clk.avsStep = none ∧ t.clk.avsRetry = some (n, s.ts + 80000000) ∧ t.frm = s.frm ∧ t.rbit rClkEvt 2 = true ∧ Reported s t evAvsFault 0) ∧
    (s.clk.avsRetry = none → exec .avsRetry s = .next s) ∧
    (∀ n u, s.clk.avsRetry = some (n, u) →
      (s.ts < u → exec .avsRetry s = .next s) ∧
      (u ≤ s.ts → n < s.frm.step → s.fastest ≤ n → s.rbit rClkAvsCtrl 7 = true → ∃ t, exec .avsRetry s = .next t ∧ t.clk.avsStep = some n ∧
        t.clk.avsAt = s.ts ∧ t.clk.avsRetry = none ∧ t.clk.target = atV s.otp.avs n 0 ∧ t.frm = { s.frm with stepReq := none } ∧
        t.sent = .pmbus (s.rf rClkAvsCtrl 6 0) "VOUT_COMMAND" (Config.voutCommand (atV s.otp.avs n 0)).toNat :: s.sent) ∧
      (u ≤ s.ts → s.frm.step ≤ n ∨ n < s.fastest → exec .avsRetry s = .next { s with clk := { s.clk with avsRetry := none } })) ∧
    (¬ on → ∀ acked mv, exec (.pmbAlertInput acked) s = .next s ∧ exec (.supplyWarnTimer mv) s = .next s) ∧
    (on → CanReport s evPmbAlert 0 → s.MemWf →
      (∃ t, exec (.pmbAlertInput true) s = .next t ∧ t.rbit rClkEvt 3 = true ∧ Reported s t evPmbAlert 0 ∧
        ∀ a, (a ∈ s.pmbAddrs ∨ (a = s.rf rClkAvsCtrl 6 0 ∧ a ≠ 0)) → Sent.pmbus a "STATUS_WORD" 0 ∈ t.sent ∧ Sent.pmbus a "CLEAR_FAULTS" 0 ∈ t.sent) ∧
      ∃ t, exec (.pmbAlertInput false) s = .next t ∧ t.rbit rClkEvt 3 = true ∧ t.rbit rClkEvt 2 = true) ∧
    (∀ mv : Vector (BitVec 16) 4, on → s.MemWf →
      let v := fun (i : Fin 4) => mv[i].toNat
      let lim := fun (i : Fin 4) => [s.railRange 0, (728, 773), (855, 945), (1710, 1890)].getD i (0, 0)
      let good := fun (i : Fin 4) => decide ((lim i).1 ≤ v i ∧ v i ≤ (lim i).2)
      let shown := fun (t : State) => t.reg rClkMon0 = w32 (v 1 * 65536 + v 0) ∧ t.reg rClkMon1 = w32 (v 3 * 65536 + v 2) ∧
        ∀ i : Fin 4, bitN t.clk.warn i = !good i
      ((∀ i : Fin 4, good i = true ∨ bitN s.clk.warn i = true) →
        ∃ t, exec (.supplyWarnTimer mv) s = .next t ∧ shown t ∧ t.eru = s.eru ∧ t.peat = s.peat ∧ t.reg rClkEvt = s.reg rClkEvt) ∧
      (∀ i : Fin 4, good i = false → bitN s.clk.warn i = false → CanReport s evSupplyWarn 0 →
        ∃ t, exec (.supplyWarnTimer mv) s = .next t ∧ shown t ∧ t.rbit rClkEvt 4 = true ∧ Reported s t evSupplyWarn 0)) ∧
    (∀ p : Vector (Option (BitVec 16)) 4,
      let n := s.pmbAddrs.length
      let due := on ∧ ∀ u, s.clk.powerAt = some u → u + 80000000 ≤ s.ts
      (¬ due → exec (.powerSample p) s = .next s) ∧
      (due → (∀ i : Fin 4, i.val < n → p[i].isSome) → ∃ t, exec (.powerSample p) s = .next t ∧ t.eru = s.eru ∧ t.regs = s.regs ∧
        t.clk.powerAt = some s.ts ∧ t.clk.power = (((p.toList.take n).map fun x => (x.getD 0).toNat).foldl (· + ·) 0) ∧
        t.sent = (s.pmbAddrs.map fun a => Sent.pmbus a "READ_POUT" 0).reverse ++ s.sent) ∧
      (due → ∀ i : Fin 4, i.val < n → p[i] = none → CanReport s evAvsFault 0 → ∃ t, exec (.powerSample p) s = .next t ∧ Reported s t evAvsFault 0)) ∧
    (s.sys.powered = false → exec .powerLoss s = .next s) ∧
    (s.sys.powered = true → ∃ t, exec .powerLoss s = .next t ∧ t.sys.powered = false ∧ t.sys.st = State.reset.sys.st ∧ t.peat.queue = [] ∧
      t.peat.ring = s.peat.ring ∧ t.peat.next = s.peat.next ∧ t.flash = s.flash ∧ t.mtx.spm = [] ∧ t.sec.kwrap = none ∧ t.sec.drbg = false ∧
      t.OutputsSafe ∧ (∀ i : Fin 16, t.balls.trg[i] = .hiZ) ∧ t.jnl.entries.length = s.jnl.entries.length ∧
      (s.sec.undo = none → t.otp = s.otp ∧ ∀ (i : Nat) (e : JEntry), s.jnl.entries[i]? = some e → e.ostat = 0 ∨ e.doneAt + 8000 ≤ s.ts → t.jnl.entries[i]? = some e)) ∧
    (¬ on ∨ (∃ u, s.clk.healthAt = some u ∧ s.ts < u + 80000000) → exec .healthSample s = .next s) ∧
    (on → (∀ u, s.clk.healthAt = some u → u + 80000000 ≤ s.ts) → s.peat.queue.length < 1024 → ∃ r, exec .healthSample s =
        .next { s with clk := { s.clk with healthAt := some s.ts }, peat := { s.peat with queue := s.peat.queue ++ [r] } } ∧ r.type = 7 ∧
      r.sub = s.frm.step ∧ r.time = s.fabricTime ∧
      r.body = leBytes 2 (unsigned 16 s.clk.tPd) ++ leBytes 2 (unsigned 16 s.clk.tLd) ++ leBytes 4 (s.reg rClkMon0).toNat ++
        leBytes 4 (s.reg rClkMon1).toNat ++ leBytes 2 (min 65535 s.clk.power)) ∧
    (s.peat.queue = [] ∨ ¬ on ∨ (∃ u, s.peat.wroteAt = some u ∧ s.ts < u + 4000) → exec .peatEntryWrite s = .next s) ∧
    (∀ r q, on → (∀ u, s.peat.wroteAt = some u → u + 4000 ≤ s.ts) → s.peat.queue = r :: q → smWf peatDefault s.peat.ring = true → ∃ t i e, exec .peatEntryWrite s = .next t ∧ t.peat.queue = q ∧
      t.peat.wroteAt = some s.ts ∧ t.peat.next = s.peat.next + 1 ∧ t.peat.head = some i ∧ smGet peatDefault t.peat.ring i = some e ∧ e.pseq = s.peat.next % 2 ^ 32 ∧
      e.type = r.type ∧ e.sub = r.sub ∧ e.time = r.time ∧ e.ok = true ∧
      ((∀ k : Fin 4, s.peat.regions[k] = none) → i = match s.peat.head with
        | some h => (h + 1) % 262144
        | none => 0) ∧
      ∀ j, j ≠ i → smGet peatDefault t.peat.ring j = smGet peatDefault s.peat.ring j) ∧
    (s.eru.fatalActive = false ∨ s.ts < s.eru.fatalDue → exec .fatalTimeout s = .next s) ∧
    (s.eru.fatalActive = true → s.eru.fatalDue ≤ s.ts → s.sys.st = .train ∨ s.sys.st = .armed ∨ s.sys.st = .running ∨ s.sys.st = .hold →
      ∃ t, exec .fatalTimeout s = .next t ∧ t.sys.st = .faultStop ∧ t.sys.faultN = true ∧ t.OutputsSafe)

/-! Power, reset and start-up -/

/-- R11, R15, R31, R455, R482, R485, R494, R508, R515, R541, R566, R567, R569, R578, R581. The model's choices: the stop outside the ratings
(log 65), RESET_N low for 1 µs to 10 µs (log 21), and a loss of the other die in BOOT, VERIFY and LOAD, which changes no state (log 113). -/
def Obligations.PowerResetAndRelease : Prop :=
  ∀ (s : State),
    let dark := fun (t : State) => (∀ i : Fin 16, t.balls.trg[i] = .hiZ ∧ t.balls.gpo[i] = .hiZ) ∧ ∀ i : Fin 8, t.balls.mrk[i] = .hiZ
    let kept := fun (t : State) => t.otp = s.otp ∧ t.flash = s.flash ∧ t.jnl.entries = s.jnl.entries ∧ t.peat.ring = s.peat.ring ∧
      t.sec.slots = s.sec.slots ∧ t.sec.lc = s.sec.lc ∧ t.sec.imgFloor = s.sec.imgFloor
    (∀ p,
      (s.sys.powered = true → exec (.powerOn p) s = .next s) ∧
      (s.sys.powered = false → powerOk p = true → ∃ t, exec (.powerOn p) s = .next t ∧ t.sys.powered = true ∧ t.sys.resetN = false ∧
        t.sys.faultN = true ∧ dark t ∧ kept t ∧ t.mtx.spm = [] ∧ t.regs = []) ∧
      (s.sys.powered = false → p.ld.mv < 855 ∨ 945 < p.ld.mv ∨ p.core.mv < 728 ∨ 773 < p.core.mv ∨ p.ld33.mv < 3135 ∨ p.arr.rise < 100 ∨
        10000 < p.arr.rise ∨ p.core.start < p.ld.inRange ∨ p.arr.start < p.core.inRange → exec (.powerOn p) s = .fault .outOfRating)) ∧
    (∀ ns,
      (s.sys.powered = false ∨ s.sys.resetN = false ∨ ns < 1000 → exec (.resetNAssert ns) s = .next s) ∧
      (s.sys.powered = true → s.sys.resetN = true → 10000 ≤ ns → ∃ t, exec (.resetNAssert ns) s = .next t ∧ t.sys.resetN = false ∧
        t.sys.resetCause = 1 ∧ t.sys.faultN = true ∧ t.sys.outEn = false ∧ dark t ∧ kept t ∧ t.regs = [] ∧ t.core = { State.reset.core with nmiPin := s.core.nmiPin }) ∧
      (s.sys.powered = true → s.sys.resetN = true → 1000 ≤ ns → ∃ t, exec (.resetNAssert ns) s = .next t ∧ kept t ∧
        (t.sys.resetN = false ∨ t.sys = s.sys))) ∧
    (s.sys.powered = false ∨ s.sys.resetN = true → exec .resetNRelease s = .next s) ∧
    (s.sys.powered = true → s.sys.resetN = false →
      (s.sys.resetCause = 0 → s.ts < s.sys.resetFall + 8000000 → exec .resetNRelease s = .fault .outOfRating) ∧
      (s.sys.resetCause ≠ 0 ∨ s.sys.resetFall + 8000000 ≤ s.ts → ∃ t, exec .resetNRelease s = .next t ∧ t.sys.resetN = true ∧ t.sys.st = .boot ∧
        t.sys.faultN = false ∧ t.ts = 0 ∧ t.sys.starts = s.sys.starts + 1 ∧ (s.sys.laggLost = false → ∀ i : Fin 16, t.balls.trg[i] = .low) ∧
        (s.sys.laggLost = false → s.sys.st = .boot → s.sys.outEn = false → t.balls.mrk = s.balls.mrk ∧ ∀ i : Fin 16, t.balls.gpo[i] = lvl (s.rbit rIoxGpoSafe i)))) ∧
    (∀ fail, s.sys.st ≠ .boot ∨ s.sec.selftest ≠ 0 ∨ s.sec.testFail = true → exec (.bootSelftestDone fail) s = .next s) ∧
    (s.sys.st = .boot → s.sys.resetN = true → s.sys.powered = true → s.sec.selftest = 0 → s.sec.testFail = false →
      (∀ i : Fin 9, s.peat.queue.length < 1024 → i.val = 0 ∨ s.sec.pendMark = false → ∃ t r, exec (.bootSelftestDone (some i)) s = .next t ∧ t.sys = s.sys ∧
        t.sec.selftest = 2 ^ i.val - 1 ∧ t.sec.testFail = true ∧ t.sec.approved = s.sec.approved ∧ t.peat.queue = s.peat.queue ++ [r] ∧ r.type = 0x0A ∧ r.sub = 3) ∧
      (s.sec.env = true → ∃ t, exec (.bootSelftestDone none) s = .next t ∧ t.sys.st = .boot ∧ t.sys.pdReleased = s.sys.pdReleased ∧ t.sec.selftest = 0x1FF) ∧
      (s.sec.env = false → s.clk.shutdown = false → s.sec.pendMark = false → s.sec.debugOpened = false →
        let ends := fun (st : DState) (cause : Nat) => ∃ t, exec (.bootSelftestDone none) s = .next t ∧ t.sys.st = st ∧ t.sys.holdCause = cause ∧
          t.sys.pdReleased = true ∧ t.sec.selftest = 0x1FF ∧ t.sec.approved = !s.sec.entropyFail ∧ t.sec.drbg = !s.sec.entropyFail ∧
          t.sec.kwrap.isSome = true ∧ (∀ k, s.sec.idKey = some k → s.sec.transient = false → t.sec.idKey = some k) ∧
          (s.sec.idKey = none → if s.sec.entropyFail = false ∧ Config.pairwiseOk s.sec.drawn = true then t.sec.idKey = some s.sec.drawn ∧ t.sec.transient = true
            else t.sec.idKey = none) ∧ (st = .verify → t.img.slot = s.img.sel)
        (s.otp.scrapped = true ∨ s.sec.lc = .returned ∨ s.sec.lc = .scrapped → ends .wiped s.sys.holdCause) ∧
        (s.otp.scrapped = false →
          (s.sec.lc = .owned → s.sys.restartHold = false → ends .verify s.sys.holdCause) ∧
          (s.sec.lc = .owned → s.sys.restartHold = true → ends .hold 3) ∧
          (s.sec.lc = .blank ∨ s.sec.lc = .provisioned → ends .hold 2)))) ∧
    (s.sys.st ≠ .boot ∨ s.sec.selftest ≠ 0x1FF → exec .envConditionEnd s = .next { s with sec := { s.sec with env := false } }) ∧
    (s.sys.st = .boot → s.sec.selftest = 0x1FF → s.clk.shutdown = false → s.otp.scrapped = false → s.sec.lc = .owned → s.sec.debugOpened = false →
      s.sys.restartHold = false → ∃ t, exec .envConditionEnd s = .next t ∧ t.sec.env = false ∧ t.sys.st = .verify ∧ t.sys.pdReleased = true ∧
        t.img.slot = s.img.sel) ∧
    (∀ c, s.sys.pdReleased = false ∨ s.sys.dieLink = false → exec (.ucieLinkTimeout c) s = .next s) ∧
    (∀ c, s.sys.pdReleased = true → s.sys.dieLink = true → ∃ t, exec (.ucieLinkTimeout c) s = .next t ∧ t.sys.dieLink = false ∧ t.OutputsSafe ∧
      atV t.eru.cnt 3 0 = (atV s.eru.cnt 3 0 + 1) % 2 ^ 32 ∧ (c = .lagg → dark t) ∧ (c = .rail → t.pcie.linkUp = false ∧ t.sec.host = none) ∧
      (s.sys.st = .armed ∨ s.sys.st = .running → (s.slotAt 6).valid = false → (s.slotAt 7).valid = false →
        t.eru.fatalActive = true ∧ t.sys.noDispatch = true))

/-- R450, R455, R458, R459, R465 to R470, R474. The model's choices: the order of the first check and the densities of the flash (log 66), which
section a timeout of the second read names (log 112), and that nothing ends TRAIN while a FATAL event is handled (log 118). -/
def Obligations.LoadingTheImage : Prop :=
  ∀ (s : State), s.MemWf → s.img.slot ≤ 1 → s.img.sects.length ≤ 30 →
    let bad := fun (c : Instr) (code sect : Nat) => ∃ t, exec c s = .next t ∧ (if s.img.slot = 0 then t.img.aCode else t.img.bCode) = code ∧
      t.rf rCfgErr 31 24 = code ∧ t.rf rCfgErr 23 16 = sect ∧
      if (if s.img.slot = 0 then s.img.bCode else s.img.aCode) = 0xFF then t.sys.st = .verify ∧ t.img.slot = 1 - s.img.slot
      else t.sys.st = .hold ∧ t.sys.holdCause = 1
    (s.sys.st ≠ .verify → exec .imageVerifyDone s = .next s) ∧
    (s.sys.st = .verify →
      (1 < s.flash.density → bad .imageVerifyDone 0x30 0xFF) ∧
      (s.flash.density ≤ 1 →
        (s.hdr 4088 8 ≠ 0x454E4F444943544B → bad .imageVerifyDone 3 0xFF) ∧
        (s.hdr 4088 8 = 0x454E4F444943544B → s.hdr 0 4 ≠ 0x4943544B → bad .imageVerifyDone 1 0xFF) ∧
        (s.hdr 4088 8 = 0x454E4F444943544B → s.hdr 0 4 = 0x4943544B → s.hdr 4 2 ≠ 1 → bad .imageVerifyDone 2 0xFF) ∧
        (∀ c i, s.headerCheck = .inl (c, i) → c < 256 → i < 256 → bad .imageVerifyDone c i) ∧
        ∀ es, s.headerCheck = .inr es →
          let signed := Config.slhVerify ((s.slotKey (s.hdr 24 1)).getD []) (s.slotBytesAt 0 2048) (s.slotBytesAt 0x1000 29792)
          (signed = false → bad .imageVerifyDone 6 0xFF) ∧
          (signed = true → s.hdr 12 4 < s.sec.imgFloor → bad .imageVerifyDone 7 0xFF) ∧
          (signed = true → s.sec.imgFloor ≤ s.hdr 12 4 → bitN (s.hdr 28 1) s.otp.grade = false → bad .imageVerifyDone 8 0xFF) ∧
          (signed = true → s.sec.imgFloor ≤ s.hdr 12 4 → bitN (s.hdr 28 1) s.otp.grade = true → s.img.slot = s.img.sel ∨ bitN (s.hdr 6 2) 0 = true →
            ∃ t, exec .imageVerifyDone s = .next t ∧ t.sys.st = .load ∧ t.img.sects = es ∧ t.img.done = 0 ∧ t.img.svn = s.hdr 12 4 ∧
              t.img.flags = s.hdr 6 2 ∧ t.reg rCfgImgSvn = w32 (s.hdr 12 4) ∧ t.mtx = s.mtx))) ∧
    (s.sys.st ≠ .load → exec .loadSectionDone s = .next s ∧ exec .loadDone s = .next s) ∧
    (s.sys.st = .load →
      (∀ e, s.img.sects[s.img.done]? = some e →
        let b := s.slotBytesAt e.offset e.length
        let same := fitBytes 32 (Config.shake256 b) = e.digest
        (¬ same → bad .loadSectionDone 9 s.img.done) ∧
        (∀ c r w, same → s.sectRules e b = some (c, r, w) → c < 256 → bad .loadSectionDone c s.img.done) ∧
        (same → s.sectRules e b = none → ∃ t, exec .loadSectionDone s = .next t ∧ t.sys = s.sys ∧ t.img.done = s.img.done + 1 ∧
          t.img.staged = s.img.staged ++ [{ type := e.type, index := e.index, data := b }] ∧ t.regs = s.regs ∧
          (e.type ≠ 7 → t.mtx = s.mtx) ∧
          (e.type = 7 → s.mtx.wiping = false → s.mtx.shadow = none → t.mtx.spm = memPutBytes ramDefault s.mtx.spm (fieldAt b 0 4) (bslice b 32 (fieldAt b 8 4))))) ∧
      (s.img.done < s.img.sects.length → exec .loadDone s = .next s ∧ bad .flashReadTimeout 0x30 s.img.done) ∧
      (s.img.done = s.img.sects.length →
        (∀ c i r w, s.applied.loadChecks = some (c, i, r, w) → c < 256 → i < 256 → bad .loadDone c i) ∧
        (s.applied.loadChecks = none → s.sys.fatalPend = false → ∃ t, exec .loadDone s = .next t ∧ t.sys.st = .train ∧ t.img.valid = true ∧
          t.img.ended = true ∧ t.img.reread = false ∧ t.sys.mrkLive = true ∧ (if s.img.slot = 0 then t.img.aCode else t.img.bCode) = 0))) ∧
    (s.sys.st = .verify → bad .flashReadTimeout 0x30 0xFF) ∧
    (s.sys.st ≠ .verify → s.sys.st ≠ .load → s.sys.st ≠ .train ∨ s.img.reread = true ∨ s.fatalStands = true → exec .flashReadTimeout s = .next s) ∧
    (s.sys.st = .train → s.img.reread = false → s.fatalStands = false → ∃ t n, exec .flashReadTimeout s = .next t ∧ t.rf rCfgErr 31 24 = 0x30 ∧
      t.rf rCfgErr 23 16 = n ∧ (n = 0xFF ∨ ∃ e, s.img.sects[n]? = some e ∧ (e.type = 3 ∨ e.type = 4)) ∧ t.img.valid = false) ∧
    (s.sys.st ≠ .train ∨ s.img.reread = true ∨ s.fatalStands = true → exec .trainRereadDone s = .next s) ∧
    (s.sys.st = .train → s.fatalStands = false → s.img.reread = false → (∀ p : Fin 8, s.gdc[p].st ≠ 1) →
      (∀ i, s.rereadBad = some i → bad .trainRereadDone 0x31 i) ∧
      (s.rereadBad = none → ∃ t, exec .trainRereadDone s = .next t ∧ t.sys = s.sys ∧ t.img.reread = true ∧
        (s.gdc[0].st = 2 → t.gdc[0].syscopy = true) ∧ (s.gdc[1].st = 2 → t.gdc[1].syscopy = true))) ∧
    (s.sys.st ≠ .train ∨ s.trainOver = false ∨ s.fatalStands = true → exec .trainEnd s = .next s) ∧
    (s.sys.st = .train → s.trainOver = true → s.fatalStands = false → ∃ t, exec .trainEnd s = .next t ∧ t.frm.recipe = some s.startRecipe ∧
      t.frm.mode = s.rcpMode s.startRecipe ∧
      if s.rcpAuto s.startRecipe ∧ s.img.fallback = false ∧ s.sys.dieLink = true ∧ s.sys.cenStop = false then t.sys.st = .running ∧ t.sys.outEn = true
      else t.sys.st = .armed ∧ t.sys.outEn = s.sys.outEn)

/-! Security: claims, tokens, sessions, tamper, random bits, and the life cycle -/

/-- R495, R500, R501, R503 to R506, R508, R509, R511, R513 to R515, R518, R529. The model's choices: a transition is done at once and a tamper
within its time finds it made or not (log 114); no identity key between a zeroisation and the next BOOT, and the state in which a scrub leaves the
device (log 18); a tamper in BOOT, VERIFY and LOAD, and in FAULT_STOP once one was answered (log 113). -/
def Obligations.SecurityAndLifeCycle : Prop :=
  ∀ (s : State),
    (∀ who, Reaches s who →
      (s.sec.claim = none → s.sec.entropyFail = false → ∃ t c b, exec (.secClaim who .p) s = .next t ∧ t.sec.claim = some c ∧ c.holder = reqId who ∧
        c.last = s.ts ∧ c.chal = some b ∧ b.length = 32 ∧ t.sec.slots = s.sec.slots) ∧
      (∀ c, s.sec.claim = some c → c.holder ≠ reqId who →
        (∃ t, exec (.secClaim who .p) s = .next t ∧ t.sec.claim = some c) ∧ ∃ t, exec (.secRelease who .p) s = .next t ∧ t.sec.claim = some c) ∧
      (∀ c, s.sec.claim = some c → c.holder = reqId who → ∃ t, exec (.secRelease who .p) s = .next t ∧ t.sec.claim = none) ∧
      (∃ t, exec (.sessionClose who .p) s = .next t ∧ (who = .host → t.sec.host = none) ∧ (∀ x ∈ t.sec.fabs, x.req ≠ reqId who) ∧ t.sec.slots = s.sec.slots) ∧
      (let r := s.tokenCheck (reqId who) .svc
       let claimed := ∃ c, s.sec.claim = some c ∧ c.holder = reqId who
       (s.tokType ≠ 7 → exec (.session who .p) s = .next s) ∧ (s.tokType ≠ 8 → exec (.enrol who .p) s = .next s) ∧
       (s.tokType ≠ 9 → exec (.revoke who .p) s = .next s) ∧
       (s.tokenQueue ≠ [] → claimed → ∀ c ∈ [(7, Instr.session who .p), (8, Instr.enrol who .p), (9, Instr.revoke who .p)], s.tokType = c.1 →
         ∃ t n, exec c.2 s = .next t ∧ t.sec.goWait = some (reqId who, n) ∧ (∀ q ∈ s.tokenQueue, q ≤ n) ∧ t.sec.slots = s.sec.slots ∧
           t.sec.claim.isSome = true ∧ t.sec.host.isSome = s.sec.host.isSome) ∧
       (s.tokType = 7 → s.tokenQueue = [] → r = 0 → claimed → who = .host → ∃ t, exec (.session who .p) s = .next t ∧ t.sec.claim = none ∧ t.sec.result = 0 ∧
         t.sec.host = some { req := 0x200, slot := s.tokSigner, last := s.ts } ∧ t.sec.fabs.length = s.sec.fabs.length) ∧
       (s.tokType = 8 → s.tokenQueue = [] → r = 0 → claimed → s.tokArg < 4 → ∃ t, exec (.enrol who .p) s = .next t ∧ t.sec.claim = none ∧ t.sec.result = 0 ∧
         atV t.sec.slots s.tokArg .empty = .active s.tokPayload ∧ ∀ i : Fin 4, i.val ≠ s.tokArg → t.sec.slots[i] = s.sec.slots[i]) ∧
       (s.tokType = 9 → s.tokenQueue = [] → r = 0 → claimed → s.tokArg < 4 → ∃ t, exec (.revoke who .p) s = .next t ∧ t.sec.claim = none ∧ t.sec.result = 0 ∧
         atV t.sec.slots s.tokArg .empty = .revoked ∧ (∀ x ∈ t.sec.fabs, x.slot ≠ s.tokArg) ∧ (∀ x, t.sec.host = some x → x.slot ≠ s.tokArg) ∧
         ∀ i : Fin 4, i.val ≠ s.tokArg → t.sec.slots[i] = s.sec.slots[i]) ∧
       (r ≠ 0 → s.tokenQueue = [] → claimed → CanReport s evSecTokenFail 0 → ∀ c ∈ [(7, Instr.session who .p), (8, Instr.enrol who .p), (9, Instr.revoke who .p)],
         s.tokType = c.1 → ∃ t, exec c.2 s = .next t ∧ t.sec.result = r ∧ t.sec.slots = s.sec.slots ∧ t.sec.host.isSome = s.sec.host.isSome ∧
           t.sec.claim = none ∧ Reported s t evSecTokenFail 0))) ∧
    (s.sec.claim = none → exec .secClaimTimeout s = .next s) ∧
    (∀ c, s.sec.claim = some c →
      (s.ts < c.last + 800000000 → exec .secClaimTimeout s = .next s) ∧
      (c.last + 800000000 ≤ s.ts → exec .secClaimTimeout s = .next { s with sec := { s.sec with claim := none } })) ∧
    (let lives := fun (x : Session) => decide (s.ts < x.last + s.rf rSecSess 7 0 * 48000000000)
     exec .sessionTimeout s = .next { s with sec := { s.sec with host := s.sec.host.filter lives, fabs := s.sec.fabs.filter lives } }) ∧
    (∀ m : BitVec 4, s.owes 1 = false → ∃ t, exec (.tamperArm .core .p m) s = .next t ∧ t.sec.tmpEn = s.sec.tmpEn ||| m.toNat ∧ t.sec.slots = s.sec.slots) ∧
    (∀ code : Fin 10, 0 < code.val →
      let armed := code.val < 6 ∨ bitN s.sec.tmpEn (code.val - 6) = true
      let stops := fun (x : DState) => x = .train ∨ x = .armed ∨ x = .running ∨ x = .hold
      (¬ armed ∨ s.sys.powered = false → exec (.tamperDetect code) s = .next s) ∧
      (armed → s.sys.powered = true → s.sec.answered = true → s.sys.st = .faultStop → s.transitionCut = false →
        (s.sec.envAt = none ∨ code.val < 4 ∨ ∃ u, s.sec.envAt = some u ∧ u + 80000 ≤ s.ts) → ∃ t, exec (.tamperDetect code) s = .next t ∧ t.sec.tampers = s.sec.tampers + 1 ∧
        t.sec.lastTamper = code.val ∧ t.sec.slots = s.sec.slots ∧ t.sec.host = s.sec.host ∧ t.sys = s.sys) ∧
      (∀ u, armed → s.sys.powered = true → s.sec.undo = some u → s.transitionCut = true → s.sec.answered = false ∨ u.st ≠ .faultStop →
        ∃ t, exec (.tamperDetect code) s = .next t ∧ t.sec.result = 10 ∧ t.sec.tampers = s.sec.tampers + 1 ∧
          t.sec.lc = u.old.lc ∧ t.sec.transitions = u.old.transitions ∧ (stops u.st → t.sys.st = .faultStop) ∧
          (CanReport s evSecTokenFail 0 → ∃ r ∈ t.peat.queue, r.type = 1 ∧ r.body.take 5 = leBytes 2 evSecTokenFail.id ++ leBytes 3 evSecTokenFail.src)) ∧
      (armed → s.sys.powered = true → s.sec.undo = none → s.sec.answered = false ∨ s.sys.st ≠ .faultStop →
        ∃ t, exec (.tamperDetect code) s = .next t ∧ t.sec.tampers = s.sec.tampers + 1 ∧ t.sec.lastTamper = code.val ∧ t.sec.answered = true ∧
        t.sec.host = none ∧ t.sec.fabs = [] ∧ t.sec.claim = none ∧ t.sec.kwrap = none ∧ t.sec.drbg = false ∧ t.OutputsSafe ∧ t.mtx.wiping = true ∧
        (code.val ≤ 3 → t.sec.env = true) ∧ (code.val < 4 → t.sec.slots = s.sec.slots ∧ t.sec.idKey = s.sec.idKey ∧ t.sec.pendMark = s.sec.pendMark) ∧
        (4 ≤ code.val → t.sec.pendMark = true ∧ t.sec.zeroising = true ∧ t.sec.idKey = none ∧ t.sec.imgFloor = 0 ∧ ∀ i : Fin 4, t.sec.slots[i] = .empty) ∧
        (stops s.sys.st → t.sys.st = .faultStop ∧ t.sys.faultN = true) ∧ (¬ stops s.sys.st → t.sys.st = s.sys.st) ∧
        (s.sys.st = .verify ∨ s.sys.st = .load → t.sys.fatalPend = true))) ∧
    (s.sec.pendMark = false → exec .zeroiseScrubDone s = .next s) ∧
    (s.sec.pendMark = true → ∃ t, exec .zeroiseScrubDone s = .next t ∧ t.sec.lc = (if s.otp.scrapped then .scrapped else .returned) ∧
      t.sec.pendMark = false ∧ t.sec.zeroising = false ∧ t.sec.tmpEn = 0 ∧ t.sys = s.sys) ∧
    exec (.noiseSample true) s = .next s ∧
    (s.sec.entropyFail = true → exec (.noiseSample false) s = .next s ∧ ∃ t, exec .randomRead s = .next t ∧ t.rdResp = "SLVERR") ∧
    (s.sec.entropyFail = false →
      (CanReport s evSecEntropyFail 0 → ∃ t, exec (.noiseSample false) s = .next t ∧ t.sec.entropyFail = true ∧ t.sec.approved = false ∧
        Reported s t evSecEntropyFail 0) ∧
      ∃ t, exec .randomRead s = .next t ∧ t.rdResp = "OK" ∧ t.fresh = s.fresh + 1 ∧ t.sec = { s.sec with drbg := true }) ∧
    (∀ (who : Requester) (intent : BitVec 64) (zeros : Vector Byte 48), zeros = Vector.replicate 48 0 →
      (s.tokType ≠ 1 → exec (.provision who intent) s = .next s) ∧ (s.tokType ≠ 2 → exec (.own who intent) s = .next s) ∧
      (s.tokType ≠ 3 → exec (.returnToken who intent) s = .next s) ∧ (s.tokType ≠ 4 → exec (.scrap who intent) s = .next s) ∧
      (s.tokType ≠ 5 → exec (.debug who intent) s = .next s) ∧ (s.tokType ≠ 6 → exec (.reprovision who intent) s = .next s) ∧
      (∀ x ∈ [(1, false, Instr.provision who intent), (2, false, .own who intent), (3, false, .returnToken who intent), (4, false, .scrap who intent),
          (5, true, .debug who intent), (6, false, .reprovision who intent), (s.tokType, true, .openDebug who intent zeros),
          (s.tokType, false, .lifecycleAdvance who intent zeros)],
        let desc := descOf (if x.2.1 then 0x0E else 0x0F) intent.toNat []
        let r := s.tokenCheck (reqId who) (if x.2.1 then .debug else .advance)
        Accepts s who desc → s.tokType = x.1 →
          (r ≠ 0 → ∃ t, exec x.2.2 s = .next t ∧ Journalled s t who desc 2 6 r ∧ t.sec.result = r ∧ t.sec.lc = s.sec.lc ∧ t.sec.slots = s.sec.slots ∧ t.sys = s.sys) ∧
          (r = 0 → ∃ t, exec x.2.2 s = .next t ∧ Journalled s t who desc 1 0 (if x.2.1 then 0 else t.sec.lc.code) ∧ t.sec.result = 0 ∧
            t.sec.lc = (if x.1 = 1 ∨ x.1 = 6 then .provisioned else if x.1 = 2 then .owned else if x.1 = 4 then .scrapped else .returned) ∧
            t.sec.host = none ∧ t.sec.fabs = [] ∧ t.sec.claim = none ∧ t.sec.imgFloor = 0 ∧ t.sec.tmpEn = 0 ∧ t.sec.transitions = s.sec.transitions + 1 ∧
            (∀ i : Fin 4, t.sec.slots[i] = if x.1 = 2 ∧ i.val = 0 then .active s.tokPayload else .empty) ∧
            (x.1 = 3 ∨ x.1 = 4 ∨ x.1 = 5 → t.sec.idKey = none) ∧ (x.1 = 1 ∨ x.1 = 6 → t.sec.idKey ≠ none) ∧ (x.1 = 4 → t.otp.scrapped = true) ∧
            (x.1 = 5 → t.sec.debugOpened = true ∧ t.sec.scope = s.tokArg) ∧ (x.1 = 6 → t.sec.debugOpened = false) ∧ t.OutputsSafe ∧ t.mtx.wiping = true ∧
            (x.1 = 1 ∨ x.1 = 6 → t.sys.st = .hold ∧ t.sys.holdCause = 2) ∧ (x.1 = 2 → t.sys.st = .hold ∧ t.sys.holdCause = 4) ∧
            (x.1 = 3 ∨ x.1 = 4 ∨ x.1 = 5 → t.sys.st = .wiped))))

/-! Registers, the error reporting unit, frozen regions -/

/-- R430, R486, R487, R507, R535, R541, R545, R551 to R555, R592. That a live write changes no S-class field before LOAD has ended either
is the model's reading (DEDUCED, log 41). -/
def Obligations.RegisterWritesReadsAndSlots : Prop :=
  ∀ (s : State),
    (∀ who v off d strb, (who = .host ∧ s.pcie.linkUp = false) ∨ s.owes (masterOf who) = true →
      exec (.registerWrite who v off d strb) s = .next s ∧ exec (.loRegisterRead who v off) s = .next s) ∧
    (∀ v off d, s.owes 1 = false → exec (.registerWrite .core v off d 0) s = .next (s.answer "OK" 0) ∧
      (∀ strb, strb ≠ 0 → strb ≠ 15 →
        (s.rbit rMtxErrInfo 31 = true → ∃ t, exec (.registerWrite .core v off d strb) s = .next (t.answer "SLVERR" 0) ∧ t = s.orReg rMtxEvt 1) ∧
        (s.rbit rMtxErrInfo 31 = false → s.MemWf → ∃ t, exec (.registerWrite .core v off d strb) s = .next t ∧ t.rdResp = "SLVERR" ∧
          t.rbit rMtxErrInfo 31 = true ∧ t.rf rMtxErrInfo 30 28 = 2 ∧ t.rf rMtxErrInfo 26 24 = 1 ∧ t.rf rMtxErrInfo 22 20 = 3 ∧ t.rbit rMtxErrInfo 0 = true ∧
          t.reg rMtxErrAddr = w32 ((if v = .p then 0x40000000 else 0x50000000) + off.toNat / 4 * 4) ∧ t.rbit rMtxEvt 0 = true ∧
          ∀ o, o ≠ rMtxErrInfo → o ≠ rMtxErrAddr → o ≠ rMtxEvt → t.reg o = s.reg o) ∧
        (s.pcie.linkUp = true → s.owes 3 = false → s.MemWf → ∃ t, exec (.registerWrite .host v off d strb) s = .next t ∧ t.rdResp = "CA" ∧ t.rbit rPcieEvt 3 = true ∧
          t.balls = s.balls ∧ t.sys = s.sys))) ∧
    (∀ who (off : BitVec 25) d, (who = .host → s.pcie.linkUp = true) → s.owes (masterOf who) = false → (∀ a, who ≠ .fabric a) →
      regSpec (off.toNat / 4 * 4) ≠ none ∨ csWindow (off.toNat / 4 * 4) = true →
      exec (.registerWrite who .u off d 15) s = .next ({ s with eru := { s.eru with udrop := (s.eru.udrop + 1) % 2 ^ 32 } }.answer "OK" 0)) ∧
    (s.pcie.linkUp = true → s.owes 3 = false →
      (s.sys.st = .boot ∨ s.sys.st = .verify → ∀ v off, ∃ t, exec (.loRegisterRead .host v off) s = .next t ∧ t.rdResp = "UR") ∧
      (s.sys.st = .load ∨ s.sys.st = .train → ∀ v off, earlyBlock (off.toNat / 4 * 4) = false → exec (.loRegisterRead .host v off) s = .next (s.answer "OK" 0)) ∧
      (s.sys.st.code < 4 → ∀ off d, exec (.registerWrite .host .p off d 15) s = .next (s.answer "OK" 0)) ∧
      (s.sys.st = .armed ∨ s.sys.st = .running ∨ s.sys.st = .faultStop → s.sec.host = none → s.MemWf → CanReport s evSecWriteRefused 0 → ∀ (off : BitVec 25) d,
        let o := off.toNat / 4 * 4
        (regSpec o).isSome → openReg o = false →
          ∃ t, exec (.registerWrite .host .p off d 15) s = .next t ∧ t.reg rSecNosess = s.reg rSecNosess + 1 ∧ Reported s t evSecWriteRefused 0 ∧
            (∀ x, x ≠ rSecNosess → x ≠ rSecEvt → t.reg x = s.reg x) ∧ t.balls = s.balls ∧ t.sys = s.sys)) ∧
    (CoreMayAccess s →
      (∀ (off : BitVec 25) d,
        let o := off.toNat / 4 * 4
        (csWindow o = false → regSpec o = none → isLo o = false →
          (∀ v, exec (.registerWrite .core v off d 15) s = .next (s.answer "OK" 0)) ∧
          ∀ v, o ≠ rPsqUevt → (∀ n : Fin 32, o ≠ rIglLMgRx n) → exec (.loRegisterRead .core v off) s = .next (s.answer "OK" 0)) ∧
        (∀ r, csWindow o = false → regSpec o = some r → r.pOnly = false → isLo o = false → o ≠ rPsqUevt → (∀ n : Fin 32, o ≠ rIglLMgRx n) →
          ∀ v, exec (.loRegisterRead .core v off) s = .next (s.answer "OK" (readMask o (s.viewReg .core o))))) ∧
      (∃ t u, exec (.loRegisterRead .core .p (BitVec.ofNat 25 rJnlHeadLo)) s = .next t ∧ t.rdData = w32 s.jnlHead ∧
        exec (.loRegisterRead .core .p (BitVec.ofNat 25 rJnlHeadHi)) { t with jnl := { t.jnl with entries := [] } } = .next u ∧
        u.rdData = w32 (s.jnlHead / 2 ^ 32) ∧ u.hiLatch = [] ∧ u.regs = s.regs) ∧
      (s.MemWf →
        let wrote := fun (o : Nat) (d : Word) (p : State → Prop) => ∃ t, exec (.registerWrite .core .p (BitVec.ofNat 25 o) d 15) s = .next t ∧ t.rdResp = "OK" ∧ p t
        (∀ d : Word, d.toNat < 5 → wrote rClkCtrl d fun t => t.rf rClkCtrl 2 0 = d.toNat ∧ t.eru = s.eru) ∧
        (∀ d : Word, 5 ≤ d.toNat → d.toNat < 8 → CanReport s evCfgReservedEnc 0 → s.frm.step ≥ s.rf rClkCtrl 2 0 →
          wrote rClkCtrl d fun t => t.reg rClkCtrl = s.reg rClkCtrl ∧ t.rbit rCfgEvt 1 = true ∧ Reported s t evCfgReservedEnc 0) ∧
        (∀ d : Word, s.img.ended = false → 10 ≤ d.toNat % 65536 → wrote rEruCtrl d fun t => t.rf rEruCtrl 15 0 = s.rf rEruCtrl 15 0) ∧
        (∀ d : Word, s.img.ended = true → 10 ≤ d.toNat % 65536 → d.toNat % 65536 ≠ s.rf rEruCtrl 15 0 → CanReport s evCfgStaticWrite 0 →
          wrote rEruCtrl d fun t => t.reg rEruCtrl = s.reg rEruCtrl ∧ t.reg rCfgSwAddr = w32 rEruCtrl ∧ t.rbit rCfgEvt 0 = true ∧ Reported s t evCfgStaticWrite 0) ∧
        (∀ d : Word, wrote rResEvt d fun t => ∀ i : Fin 6, t.rbit rResEvt i = (s.rbit rResEvt i && !d.getLsbD i)) ∧
        (∀ (n : Fin 32) (d : Word), let o := rLcuSPhofs01 n
          (s.lcuRole n = 2 → wrote o d fun t => t.regs = s.regs ∧ t.shadow = s.shadow) ∧
          (s.lcuRole n ≠ 2 → s.sys.st ≠ .armed → s.sys.st ≠ .running → (∀ x ∈ s.shadow, x.1 ≠ o) → wrote o d fun t => t.reg o = d ∧ t.shadow = s.shadow) ∧
          (s.lcuRole n ≠ 2 → s.shadowNow o = false → wrote o d fun t => t.regs = s.regs ∧ ∃ x ∈ t.shadow, x.1 = o ∧ x.2.1 = d)))) ∧
    (∀ (i : Fin 8), s.owes 1 = false →
      let slots := fun (t : State) => (t.slotAt i).valid = false ∧ (∀ j : Fin 8, j ≠ i → t.slotAt j = s.slotAt j) ∧
        (t.slotAt i).event = (s.slotAt i).event
      let last := 6 ≤ i.val ∧ s.fatalStands = true ∧ (∀ j : Fin 8, 6 ≤ j.val → j ≠ i → (s.slotAt j).valid = false)
      (¬ last → ∃ t, exec (.eruSlotFree .core .p i) s = .next t ∧ slots t ∧ t.sys = s.sys) ∧
      (last → ∃ t, exec (.eruSlotFree .core .p i) s = .next t ∧ slots t ∧ t.sys.st = .faultStop ∧ t.sys.faultN = true ∧ t.OutputsSafe)) ∧
    ∀ m : BitVec 4, s.owes 1 = false → ∃ t, exec (.freezeRelease .core .p m) s = .next t ∧ t.peat.ring = s.peat.ring ∧ t.peat.queue = s.peat.queue ∧
      ∀ k : Fin 4, t.peat.regions[k] = if m.getLsbD k then none else s.peat.regions[k]

/-! The command journal and the commands -/

/-- R206, R210, R259, R287, R342, R343, R456, R457, R483 to R485, R516, R521 to R529, R535. The model's choices: one row stands for the whole
submission of a command and its execution (log 54); the commands that wait while a FATAL event is handled (log 118); what NVM_WRITE and
RESTART_FROM_NVM take and leave (log 49); an aborted CENSUS_NOW (log 22). -/
def Obligations.CommandsAndJournal : Prop :=
  ∀ (s : State) (who : Requester) (intent : BitVec 64) (args : Vector Byte 48) (env : NvmEnv) (fw : BitVec 7),
    let arg := fun (i k : Nat) => fieldAt args.toList i k
    let desc := fun (code : Nat) => descOf code intent.toNat args.toList
    let rows := [(0x01, Instr.startOutputs who intent args), (0x02, .stopOutputs who intent args), (0x03, .selectRecipe who intent args),
      (0x04, .setMode who intent args), (0x05, .swapCustomerPage who intent args), (0x06, .clearFault who intent args),
      (0x07, .freezeRecord who intent args), (0x08, .restartFromNvm who intent args), (0x09, .nvmWrite who intent args env),
      (0x0A, .attest who intent args), (0x0B, .censusNow who intent args), (0x0C, .setMarkerEnable who intent args),
      (0x0D, .epochSwitch who intent args), (0x0E, .openDebug who intent args), (0x0F, .lifecycleAdvance who intent args),
      (0x80 + fw.toNat, .firmwareCommand who fw intent args)]
    let live := s.sys.st = .armed ∨ s.sys.st = .running
    let ends := fun (code : Nat) (c : Instr) (ostat ocode odata : Nat) (p : State → Prop) =>
      ∃ t, exec c s = .next t ∧ Journalled s t who (desc code) ostat ocode odata ∧ p t
    let same := fun (t : State) => t.sys = s.sys ∧ t.frm = s.frm ∧ t.balls = s.balls
    let waits := fun (code : Nat) (c : Instr) (p : State → Prop) =>
      (16 ≤ s.jnl.wait.length → ends code c 2 8 0 same) ∧
      (s.jnl.wait.length < 16 → ends code c 0 0 0 fun t => t.sys = s.sys ∧ t.balls = s.balls ∧ p t ∧
        ∃ q, t.jnl.wait = s.jnl.wait ++ [q] ∧ q.seq = s.jnlHead + 1 ∧ q.code = code ∧ q.req = who)
    let done := fun (t : State) (seq ostat ocode : Nat) (odata : Nat) => t.jnl.entries.length = s.jnl.entries.length ∧
      ∀ (i : Nat) (e : JEntry), s.jnl.entries[i]? = some e → ∃ f : JEntry, t.jnl.entries[i]? = some f ∧ f.seq = e.seq ∧ f.code = e.code ∧
        if e.seq = seq then f.ostat = ostat ∧ f.ocode = ocode ∧ f.odata = odata else f = e
    (∀ x ∈ rows,
      (s.bufOpen who = false → ∃ t, exec x.2 s = .next t ∧ t.jnl = s.jnl ∧ same t) ∧
      (s.busHeld who = true → exec x.2 s = .next s) ∧
      (s.busHeld who = false → s.bufOpen who = true →
        let g := s.submitGate who (desc x.1)
        let rejects := fun (why : Nat) => ∃ t, exec x.2 s = .next t ∧ (t.cmdBuf who).disp = 3 ∧ (t.cmdBuf who).rej = why ∧ t.jnl.entries = s.jnl.entries ∧
          t.jnl.queue = s.jnl.queue ∧ same t
        (g ≠ 0 → rejects g) ∧
        (g = 0 → ∀ e, s.tagged (desc x.1) = some e →
          (e.code = fieldAt (desc x.1) 0 1 → e.argdig = argDigest (desc x.1) → ∃ t, exec x.2 s = .next t ∧ (t.cmdBuf who).disp = 2 ∧
            (t.cmdBuf who).seq = e.seq ∧ (t.cmdBuf who).ostat = e.ostat ∧ t.jnl.entries = s.jnl.entries ∧ t.jnl.queue = s.jnl.queue ∧ same t) ∧
          (e.code ≠ fieldAt (desc x.1) 0 1 ∨ e.argdig ≠ argDigest (desc x.1) → rejects 4)) ∧
        (g = 0 → s.tagged (desc x.1) = none →
          (10000 ≤ s.recent.length → rejects 5) ∧ (s.recent.length < 10000 → 32 ≤ s.jnl.queue.length → rejects 6) ∧
          (s.recent.length < 10000 → s.jnl.queue ≠ [] → s.jnl.queue.length < 32 → ends x.1 x.2 0 0 0 fun t => same t ∧
            ∃ q, t.jnl.queue = s.jnl.queue ++ [q] ∧ q.seq = s.jnlHead + 1 ∧ q.code = x.1))) ∧
      (Accepts s who (desc x.1) → stateAllows x.1 s.sys.st = false → ends x.1 x.2 2 1 0 same)) ∧
    (Accepts s who (desc 0x01) → s.sys.st = .armed →
      let lock := (s.dom (s.fdom.getD 0)).lock
      let c := Instr.startOutputs who intent args
      (s.sys.cenStop = true → ends 0x01 c 2 7 0 same) ∧
      (s.sys.cenStop = false → lock ≠ .locked → lock ≠ .coast → s.sys.dieLink = true → ends 0x01 c 1 0 0 fun t => t.sys.st = .running ∧ t.sys.outEn = true) ∧
      (s.sys.cenStop = false → lock = .locked ∨ lock = .coast ∨ s.sys.dieLink = false → waits 0x01 c fun t => t.frm = s.frm)) ∧
    (Accepts s who (desc 0x02) → s.sys.st = .running → ends 0x02 (.stopOutputs who intent args) 1 0 0 fun t => t.sys.st = .armed ∧ t.OutputsSafe) ∧
    (Accepts s who (desc 0x03) → live →
      let c := Instr.selectRecipe who intent args
      let ok := s.rcpValid (arg 0 1) = true ∧ arg 1 1 < 16
      let offers := bitN (ssModes (s.setBytes (s.rcpSS (arg 0 1)))) (s.rcpMode (arg 0 1))
      (¬ ok → ends 0x03 c 2 3 0 same) ∧ (ok → offers = false → ends 0x03 c 2 2 0 same) ∧
      (ok → offers = true → waits 0x03 c fun t => t.frm.recipe = s.frm.recipe ∧
        ∃ w ∈ t.frm.switches, w.seq = s.jnlHead + 1 ∧ w.recipe = arg 0 1 ∧ w.dom = arg 1 1 ∧ w.coord = signed 64 (arg 8 8))) ∧
    (Accepts s who (desc 0x04) → live →
      let c := Instr.setMode who intent args
      let ok := arg 0 1 < 5 ∧ arg 1 1 < 16
      (¬ ok → ends 0x04 c 2 3 0 same) ∧ (ok → s.modeRefused (s.frm.recipe.getD 0) (arg 0 1) = true → ends 0x04 c 2 2 0 same) ∧
      (ok → s.modeRefused (s.frm.recipe.getD 0) (arg 0 1) = false → waits 0x04 c fun t => t.frm.mode = s.frm.mode ∧
        ∃ w ∈ t.frm.switches, w.seq = s.jnlHead + 1 ∧ w.mode = arg 0 1 ∧ w.isMode = true)) ∧
    (Accepts s who (desc 0x05) → live →
      let c := Instr.swapCustomerPage who intent args
      (∀ x, s.psq.swap = some x → x.seq ≠ s.jnlHead + 1 → ends 0x05 c 2 4 0 same) ∧
      (s.psq.swap = none → s.psq.swapTwice.contains (s.jnlHead + 1) = false → waits 0x05 c fun t => t.psq = { s.psq with swap := some { seq := s.jnlHead + 1, checked := false } } ∧ t.frm = s.frm)) ∧
    (Accepts s who (desc 0x06) →
      let c := Instr.clearFault who intent args
      (live → ends 0x06 c 1 0 (s.mappedTiles.filter fun t => decide ((s.tileAt t).st = .halted)).length fun t => t.sys = s.sys) ∧
      (s.sys.st = .faultStop → ends 0x06 c 0 0 0 fun t => t.sys.st = .boot ∧ t.sys.resetCause = 3 ∧ t.sys.faultN = false ∧ t.sec.host = none)) ∧
    (Accepts s who (desc 0x07) → ∀ k : Fin 4, s.peat.regions[k] = none → (∀ j : Fin 4, j < k → s.peat.regions[j] ≠ none) →
      ends 0x07 (.freezeRecord who intent args) 1 0 (k.val + 2 ^ 32 * (s.peat.next % 2 ^ 32)) fun t => same t ∧
        ∃ r, t.peat.regions[k] = some r ∧ r.cause = 2 ∧ r.pseq = s.peat.next % 2 ^ 32 ∧ ∀ j : Fin 4, j ≠ k → t.peat.regions[j] = s.peat.regions[j]) ∧
    (Accepts s who (desc 0x08) → live ∨ s.sys.st = .hold ∨ s.sys.st = .faultStop →
      let c := Instr.restartFromNvm who intent args
      (3 ≤ arg 0 1 → ends 0x08 c 2 3 0 same) ∧
      (arg 0 1 < 3 → ends 0x08 c 0 0 0 fun t => t.sys.st = .boot ∧ t.sys.resetCause = 2 ∧ t.sys.restartHold = bitN (arg 1 1) 0 ∧
        t.img.sel = (if arg 0 1 = 2 then s.img.sel else arg 0 1) ∧ t.sys.pdReleased = false ∧ t.flash = s.flash)) ∧
    (Accepts s who (desc 0x09) → s.sys.st = .hold → s.MemWf →
      let c := Instr.nvmWrite who intent args env
      let a := arg 1 1 * 0x08000000 + arg 4 4
      let n := arg 8 4
      let at_ := fun (t : State) (i : Nat) => memGet flashDefault t.flash.mem i
      let good := arg 0 1 ≤ 1 ∧ arg 1 1 ≤ 1 ∧ arg 4 4 + n ≤ 134217728 ∧
        if arg 0 1 = 0 then arg 4 4 % 65536 = 0 ∧ n % 65536 = 0 else arg 4 4 % 256 = 0 ∧ n % 256 = 0 ∧ 256 ≤ n ∧ n ≤ 1048576
      let others := fun (t : State) => ∀ i, i < a ∨ a + n ≤ i → at_ t i = at_ s i
      let blank := ∀ i < n, at_ s (a + i) = 0xFF
      (¬ good → ends 0x09 c 2 3 0 fun t => t.flash = s.flash) ∧
      (good → arg 0 1 = 0 → ends 0x09 c 1 0 n fun t => others t ∧ ∀ i < n, at_ t (a + i) = 0xFF) ∧
      (good → arg 0 1 = 1 →
        (¬ blank → ends 0x09 c 3 0x10 0 fun t => t.flash = s.flash) ∧
        (blank → s.busMaster = false ∨ env.fetch = none → ends 0x09 c 3 0x11 0 fun t => t.flash = s.flash) ∧
        ∀ d, blank → s.busMaster = true → env.fetch = some d → d.length = n →
          (env.cells = none → ends 0x09 c 1 0 n fun t => others t ∧ ∀ i < n, at_ t (a + i) = d.getD i 0) ∧
          ∀ h, env.cells = some h → h.length = n → h ≠ d → ends 0x09 c 3 0x12 n fun t => others t ∧ ∀ i < n, at_ t (a + i) = h.getD i 0)) ∧
    (Accepts s who (desc 0x0A) →
      let c := Instr.attest who intent args
      (arg 32 8 % 64 ≠ 0 → ends 0x0A c 2 3 0 same) ∧
      (arg 32 8 % 64 = 0 → s.sec.entropyFail = true → ends 0x0A c 2 0x0A 0 same) ∧
      (arg 32 8 % 64 = 0 → s.sec.entropyFail = false →
        (s.busMaster = false → ends 0x0A c 3 0x13 0 same) ∧
        (s.busMaster = true → ends 0x0A c 1 0 50112 fun t => same t ∧
          ∃ b, t.sent = .hostWrite (arg 32 8) b :: s.sent ∧ b.length = 50112 ∧ b.take 6 = leBytes 4 0x5454414B ++ leBytes 2 1 ∧ bslice b 64 32 = bslice args.toList 0 32))) ∧
    (Accepts s who (desc 0x0B) → live → s.fab.isRoot = false → ends 0x0B (.censusNow who intent args) 0 0 0 fun t => t.sys = s.sys ∧
      ∃ q, t.jnl.run = some q ∧ q.seq = s.jnlHead + 1 ∧ q.code = 0x0B) ∧
    (Accepts s who (desc 0x0C) → live → s.MemWf → ends 0x0C (.setMarkerEnable who intent args) 1 0 (arg 0 1) fun t => t.sys = s.sys ∧ t.rf rResMkEn 7 0 = arg 0 1) ∧
    (Accepts s who (desc 0x0D) → live →
      (16 ≤ arg 1 1 → ends 0x0D (.epochSwitch who intent args) 2 3 0 same) ∧
      (arg 1 1 < 16 → s.fab.isRoot = false → (∀ r ∈ s.fab.map, r.serial ≠ s.fab.rootSerial) →
        waits 0x0D (.epochSwitch who intent args) fun t => t.cen = s.cen)) ∧
    (Accepts s who (desc (0x80 + fw.toNat)) →
      let c := Instr.firmwareCommand who fw intent args
      (s.core.st = 0 → ends (0x80 + fw.toNat) c 2 9 0 same) ∧
      (s.core.st ≠ 0 → ends (0x80 + fw.toNat) c 0 0 0 fun t => same t ∧ ∃ q, t.jnl.fw = some (q, s.ts) ∧ q.seq = s.jnlHead + 1 ∧ q.code = 0x80 + fw.toNat)) ∧
    (s.jnl.queue = [] ∨ s.cmdFree = false → exec (.commandExecute env) s = .next s) ∧
    (∀ q r, s.jnl.queue = q :: r → s.fatalStands = true → q.code ∈ [0x01, 0x02, 0x08, 0x0E, 0x0F] → exec (.commandExecute env) s = .next s) ∧
    (∀ q r, s.jnl.queue = q :: r → s.cmdFree = true → s.fatalStands = false → s.sec.goWait = none →
      (stateAllows q.code s.sys.st = false → ∃ t, exec (.commandExecute env) s = .next t ∧ t.jnl.queue = r ∧ same t ∧ done t q.seq 2 1 0) ∧
      (q.code = 0x02 → s.sys.st = .running → ∃ t, exec (.commandExecute env) s = .next t ∧ t.jnl.queue = r ∧ t.sys.st = .armed ∧ t.OutputsSafe ∧
        done t q.seq 1 0 0)) ∧
    (∀ (st : Fin 3) (oc : BitVec 8), s.MemWf → s.owes 1 = false →
      (s.jnl.fw = none → ∃ t, exec (.jnlFwDone .core .p oc (BitVec.ofNat 3 (st.val + 1))) s = .next t ∧ t.jnl = s.jnl) ∧
      ∀ q u, s.jnl.fw = some (q, u) → ∃ t, exec (.jnlFwDone .core .p oc (BitVec.ofNat 3 (st.val + 1))) s = .next t ∧ t.jnl.fw = none ∧
        done t q.seq (st.val + 1) oc.toNat (s.reg64 rJnlFwOdataLo)) ∧
    (s.jnl.fw = none → exec .fwCommandTimeout s = .next s) ∧
    (∀ q u, s.jnl.fw = some (q, u) →
      (s.ts < u + 800000000 → exec .fwCommandTimeout s = .next s) ∧
      (u + 800000000 ≤ s.ts → CanReport s evJnlFwTimeout 0 → ∃ t, exec .fwCommandTimeout s = .next t ∧ t.jnl.fw = none ∧ done t q.seq 3 0x15 0 ∧
        Reported s t evJnlFwTimeout 0)) ∧
    exec .jnlBufferRelease s = .next { s with jnl := { s.jnl with fab := s.jnl.fab.filter fun b => decide (s.ts < b.2.last + 800000000) } }

/-! The step -/

/-- The model's own: that a step takes the command at the front of the queue and keeps the rest, and the tick on an empty queue, are DESIGN CHOICES
(logs 7 and 67), no rule of the spec. Every command completes in every state, but for a power-up or a release of RESET_N outside the ratings, which
the model stops on (log 65). -/
def Obligations.StepRunsTheFrontCommand : Prop :=
  ∀ (c : Instr) (s : State),
    step { s with pending := c :: s.pending } = exec c s ∧ (s.pending = [] →
      let n := s.passTs
      ((∀ l : Fin 32, s.lane[l].bcq = []) → n = { s with ts := s.ts + 1 }) ∧ (n.coreAwake = false → step s = .next n) ∧
      (n.coreAwake = true → (n.nmiReady = true → step s = exec .nmiEntry n) ∧
        (n.nmiReady = false → n.irqReady = true → step s = exec .interruptEntry n) ∧
        (n.nmiReady = false → n.irqReady = false → (n.core.st = 2 → step s = exec .wfiWake n) ∧ (n.core.st ≠ 2 → step s = n.coreStep)))) ∧
    ((∀ p, c = .powerOn p → s.sys.powered = true ∨ powerOk p = true) →
      (c = .resetNRelease → s.sys.powered = false ∨ s.sys.resetN = true ∨ s.sys.resetCause ≠ 0 ∨ s.sys.resetFall + 8000000 ≤ s.ts) →
      ∃ t, exec c s = .next t)

/-- R25, R350, R387, R569; and the invariants of the last two statements at reset. -/
def Obligations.ResetState : Prop :=
  let s := State.reset
  (∀ d : BitVec 4, s.dr d = 0 ∧ (d.toNat < 8 → s.ar d = 0)) ∧ s.core.a7u = 0 ∧ s.core.a7p = 0 ∧ s.core.mpl = 0 ∧ s.core.mph = 0 ∧
  (∀ n : Fin 4, s.core.acc[n] = 0) ∧ s.core.rs = [] ∧ s.core.accst = 0 ∧ s.core.vbase = 0 ∧ s.core.icache = false ∧ s.core.btb = [] ∧
  s.core.dir = [] ∧ s.core.status = 1 ∧ s.priv = true ∧
  s.sys.st = .boot ∧ s.sys.outEn = false ∧ s.sys.faultN = false ∧ (∀ i : Fin 16, s.balls.trg[i] = .low) ∧ (∀ i : Fin 8, s.balls.mrk[i] = .hiZ) ∧
  (∀ o, s.reg o = regReset o) ∧ s.sec.host = none ∧ s.sec.fabs = [] ∧ (∀ i : Fin 8, (s.slotAt i).valid = false) ∧ s.jnl.queue = [] ∧
  s.MemWf ∧ s.StoresWf ∧ s.QueueWf ∧ s.pending = []

/-- No command touches the queue: the model's choice (logs 7 and 67), no rule of the spec. -/
def Obligations.QueueIsFirstInFirstOut : Prop :=
  ∀ (s t : State), step s = .next t → t.pending = s.pending.tail ∧ (s.QueueWf → t.QueueWf)

/-- The invariant of the memories and of the other stores: the control store, the peat ring, the tiles' memories, the prediction tables, the
endpoint's. -/
def Obligations.MemoriesStayCanonical : Prop :=
  ∀ (s t : State), step s = .next t → (s.MemWf → t.MemWf) ∧ (s.StoresWf → t.StoresWf)
end

