-- ==== Sys2Proof/Laws/Checksum.lean ====
section
/-! SUPPORT. The CRC-32C of a long list of bytes, in a form in which the checksum so far is a number after every byte. -/
namespace Sys2Proof.Machine

/-- A fold over bytes whose number so far is computed before the next byte is taken. -/
def foldNow (f : Nat → Byte → Nat) (c : Nat) : List Byte → Nat
  | [] => c
  | b :: r => match f c b with
    | 0 => foldNow f 0 r
    | n + 1 => foldNow f (n + 1) r

theorem foldl_eq_foldNow (f : Nat → Byte → Nat) (bs : List Byte) : ∀ c, bs.foldl f c = foldNow f c bs := by
  induction bs with
  | nil => intro c; rfl
  | cons b r ih =>
    intro c
    rw [List.foldl_cons, ih, foldNow]
    cases f c b <;> rfl

theorem crc32c_eq_foldNow (bs : List Byte) : crc32c bs = foldNow crc32cByte 0xFFFFFFFF bs ^^^ 0xFFFFFFFF := by
  rw [crc32c, foldl_eq_foldNow]

end Sys2Proof.Machine
end

