-- ==== Sys2Proof/Laws/Memory.lean ====
section
/-! SUPPORT. Laws of the sparse maps: the canonical form is kept by every write, and what a read finds after one. -/
namespace Sys2Proof.Machine

variable {α : Type} [DecidableEq α] {d : Nat → α}

theorem smWfFrom_mono {m : SMap α} {lo lo' : Nat} (h : smWfFrom d lo m = true) (hl : lo' ≤ lo) : smWfFrom d lo' m = true := by
  cases m with
  | nil => rfl
  | cons e r =>
    obtain ⟨k, v⟩ := e
    simp only [smWfFrom, Bool.and_eq_true, decide_eq_true_eq] at h ⊢
    exact ⟨⟨by omega, h.1.2⟩, h.2⟩

theorem smPut_wfFrom {m : SMap α} {lo k : Nat} (v : α) (h : smWfFrom d lo m = true) (hk : lo ≤ k) :
    smWfFrom d lo (smPut d m k v) = true := by
  induction m generalizing lo with
  | nil =>
    unfold smPut
    split <;> simp_all [smWfFrom]
  | cons e r ih =>
    obtain ⟨k', v'⟩ := e
    simp only [smWfFrom, Bool.and_eq_true, decide_eq_true_eq] at h
    obtain ⟨⟨h1, h2⟩, h3⟩ := h
    unfold smPut
    split
    · split
      · simp [smWfFrom, h1, h2, h3]
      · rename_i hlt hv
        simp [smWfFrom, hk, hv, h2, h3, Nat.succ_le_of_lt hlt]
    · split
      · split
        · exact smWfFrom_mono h3 (by omega)
        · rename_i hne heq hv
          subst heq
          simp [smWfFrom, hk, hv, h3]
      · rename_i hge hne
        simp only [smWfFrom, Bool.and_eq_true, decide_eq_true_eq]
        exact ⟨⟨h1, h2⟩, ih h3 (by omega)⟩

/-- A write keeps the canonical form. -/
theorem smPut_wf {m : SMap α} (k : Nat) (v : α) (h : smWf d m = true) : smWf d (smPut d m k v) = true :=
  smPut_wfFrom v h (Nat.zero_le k)

theorem smFilter_wfFrom {m : SMap α} {lo : Nat} (p : Nat × α → Bool) (h : smWfFrom d lo m = true) : smWfFrom d lo (m.filter p) = true := by
  induction m generalizing lo with
  | nil => rfl
  | cons e r ih =>
    obtain ⟨k, v⟩ := e
    simp only [smWfFrom, Bool.and_eq_true, decide_eq_true_eq] at h
    obtain ⟨⟨h1, h2⟩, h3⟩ := h
    rw [List.filter_cons]
    split
    · simp only [smWfFrom, Bool.and_eq_true, decide_eq_true_eq]
      exact ⟨⟨h1, h2⟩, ih h3⟩
    · exact smWfFrom_mono (ih h3) (by omega)

/-- Leaving entries out keeps the canonical form. -/
theorem smFilter_wf {m : SMap α} (p : Nat × α → Bool) (h : smWf d m = true) : smWf d (m.filter p) = true := smFilter_wfFrom p h

theorem smClearRange_wf {m : SMap α} (lo hi : Nat) (h : smWf d m = true) : smWf d (smClearRange m lo hi) = true :=
  smFilter_wf _ h

theorem memPutBytes_wf {f : Nat → Byte} {m : Memory} (a : Nat) (bs : List Byte) (h : Memory.wf f m = true) :
    Memory.wf f (memPutBytes f m a bs) = true := by
  induction bs generalizing m a with
  | nil => exact h
  | cons b r ih => exact ih (a + 1) (smPut_wf a b h)

/-- A key below the least one listed reads its default. -/
theorem smGet_below {m : SMap α} {lo k : Nat} (h : smWfFrom d lo m = true) (hk : k < lo) : smGet d m k = d k := by
  induction m generalizing lo with
  | nil => rfl
  | cons e r ih =>
    obtain ⟨k', v'⟩ := e
    simp only [smWfFrom, Bool.and_eq_true, decide_eq_true_eq] at h
    unfold smGet
    rw [if_neg (by omega)]
    exact ih h.2 (by omega)

/-- The key written reads the value written. -/
theorem smGet_smPut_same {m : SMap α} {lo : Nat} (k : Nat) (v : α) (h : smWfFrom d lo m = true) : smGet d (smPut d m k v) k = v := by
  induction m generalizing lo with
  | nil =>
    unfold smPut
    split
    · rename_i hv; simp [smGet, hv]
    · simp [smGet]
  | cons e r ih =>
    obtain ⟨k', v'⟩ := e
    simp only [smWfFrom, Bool.and_eq_true, decide_eq_true_eq] at h
    obtain ⟨⟨h1, h2⟩, h3⟩ := h
    unfold smPut
    split
    · split
      · rename_i hlt hv
        have : smGet d r k = d k := smGet_below h3 (by omega)
        simp [smGet, this, hv, Nat.ne_of_lt hlt]
      · simp [smGet]
    · split
      · split
        · rename_i hne heq hv
          subst heq
          rw [smGet_below h3 (by omega), hv]
        · simp [smGet]
      · rename_i hge hne
        simp [smGet, hne, ih h3]

/-- Every other key reads as before. -/
theorem smGet_smPut_ne (m : SMap α) {k k2 : Nat} (v : α) (h : k2 ≠ k) : smGet d (smPut d m k v) k2 = smGet d m k2 := by
  induction m with
  | nil => unfold smPut; split <;> simp [smGet, h]
  | cons e r ih =>
    obtain ⟨k', v'⟩ := e
    unfold smPut
    split
    · split
      · rfl
      · simp [smGet, h]
    · split
      · rename_i heq
        subst heq
        split <;> simp [smGet, h]
      · simp [smGet, ih]

/-- A byte outside the bytes written reads as before. -/
theorem memGet_memPutBytes_out {f : Nat → Byte} (m : Memory) (a : Nat) (bs : List Byte) {x : Nat} (h : x < a ∨ a + bs.length ≤ x) :
    memGet f (memPutBytes f m a bs) x = memGet f m x := by
  induction bs generalizing m a with
  | nil => rfl
  | cons b r ih =>
    simp only [memPutBytes]
    rw [ih _ _ (by simp only [List.length_cons] at h; omega)]
    exact smGet_smPut_ne m b (by simp only [List.length_cons] at h; omega)

/-- A byte inside the bytes written reads the byte written there. -/
theorem memGet_memPutBytes_in {f : Nat → Byte} {m : Memory} (a : Nat) (bs : List Byte) {i : Nat} (hw : Memory.wf f m = true)
    (h : i < bs.length) : memGet f (memPutBytes f m a bs) (a + i) = bs[i] := by
  induction bs generalizing m a i with
  | nil => simp at h
  | cons b r ih =>
    simp only [memPutBytes]
    cases i with
    | zero =>
      rw [memGet_memPutBytes_out _ _ _ (Or.inl (by omega))]
      exact smGet_smPut_same a b hw
    | succ j =>
      have := ih (m := smPut f m a b) (a + 1) (i := j) (smPut_wf a b hw) (by simpa using h)
      simpa [Nat.add_assoc, Nat.add_comm 1 j] using this

/-- The memories after reset have their canonical form. -/
theorem reset_memWf : State.reset.MemWf := by decide

end Sys2Proof.Machine
end

