-- ==== Sys2Proof/Laws/State.lean ====
section
/-! SUPPORT. Reading a field of the state after a plain update of another one, and registers after register writes. -/
namespace Sys2Proof.Machine

@[simp] theorem State.setReg_ts (s : State) (o : Nat) (w : Word) : (s.setReg o w).ts = s.ts := rfl
@[simp] theorem State.setReg_sys (s : State) (o : Nat) (w : Word) : (s.setReg o w).sys = s.sys := rfl
@[simp] theorem State.setReg_otp (s : State) (o : Nat) (w : Word) : (s.setReg o w).otp = s.otp := rfl
@[simp] theorem State.setReg_balls (s : State) (o : Nat) (w : Word) : (s.setReg o w).balls = s.balls := rfl
@[simp] theorem State.setReg_shadow (s : State) (o : Nat) (w : Word) : (s.setReg o w).shadow = s.shadow := rfl
@[simp] theorem State.setReg_hiLatch (s : State) (o : Nat) (w : Word) : (s.setReg o w).hiLatch = s.hiLatch := rfl
@[simp] theorem State.setReg_rdData (s : State) (o : Nat) (w : Word) : (s.setReg o w).rdData = s.rdData := rfl
@[simp] theorem State.setReg_rdResp (s : State) (o : Nat) (w : Word) : (s.setReg o w).rdResp = s.rdResp := rfl
@[simp] theorem State.setReg_peat (s : State) (o : Nat) (w : Word) : (s.setReg o w).peat = s.peat := rfl
@[simp] theorem State.setReg_jnl (s : State) (o : Nat) (w : Word) : (s.setReg o w).jnl = s.jnl := rfl
@[simp] theorem State.setReg_eru (s : State) (o : Nat) (w : Word) : (s.setReg o w).eru = s.eru := rfl
@[simp] theorem State.setReg_sent (s : State) (o : Nat) (w : Word) : (s.setReg o w).sent = s.sent := rfl
@[simp] theorem State.setReg_fresh (s : State) (o : Nat) (w : Word) : (s.setReg o w).fresh = s.fresh := rfl
@[simp] theorem State.setReg_pos (s : State) (o : Nat) (w : Word) : (s.setReg o w).pos = s.pos := rfl
@[simp] theorem State.setReg_lane (s : State) (o : Nat) (w : Word) : (s.setReg o w).lane = s.lane := rfl
@[simp] theorem State.setReg_heads (s : State) (o : Nat) (w : Word) : (s.setReg o w).heads = s.heads := rfl
@[simp] theorem State.setReg_orphans (s : State) (o : Nat) (w : Word) : (s.setReg o w).orphans = s.orphans := rfl
@[simp] theorem State.setReg_slice (s : State) (o : Nat) (w : Word) : (s.setReg o w).slice = s.slice := rfl
@[simp] theorem State.setReg_gddr (s : State) (o : Nat) (w : Word) : (s.setReg o w).gddr = s.gddr := rfl
@[simp] theorem State.setReg_tile (s : State) (o : Nat) (w : Word) : (s.setReg o w).tile = s.tile := rfl
@[simp] theorem State.setReg_frm (s : State) (o : Nat) (w : Word) : (s.setReg o w).frm = s.frm := rfl
@[simp] theorem State.setReg_psq (s : State) (o : Nat) (w : Word) : (s.setReg o w).psq = s.psq := rfl
@[simp] theorem State.setReg_mrk (s : State) (o : Nat) (w : Word) : (s.setReg o w).mrk = s.mrk := rfl
@[simp] theorem State.setReg_res (s : State) (o : Nat) (w : Word) : (s.setReg o w).res = s.res := rfl
@[simp] theorem State.setReg_fport (s : State) (o : Nat) (w : Word) : (s.setReg o w).fport = s.fport := rfl
@[simp] theorem State.setReg_fab (s : State) (o : Nat) (w : Word) : (s.setReg o w).fab = s.fab := rfl
@[simp] theorem State.setReg_cw (s : State) (o : Nat) (w : Word) : (s.setReg o w).cw = s.cw := rfl
@[simp] theorem State.setReg_cen (s : State) (o : Nat) (w : Word) : (s.setReg o w).cen = s.cen := rfl
@[simp] theorem State.setReg_ft (s : State) (o : Nat) (w : Word) : (s.setReg o w).ft = s.ft := rfl
@[simp] theorem State.setReg_core (s : State) (o : Nat) (w : Word) : (s.setReg o w).core = s.core := rfl
@[simp] theorem State.setReg_mtx (s : State) (o : Nat) (w : Word) : (s.setReg o w).mtx = s.mtx := rfl
@[simp] theorem State.setReg_gdc (s : State) (o : Nat) (w : Word) : (s.setReg o w).gdc = s.gdc := rfl
@[simp] theorem State.setReg_sec (s : State) (o : Nat) (w : Word) : (s.setReg o w).sec = s.sec := rfl
@[simp] theorem State.setReg_pcie (s : State) (o : Nat) (w : Word) : (s.setReg o w).pcie = s.pcie := rfl
@[simp] theorem State.setReg_clk (s : State) (o : Nat) (w : Word) : (s.setReg o w).clk = s.clk := rfl
@[simp] theorem State.setReg_flash (s : State) (o : Nat) (w : Word) : (s.setReg o w).flash = s.flash := rfl
@[simp] theorem State.setReg_img (s : State) (o : Nat) (w : Word) : (s.setReg o w).img = s.img := rfl
@[simp] theorem State.setReg_pending (s : State) (o : Nat) (w : Word) : (s.setReg o w).pending = s.pending := rfl

@[simp] theorem State.setRf_ts (s : State) (o hi lo v : Nat) : (s.setRf o hi lo v).ts = s.ts := rfl
@[simp] theorem State.setRf_sys (s : State) (o hi lo v : Nat) : (s.setRf o hi lo v).sys = s.sys := rfl
@[simp] theorem State.setRf_otp (s : State) (o hi lo v : Nat) : (s.setRf o hi lo v).otp = s.otp := rfl
@[simp] theorem State.setRf_balls (s : State) (o hi lo v : Nat) : (s.setRf o hi lo v).balls = s.balls := rfl
@[simp] theorem State.setRf_shadow (s : State) (o hi lo v : Nat) : (s.setRf o hi lo v).shadow = s.shadow := rfl
@[simp] theorem State.setRf_hiLatch (s : State) (o hi lo v : Nat) : (s.setRf o hi lo v).hiLatch = s.hiLatch := rfl
@[simp] theorem State.setRf_rdData (s : State) (o hi lo v : Nat) : (s.setRf o hi lo v).rdData = s.rdData := rfl
@[simp] theorem State.setRf_rdResp (s : State) (o hi lo v : Nat) : (s.setRf o hi lo v).rdResp = s.rdResp := rfl
@[simp] theorem State.setRf_peat (s : State) (o hi lo v : Nat) : (s.setRf o hi lo v).peat = s.peat := rfl
@[simp] theorem State.setRf_jnl (s : State) (o hi lo v : Nat) : (s.setRf o hi lo v).jnl = s.jnl := rfl
@[simp] theorem State.setRf_eru (s : State) (o hi lo v : Nat) : (s.setRf o hi lo v).eru = s.eru := rfl
@[simp] theorem State.setRf_sent (s : State) (o hi lo v : Nat) : (s.setRf o hi lo v).sent = s.sent := rfl
@[simp] theorem State.setRf_fresh (s : State) (o hi lo v : Nat) : (s.setRf o hi lo v).fresh = s.fresh := rfl
@[simp] theorem State.setRf_pos (s : State) (o hi lo v : Nat) : (s.setRf o hi lo v).pos = s.pos := rfl
@[simp] theorem State.setRf_lane (s : State) (o hi lo v : Nat) : (s.setRf o hi lo v).lane = s.lane := rfl
@[simp] theorem State.setRf_heads (s : State) (o hi lo v : Nat) : (s.setRf o hi lo v).heads = s.heads := rfl
@[simp] theorem State.setRf_slice (s : State) (o hi lo v : Nat) : (s.setRf o hi lo v).slice = s.slice := rfl
@[simp] theorem State.setRf_gddr (s : State) (o hi lo v : Nat) : (s.setRf o hi lo v).gddr = s.gddr := rfl
@[simp] theorem State.setRf_tile (s : State) (o hi lo v : Nat) : (s.setRf o hi lo v).tile = s.tile := rfl
@[simp] theorem State.setRf_frm (s : State) (o hi lo v : Nat) : (s.setRf o hi lo v).frm = s.frm := rfl
@[simp] theorem State.setRf_psq (s : State) (o hi lo v : Nat) : (s.setRf o hi lo v).psq = s.psq := rfl
@[simp] theorem State.setRf_mrk (s : State) (o hi lo v : Nat) : (s.setRf o hi lo v).mrk = s.mrk := rfl
@[simp] theorem State.setRf_res (s : State) (o hi lo v : Nat) : (s.setRf o hi lo v).res = s.res := rfl
@[simp] theorem State.setRf_fport (s : State) (o hi lo v : Nat) : (s.setRf o hi lo v).fport = s.fport := rfl
@[simp] theorem State.setRf_fab (s : State) (o hi lo v : Nat) : (s.setRf o hi lo v).fab = s.fab := rfl
@[simp] theorem State.setRf_cw (s : State) (o hi lo v : Nat) : (s.setRf o hi lo v).cw = s.cw := rfl
@[simp] theorem State.setRf_cen (s : State) (o hi lo v : Nat) : (s.setRf o hi lo v).cen = s.cen := rfl
@[simp] theorem State.setRf_ft (s : State) (o hi lo v : Nat) : (s.setRf o hi lo v).ft = s.ft := rfl
@[simp] theorem State.setRf_core (s : State) (o hi lo v : Nat) : (s.setRf o hi lo v).core = s.core := rfl
@[simp] theorem State.setRf_mtx (s : State) (o hi lo v : Nat) : (s.setRf o hi lo v).mtx = s.mtx := rfl
@[simp] theorem State.setRf_gdc (s : State) (o hi lo v : Nat) : (s.setRf o hi lo v).gdc = s.gdc := rfl
@[simp] theorem State.setRf_sec (s : State) (o hi lo v : Nat) : (s.setRf o hi lo v).sec = s.sec := rfl
@[simp] theorem State.setRf_pcie (s : State) (o hi lo v : Nat) : (s.setRf o hi lo v).pcie = s.pcie := rfl
@[simp] theorem State.setRf_clk (s : State) (o hi lo v : Nat) : (s.setRf o hi lo v).clk = s.clk := rfl
@[simp] theorem State.setRf_flash (s : State) (o hi lo v : Nat) : (s.setRf o hi lo v).flash = s.flash := rfl
@[simp] theorem State.setRf_img (s : State) (o hi lo v : Nat) : (s.setRf o hi lo v).img = s.img := rfl
@[simp] theorem State.setRf_pending (s : State) (o hi lo v : Nat) : (s.setRf o hi lo v).pending = s.pending := rfl

@[simp] theorem State.orReg_ts (s : State) (o m : Nat) : (s.orReg o m).ts = s.ts := rfl
@[simp] theorem State.orReg_sys (s : State) (o m : Nat) : (s.orReg o m).sys = s.sys := rfl
@[simp] theorem State.orReg_otp (s : State) (o m : Nat) : (s.orReg o m).otp = s.otp := rfl
@[simp] theorem State.orReg_balls (s : State) (o m : Nat) : (s.orReg o m).balls = s.balls := rfl
@[simp] theorem State.orReg_shadow (s : State) (o m : Nat) : (s.orReg o m).shadow = s.shadow := rfl
@[simp] theorem State.orReg_hiLatch (s : State) (o m : Nat) : (s.orReg o m).hiLatch = s.hiLatch := rfl
@[simp] theorem State.orReg_rdData (s : State) (o m : Nat) : (s.orReg o m).rdData = s.rdData := rfl
@[simp] theorem State.orReg_rdResp (s : State) (o m : Nat) : (s.orReg o m).rdResp = s.rdResp := rfl
@[simp] theorem State.orReg_peat (s : State) (o m : Nat) : (s.orReg o m).peat = s.peat := rfl
@[simp] theorem State.orReg_jnl (s : State) (o m : Nat) : (s.orReg o m).jnl = s.jnl := rfl
@[simp] theorem State.orReg_eru (s : State) (o m : Nat) : (s.orReg o m).eru = s.eru := rfl
@[simp] theorem State.orReg_sent (s : State) (o m : Nat) : (s.orReg o m).sent = s.sent := rfl
@[simp] theorem State.orReg_fresh (s : State) (o m : Nat) : (s.orReg o m).fresh = s.fresh := rfl
@[simp] theorem State.orReg_pos (s : State) (o m : Nat) : (s.orReg o m).pos = s.pos := rfl
@[simp] theorem State.orReg_lane (s : State) (o m : Nat) : (s.orReg o m).lane = s.lane := rfl
@[simp] theorem State.orReg_heads (s : State) (o m : Nat) : (s.orReg o m).heads = s.heads := rfl
@[simp] theorem State.orReg_slice (s : State) (o m : Nat) : (s.orReg o m).slice = s.slice := rfl
@[simp] theorem State.orReg_gddr (s : State) (o m : Nat) : (s.orReg o m).gddr = s.gddr := rfl
@[simp] theorem State.orReg_tile (s : State) (o m : Nat) : (s.orReg o m).tile = s.tile := rfl
@[simp] theorem State.orReg_frm (s : State) (o m : Nat) : (s.orReg o m).frm = s.frm := rfl
@[simp] theorem State.orReg_psq (s : State) (o m : Nat) : (s.orReg o m).psq = s.psq := rfl
@[simp] theorem State.orReg_mrk (s : State) (o m : Nat) : (s.orReg o m).mrk = s.mrk := rfl
@[simp] theorem State.orReg_res (s : State) (o m : Nat) : (s.orReg o m).res = s.res := rfl
@[simp] theorem State.orReg_fport (s : State) (o m : Nat) : (s.orReg o m).fport = s.fport := rfl
@[simp] theorem State.orReg_fab (s : State) (o m : Nat) : (s.orReg o m).fab = s.fab := rfl
@[simp] theorem State.orReg_cw (s : State) (o m : Nat) : (s.orReg o m).cw = s.cw := rfl
@[simp] theorem State.orReg_cen (s : State) (o m : Nat) : (s.orReg o m).cen = s.cen := rfl
@[simp] theorem State.orReg_ft (s : State) (o m : Nat) : (s.orReg o m).ft = s.ft := rfl
@[simp] theorem State.orReg_core (s : State) (o m : Nat) : (s.orReg o m).core = s.core := rfl
@[simp] theorem State.orReg_mtx (s : State) (o m : Nat) : (s.orReg o m).mtx = s.mtx := rfl
@[simp] theorem State.orReg_gdc (s : State) (o m : Nat) : (s.orReg o m).gdc = s.gdc := rfl
@[simp] theorem State.orReg_sec (s : State) (o m : Nat) : (s.orReg o m).sec = s.sec := rfl
@[simp] theorem State.orReg_pcie (s : State) (o m : Nat) : (s.orReg o m).pcie = s.pcie := rfl
@[simp] theorem State.orReg_clk (s : State) (o m : Nat) : (s.orReg o m).clk = s.clk := rfl
@[simp] theorem State.orReg_flash (s : State) (o m : Nat) : (s.orReg o m).flash = s.flash := rfl
@[simp] theorem State.orReg_img (s : State) (o m : Nat) : (s.orReg o m).img = s.img := rfl
@[simp] theorem State.orReg_pending (s : State) (o m : Nat) : (s.orReg o m).pending = s.pending := rfl

@[simp] theorem State.clrReg_ts (s : State) (o m : Nat) : (s.clrReg o m).ts = s.ts := rfl
@[simp] theorem State.clrReg_sys (s : State) (o m : Nat) : (s.clrReg o m).sys = s.sys := rfl
@[simp] theorem State.clrReg_otp (s : State) (o m : Nat) : (s.clrReg o m).otp = s.otp := rfl
@[simp] theorem State.clrReg_balls (s : State) (o m : Nat) : (s.clrReg o m).balls = s.balls := rfl
@[simp] theorem State.clrReg_shadow (s : State) (o m : Nat) : (s.clrReg o m).shadow = s.shadow := rfl
@[simp] theorem State.clrReg_hiLatch (s : State) (o m : Nat) : (s.clrReg o m).hiLatch = s.hiLatch := rfl
@[simp] theorem State.clrReg_rdData (s : State) (o m : Nat) : (s.clrReg o m).rdData = s.rdData := rfl
@[simp] theorem State.clrReg_rdResp (s : State) (o m : Nat) : (s.clrReg o m).rdResp = s.rdResp := rfl
@[simp] theorem State.clrReg_peat (s : State) (o m : Nat) : (s.clrReg o m).peat = s.peat := rfl
@[simp] theorem State.clrReg_jnl (s : State) (o m : Nat) : (s.clrReg o m).jnl = s.jnl := rfl
@[simp] theorem State.clrReg_eru (s : State) (o m : Nat) : (s.clrReg o m).eru = s.eru := rfl
@[simp] theorem State.clrReg_sent (s : State) (o m : Nat) : (s.clrReg o m).sent = s.sent := rfl
@[simp] theorem State.clrReg_fresh (s : State) (o m : Nat) : (s.clrReg o m).fresh = s.fresh := rfl
@[simp] theorem State.clrReg_pos (s : State) (o m : Nat) : (s.clrReg o m).pos = s.pos := rfl
@[simp] theorem State.clrReg_lane (s : State) (o m : Nat) : (s.clrReg o m).lane = s.lane := rfl
@[simp] theorem State.clrReg_heads (s : State) (o m : Nat) : (s.clrReg o m).heads = s.heads := rfl
@[simp] theorem State.clrReg_slice (s : State) (o m : Nat) : (s.clrReg o m).slice = s.slice := rfl
@[simp] theorem State.clrReg_gddr (s : State) (o m : Nat) : (s.clrReg o m).gddr = s.gddr := rfl
@[simp] theorem State.clrReg_tile (s : State) (o m : Nat) : (s.clrReg o m).tile = s.tile := rfl
@[simp] theorem State.clrReg_frm (s : State) (o m : Nat) : (s.clrReg o m).frm = s.frm := rfl
@[simp] theorem State.clrReg_psq (s : State) (o m : Nat) : (s.clrReg o m).psq = s.psq := rfl
@[simp] theorem State.clrReg_mrk (s : State) (o m : Nat) : (s.clrReg o m).mrk = s.mrk := rfl
@[simp] theorem State.clrReg_res (s : State) (o m : Nat) : (s.clrReg o m).res = s.res := rfl
@[simp] theorem State.clrReg_fport (s : State) (o m : Nat) : (s.clrReg o m).fport = s.fport := rfl
@[simp] theorem State.clrReg_fab (s : State) (o m : Nat) : (s.clrReg o m).fab = s.fab := rfl
@[simp] theorem State.clrReg_cw (s : State) (o m : Nat) : (s.clrReg o m).cw = s.cw := rfl
@[simp] theorem State.clrReg_cen (s : State) (o m : Nat) : (s.clrReg o m).cen = s.cen := rfl
@[simp] theorem State.clrReg_ft (s : State) (o m : Nat) : (s.clrReg o m).ft = s.ft := rfl
@[simp] theorem State.clrReg_core (s : State) (o m : Nat) : (s.clrReg o m).core = s.core := rfl
@[simp] theorem State.clrReg_mtx (s : State) (o m : Nat) : (s.clrReg o m).mtx = s.mtx := rfl
@[simp] theorem State.clrReg_gdc (s : State) (o m : Nat) : (s.clrReg o m).gdc = s.gdc := rfl
@[simp] theorem State.clrReg_sec (s : State) (o m : Nat) : (s.clrReg o m).sec = s.sec := rfl
@[simp] theorem State.clrReg_pcie (s : State) (o m : Nat) : (s.clrReg o m).pcie = s.pcie := rfl
@[simp] theorem State.clrReg_clk (s : State) (o m : Nat) : (s.clrReg o m).clk = s.clk := rfl
@[simp] theorem State.clrReg_flash (s : State) (o m : Nat) : (s.clrReg o m).flash = s.flash := rfl
@[simp] theorem State.clrReg_img (s : State) (o m : Nat) : (s.clrReg o m).img = s.img := rfl
@[simp] theorem State.clrReg_pending (s : State) (o m : Nat) : (s.clrReg o m).pending = s.pending := rfl

@[simp] theorem State.addSat_ts (s : State) (o hi lo n : Nat) : (s.addSat o hi lo n).ts = s.ts := rfl
@[simp] theorem State.addSat_sys (s : State) (o hi lo n : Nat) : (s.addSat o hi lo n).sys = s.sys := rfl
@[simp] theorem State.addSat_otp (s : State) (o hi lo n : Nat) : (s.addSat o hi lo n).otp = s.otp := rfl
@[simp] theorem State.addSat_balls (s : State) (o hi lo n : Nat) : (s.addSat o hi lo n).balls = s.balls := rfl
@[simp] theorem State.addSat_shadow (s : State) (o hi lo n : Nat) : (s.addSat o hi lo n).shadow = s.shadow := rfl
@[simp] theorem State.addSat_hiLatch (s : State) (o hi lo n : Nat) : (s.addSat o hi lo n).hiLatch = s.hiLatch := rfl
@[simp] theorem State.addSat_rdData (s : State) (o hi lo n : Nat) : (s.addSat o hi lo n).rdData = s.rdData := rfl
@[simp] theorem State.addSat_rdResp (s : State) (o hi lo n : Nat) : (s.addSat o hi lo n).rdResp = s.rdResp := rfl
@[simp] theorem State.addSat_peat (s : State) (o hi lo n : Nat) : (s.addSat o hi lo n).peat = s.peat := rfl
@[simp] theorem State.addSat_jnl (s : State) (o hi lo n : Nat) : (s.addSat o hi lo n).jnl = s.jnl := rfl
@[simp] theorem State.addSat_eru (s : State) (o hi lo n : Nat) : (s.addSat o hi lo n).eru = s.eru := rfl
@[simp] theorem State.addSat_sent (s : State) (o hi lo n : Nat) : (s.addSat o hi lo n).sent = s.sent := rfl
@[simp] theorem State.addSat_fresh (s : State) (o hi lo n : Nat) : (s.addSat o hi lo n).fresh = s.fresh := rfl
@[simp] theorem State.addSat_pos (s : State) (o hi lo n : Nat) : (s.addSat o hi lo n).pos = s.pos := rfl
@[simp] theorem State.addSat_lane (s : State) (o hi lo n : Nat) : (s.addSat o hi lo n).lane = s.lane := rfl
@[simp] theorem State.addSat_heads (s : State) (o hi lo n : Nat) : (s.addSat o hi lo n).heads = s.heads := rfl
@[simp] theorem State.addSat_slice (s : State) (o hi lo n : Nat) : (s.addSat o hi lo n).slice = s.slice := rfl
@[simp] theorem State.addSat_gddr (s : State) (o hi lo n : Nat) : (s.addSat o hi lo n).gddr = s.gddr := rfl
@[simp] theorem State.addSat_tile (s : State) (o hi lo n : Nat) : (s.addSat o hi lo n).tile = s.tile := rfl
@[simp] theorem State.addSat_frm (s : State) (o hi lo n : Nat) : (s.addSat o hi lo n).frm = s.frm := rfl
@[simp] theorem State.addSat_psq (s : State) (o hi lo n : Nat) : (s.addSat o hi lo n).psq = s.psq := rfl
@[simp] theorem State.addSat_mrk (s : State) (o hi lo n : Nat) : (s.addSat o hi lo n).mrk = s.mrk := rfl
@[simp] theorem State.addSat_res (s : State) (o hi lo n : Nat) : (s.addSat o hi lo n).res = s.res := rfl
@[simp] theorem State.addSat_fport (s : State) (o hi lo n : Nat) : (s.addSat o hi lo n).fport = s.fport := rfl
@[simp] theorem State.addSat_fab (s : State) (o hi lo n : Nat) : (s.addSat o hi lo n).fab = s.fab := rfl
@[simp] theorem State.addSat_cw (s : State) (o hi lo n : Nat) : (s.addSat o hi lo n).cw = s.cw := rfl
@[simp] theorem State.addSat_cen (s : State) (o hi lo n : Nat) : (s.addSat o hi lo n).cen = s.cen := rfl
@[simp] theorem State.addSat_ft (s : State) (o hi lo n : Nat) : (s.addSat o hi lo n).ft = s.ft := rfl
@[simp] theorem State.addSat_core (s : State) (o hi lo n : Nat) : (s.addSat o hi lo n).core = s.core := rfl
@[simp] theorem State.addSat_mtx (s : State) (o hi lo n : Nat) : (s.addSat o hi lo n).mtx = s.mtx := rfl
@[simp] theorem State.addSat_gdc (s : State) (o hi lo n : Nat) : (s.addSat o hi lo n).gdc = s.gdc := rfl
@[simp] theorem State.addSat_sec (s : State) (o hi lo n : Nat) : (s.addSat o hi lo n).sec = s.sec := rfl
@[simp] theorem State.addSat_pcie (s : State) (o hi lo n : Nat) : (s.addSat o hi lo n).pcie = s.pcie := rfl
@[simp] theorem State.addSat_clk (s : State) (o hi lo n : Nat) : (s.addSat o hi lo n).clk = s.clk := rfl
@[simp] theorem State.addSat_flash (s : State) (o hi lo n : Nat) : (s.addSat o hi lo n).flash = s.flash := rfl
@[simp] theorem State.addSat_img (s : State) (o hi lo n : Nat) : (s.addSat o hi lo n).img = s.img := rfl
@[simp] theorem State.addSat_pending (s : State) (o hi lo n : Nat) : (s.addSat o hi lo n).pending = s.pending := rfl

@[simp] theorem State.addWrap_ts (s : State) (o n : Nat) : (s.addWrap o n).ts = s.ts := rfl
@[simp] theorem State.addWrap_sys (s : State) (o n : Nat) : (s.addWrap o n).sys = s.sys := rfl
@[simp] theorem State.addWrap_otp (s : State) (o n : Nat) : (s.addWrap o n).otp = s.otp := rfl
@[simp] theorem State.addWrap_balls (s : State) (o n : Nat) : (s.addWrap o n).balls = s.balls := rfl
@[simp] theorem State.addWrap_shadow (s : State) (o n : Nat) : (s.addWrap o n).shadow = s.shadow := rfl
@[simp] theorem State.addWrap_hiLatch (s : State) (o n : Nat) : (s.addWrap o n).hiLatch = s.hiLatch := rfl
@[simp] theorem State.addWrap_rdData (s : State) (o n : Nat) : (s.addWrap o n).rdData = s.rdData := rfl
@[simp] theorem State.addWrap_rdResp (s : State) (o n : Nat) : (s.addWrap o n).rdResp = s.rdResp := rfl
@[simp] theorem State.addWrap_peat (s : State) (o n : Nat) : (s.addWrap o n).peat = s.peat := rfl
@[simp] theorem State.addWrap_jnl (s : State) (o n : Nat) : (s.addWrap o n).jnl = s.jnl := rfl
@[simp] theorem State.addWrap_eru (s : State) (o n : Nat) : (s.addWrap o n).eru = s.eru := rfl
@[simp] theorem State.addWrap_sent (s : State) (o n : Nat) : (s.addWrap o n).sent = s.sent := rfl
@[simp] theorem State.addWrap_fresh (s : State) (o n : Nat) : (s.addWrap o n).fresh = s.fresh := rfl
@[simp] theorem State.addWrap_pos (s : State) (o n : Nat) : (s.addWrap o n).pos = s.pos := rfl
@[simp] theorem State.addWrap_lane (s : State) (o n : Nat) : (s.addWrap o n).lane = s.lane := rfl
@[simp] theorem State.addWrap_heads (s : State) (o n : Nat) : (s.addWrap o n).heads = s.heads := rfl
@[simp] theorem State.addWrap_slice (s : State) (o n : Nat) : (s.addWrap o n).slice = s.slice := rfl
@[simp] theorem State.addWrap_gddr (s : State) (o n : Nat) : (s.addWrap o n).gddr = s.gddr := rfl
@[simp] theorem State.addWrap_tile (s : State) (o n : Nat) : (s.addWrap o n).tile = s.tile := rfl
@[simp] theorem State.addWrap_frm (s : State) (o n : Nat) : (s.addWrap o n).frm = s.frm := rfl
@[simp] theorem State.addWrap_psq (s : State) (o n : Nat) : (s.addWrap o n).psq = s.psq := rfl
@[simp] theorem State.addWrap_mrk (s : State) (o n : Nat) : (s.addWrap o n).mrk = s.mrk := rfl
@[simp] theorem State.addWrap_res (s : State) (o n : Nat) : (s.addWrap o n).res = s.res := rfl
@[simp] theorem State.addWrap_fport (s : State) (o n : Nat) : (s.addWrap o n).fport = s.fport := rfl
@[simp] theorem State.addWrap_fab (s : State) (o n : Nat) : (s.addWrap o n).fab = s.fab := rfl
@[simp] theorem State.addWrap_cw (s : State) (o n : Nat) : (s.addWrap o n).cw = s.cw := rfl
@[simp] theorem State.addWrap_cen (s : State) (o n : Nat) : (s.addWrap o n).cen = s.cen := rfl
@[simp] theorem State.addWrap_ft (s : State) (o n : Nat) : (s.addWrap o n).ft = s.ft := rfl
@[simp] theorem State.addWrap_core (s : State) (o n : Nat) : (s.addWrap o n).core = s.core := rfl
@[simp] theorem State.addWrap_mtx (s : State) (o n : Nat) : (s.addWrap o n).mtx = s.mtx := rfl
@[simp] theorem State.addWrap_gdc (s : State) (o n : Nat) : (s.addWrap o n).gdc = s.gdc := rfl
@[simp] theorem State.addWrap_sec (s : State) (o n : Nat) : (s.addWrap o n).sec = s.sec := rfl
@[simp] theorem State.addWrap_pcie (s : State) (o n : Nat) : (s.addWrap o n).pcie = s.pcie := rfl
@[simp] theorem State.addWrap_clk (s : State) (o n : Nat) : (s.addWrap o n).clk = s.clk := rfl
@[simp] theorem State.addWrap_flash (s : State) (o n : Nat) : (s.addWrap o n).flash = s.flash := rfl
@[simp] theorem State.addWrap_img (s : State) (o n : Nat) : (s.addWrap o n).img = s.img := rfl
@[simp] theorem State.addWrap_pending (s : State) (o n : Nat) : (s.addWrap o n).pending = s.pending := rfl

@[simp] theorem State.setReg64_ts (s : State) (lo n : Nat) : (s.setReg64 lo n).ts = s.ts := rfl
@[simp] theorem State.setReg64_sys (s : State) (lo n : Nat) : (s.setReg64 lo n).sys = s.sys := rfl
@[simp] theorem State.setReg64_otp (s : State) (lo n : Nat) : (s.setReg64 lo n).otp = s.otp := rfl
@[simp] theorem State.setReg64_balls (s : State) (lo n : Nat) : (s.setReg64 lo n).balls = s.balls := rfl
@[simp] theorem State.setReg64_shadow (s : State) (lo n : Nat) : (s.setReg64 lo n).shadow = s.shadow := rfl
@[simp] theorem State.setReg64_hiLatch (s : State) (lo n : Nat) : (s.setReg64 lo n).hiLatch = s.hiLatch := rfl
@[simp] theorem State.setReg64_rdData (s : State) (lo n : Nat) : (s.setReg64 lo n).rdData = s.rdData := rfl
@[simp] theorem State.setReg64_rdResp (s : State) (lo n : Nat) : (s.setReg64 lo n).rdResp = s.rdResp := rfl
@[simp] theorem State.setReg64_peat (s : State) (lo n : Nat) : (s.setReg64 lo n).peat = s.peat := rfl
@[simp] theorem State.setReg64_jnl (s : State) (lo n : Nat) : (s.setReg64 lo n).jnl = s.jnl := rfl
@[simp] theorem State.setReg64_eru (s : State) (lo n : Nat) : (s.setReg64 lo n).eru = s.eru := rfl
@[simp] theorem State.setReg64_sent (s : State) (lo n : Nat) : (s.setReg64 lo n).sent = s.sent := rfl
@[simp] theorem State.setReg64_fresh (s : State) (lo n : Nat) : (s.setReg64 lo n).fresh = s.fresh := rfl
@[simp] theorem State.setReg64_pos (s : State) (lo n : Nat) : (s.setReg64 lo n).pos = s.pos := rfl
@[simp] theorem State.setReg64_lane (s : State) (lo n : Nat) : (s.setReg64 lo n).lane = s.lane := rfl
@[simp] theorem State.setReg64_heads (s : State) (lo n : Nat) : (s.setReg64 lo n).heads = s.heads := rfl
@[simp] theorem State.setReg64_slice (s : State) (lo n : Nat) : (s.setReg64 lo n).slice = s.slice := rfl
@[simp] theorem State.setReg64_gddr (s : State) (lo n : Nat) : (s.setReg64 lo n).gddr = s.gddr := rfl
@[simp] theorem State.setReg64_tile (s : State) (lo n : Nat) : (s.setReg64 lo n).tile = s.tile := rfl
@[simp] theorem State.setReg64_frm (s : State) (lo n : Nat) : (s.setReg64 lo n).frm = s.frm := rfl
@[simp] theorem State.setReg64_psq (s : State) (lo n : Nat) : (s.setReg64 lo n).psq = s.psq := rfl
@[simp] theorem State.setReg64_mrk (s : State) (lo n : Nat) : (s.setReg64 lo n).mrk = s.mrk := rfl
@[simp] theorem State.setReg64_res (s : State) (lo n : Nat) : (s.setReg64 lo n).res = s.res := rfl
@[simp] theorem State.setReg64_fport (s : State) (lo n : Nat) : (s.setReg64 lo n).fport = s.fport := rfl
@[simp] theorem State.setReg64_fab (s : State) (lo n : Nat) : (s.setReg64 lo n).fab = s.fab := rfl
@[simp] theorem State.setReg64_cw (s : State) (lo n : Nat) : (s.setReg64 lo n).cw = s.cw := rfl
@[simp] theorem State.setReg64_cen (s : State) (lo n : Nat) : (s.setReg64 lo n).cen = s.cen := rfl
@[simp] theorem State.setReg64_ft (s : State) (lo n : Nat) : (s.setReg64 lo n).ft = s.ft := rfl
@[simp] theorem State.setReg64_core (s : State) (lo n : Nat) : (s.setReg64 lo n).core = s.core := rfl
@[simp] theorem State.setReg64_mtx (s : State) (lo n : Nat) : (s.setReg64 lo n).mtx = s.mtx := rfl
@[simp] theorem State.setReg64_gdc (s : State) (lo n : Nat) : (s.setReg64 lo n).gdc = s.gdc := rfl
@[simp] theorem State.setReg64_sec (s : State) (lo n : Nat) : (s.setReg64 lo n).sec = s.sec := rfl
@[simp] theorem State.setReg64_pcie (s : State) (lo n : Nat) : (s.setReg64 lo n).pcie = s.pcie := rfl
@[simp] theorem State.setReg64_clk (s : State) (lo n : Nat) : (s.setReg64 lo n).clk = s.clk := rfl
@[simp] theorem State.setReg64_flash (s : State) (lo n : Nat) : (s.setReg64 lo n).flash = s.flash := rfl
@[simp] theorem State.setReg64_img (s : State) (lo n : Nat) : (s.setReg64 lo n).img = s.img := rfl
@[simp] theorem State.setReg64_pending (s : State) (lo n : Nat) : (s.setReg64 lo n).pending = s.pending := rfl

@[simp] theorem State.send_ts (s : State) (m : Sent) : (s.send m).ts = s.ts := rfl
@[simp] theorem State.send_sys (s : State) (m : Sent) : (s.send m).sys = s.sys := rfl
@[simp] theorem State.send_otp (s : State) (m : Sent) : (s.send m).otp = s.otp := rfl
@[simp] theorem State.send_balls (s : State) (m : Sent) : (s.send m).balls = s.balls := rfl
@[simp] theorem State.send_regs (s : State) (m : Sent) : (s.send m).regs = s.regs := rfl
@[simp] theorem State.send_shadow (s : State) (m : Sent) : (s.send m).shadow = s.shadow := rfl
@[simp] theorem State.send_hiLatch (s : State) (m : Sent) : (s.send m).hiLatch = s.hiLatch := rfl
@[simp] theorem State.send_rdData (s : State) (m : Sent) : (s.send m).rdData = s.rdData := rfl
@[simp] theorem State.send_rdResp (s : State) (m : Sent) : (s.send m).rdResp = s.rdResp := rfl
@[simp] theorem State.send_peat (s : State) (m : Sent) : (s.send m).peat = s.peat := rfl
@[simp] theorem State.send_jnl (s : State) (m : Sent) : (s.send m).jnl = s.jnl := rfl
@[simp] theorem State.send_eru (s : State) (m : Sent) : (s.send m).eru = s.eru := rfl
@[simp] theorem State.send_fresh (s : State) (m : Sent) : (s.send m).fresh = s.fresh := rfl
@[simp] theorem State.send_pos (s : State) (m : Sent) : (s.send m).pos = s.pos := rfl
@[simp] theorem State.send_lane (s : State) (m : Sent) : (s.send m).lane = s.lane := rfl
@[simp] theorem State.send_heads (s : State) (m : Sent) : (s.send m).heads = s.heads := rfl
@[simp] theorem State.send_slice (s : State) (m : Sent) : (s.send m).slice = s.slice := rfl
@[simp] theorem State.send_gddr (s : State) (m : Sent) : (s.send m).gddr = s.gddr := rfl
@[simp] theorem State.send_tile (s : State) (m : Sent) : (s.send m).tile = s.tile := rfl
@[simp] theorem State.send_frm (s : State) (m : Sent) : (s.send m).frm = s.frm := rfl
@[simp] theorem State.send_psq (s : State) (m : Sent) : (s.send m).psq = s.psq := rfl
@[simp] theorem State.send_mrk (s : State) (m : Sent) : (s.send m).mrk = s.mrk := rfl
@[simp] theorem State.send_res (s : State) (m : Sent) : (s.send m).res = s.res := rfl
@[simp] theorem State.send_fport (s : State) (m : Sent) : (s.send m).fport = s.fport := rfl
@[simp] theorem State.send_fab (s : State) (m : Sent) : (s.send m).fab = s.fab := rfl
@[simp] theorem State.send_cw (s : State) (m : Sent) : (s.send m).cw = s.cw := rfl
@[simp] theorem State.send_cen (s : State) (m : Sent) : (s.send m).cen = s.cen := rfl
@[simp] theorem State.send_ft (s : State) (m : Sent) : (s.send m).ft = s.ft := rfl
@[simp] theorem State.send_core (s : State) (m : Sent) : (s.send m).core = s.core := rfl
@[simp] theorem State.send_mtx (s : State) (m : Sent) : (s.send m).mtx = s.mtx := rfl
@[simp] theorem State.send_gdc (s : State) (m : Sent) : (s.send m).gdc = s.gdc := rfl
@[simp] theorem State.send_sec (s : State) (m : Sent) : (s.send m).sec = s.sec := rfl
@[simp] theorem State.send_pcie (s : State) (m : Sent) : (s.send m).pcie = s.pcie := rfl
@[simp] theorem State.send_clk (s : State) (m : Sent) : (s.send m).clk = s.clk := rfl
@[simp] theorem State.send_flash (s : State) (m : Sent) : (s.send m).flash = s.flash := rfl
@[simp] theorem State.send_img (s : State) (m : Sent) : (s.send m).img = s.img := rfl
@[simp] theorem State.send_pending (s : State) (m : Sent) : (s.send m).pending = s.pending := rfl

@[simp] theorem State.tick_ts (s : State) (k : Nat) : (s.tick k).ts = s.ts := rfl
@[simp] theorem State.tick_sys (s : State) (k : Nat) : (s.tick k).sys = s.sys := rfl
@[simp] theorem State.tick_otp (s : State) (k : Nat) : (s.tick k).otp = s.otp := rfl
@[simp] theorem State.tick_balls (s : State) (k : Nat) : (s.tick k).balls = s.balls := rfl
@[simp] theorem State.tick_regs (s : State) (k : Nat) : (s.tick k).regs = s.regs := rfl
@[simp] theorem State.tick_shadow (s : State) (k : Nat) : (s.tick k).shadow = s.shadow := rfl
@[simp] theorem State.tick_hiLatch (s : State) (k : Nat) : (s.tick k).hiLatch = s.hiLatch := rfl
@[simp] theorem State.tick_rdData (s : State) (k : Nat) : (s.tick k).rdData = s.rdData := rfl
@[simp] theorem State.tick_rdResp (s : State) (k : Nat) : (s.tick k).rdResp = s.rdResp := rfl
@[simp] theorem State.tick_peat (s : State) (k : Nat) : (s.tick k).peat = s.peat := rfl
@[simp] theorem State.tick_jnl (s : State) (k : Nat) : (s.tick k).jnl = s.jnl := rfl
@[simp] theorem State.tick_eru (s : State) (k : Nat) : (s.tick k).eru = s.eru := rfl
@[simp] theorem State.tick_sent (s : State) (k : Nat) : (s.tick k).sent = s.sent := rfl
@[simp] theorem State.tick_pos (s : State) (k : Nat) : (s.tick k).pos = s.pos := rfl
@[simp] theorem State.tick_lane (s : State) (k : Nat) : (s.tick k).lane = s.lane := rfl
@[simp] theorem State.tick_heads (s : State) (k : Nat) : (s.tick k).heads = s.heads := rfl
@[simp] theorem State.tick_slice (s : State) (k : Nat) : (s.tick k).slice = s.slice := rfl
@[simp] theorem State.tick_gddr (s : State) (k : Nat) : (s.tick k).gddr = s.gddr := rfl
@[simp] theorem State.tick_tile (s : State) (k : Nat) : (s.tick k).tile = s.tile := rfl
@[simp] theorem State.tick_frm (s : State) (k : Nat) : (s.tick k).frm = s.frm := rfl
@[simp] theorem State.tick_psq (s : State) (k : Nat) : (s.tick k).psq = s.psq := rfl
@[simp] theorem State.tick_mrk (s : State) (k : Nat) : (s.tick k).mrk = s.mrk := rfl
@[simp] theorem State.tick_res (s : State) (k : Nat) : (s.tick k).res = s.res := rfl
@[simp] theorem State.tick_fport (s : State) (k : Nat) : (s.tick k).fport = s.fport := rfl
@[simp] theorem State.tick_fab (s : State) (k : Nat) : (s.tick k).fab = s.fab := rfl
@[simp] theorem State.tick_cw (s : State) (k : Nat) : (s.tick k).cw = s.cw := rfl
@[simp] theorem State.tick_cen (s : State) (k : Nat) : (s.tick k).cen = s.cen := rfl
@[simp] theorem State.tick_ft (s : State) (k : Nat) : (s.tick k).ft = s.ft := rfl
@[simp] theorem State.tick_core (s : State) (k : Nat) : (s.tick k).core = s.core := rfl
@[simp] theorem State.tick_mtx (s : State) (k : Nat) : (s.tick k).mtx = s.mtx := rfl
@[simp] theorem State.tick_gdc (s : State) (k : Nat) : (s.tick k).gdc = s.gdc := rfl
@[simp] theorem State.tick_sec (s : State) (k : Nat) : (s.tick k).sec = s.sec := rfl
@[simp] theorem State.tick_pcie (s : State) (k : Nat) : (s.tick k).pcie = s.pcie := rfl
@[simp] theorem State.tick_clk (s : State) (k : Nat) : (s.tick k).clk = s.clk := rfl
@[simp] theorem State.tick_flash (s : State) (k : Nat) : (s.tick k).flash = s.flash := rfl
@[simp] theorem State.tick_img (s : State) (k : Nat) : (s.tick k).img = s.img := rfl
@[simp] theorem State.tick_pending (s : State) (k : Nat) : (s.tick k).pending = s.pending := rfl

@[simp] theorem State.updDom_ts (s : State) (d : Nat) (f : Domain → Domain) : (s.updDom d f).ts = s.ts := rfl
@[simp] theorem State.updDom_sys (s : State) (d : Nat) (f : Domain → Domain) : (s.updDom d f).sys = s.sys := rfl
@[simp] theorem State.updDom_otp (s : State) (d : Nat) (f : Domain → Domain) : (s.updDom d f).otp = s.otp := rfl
@[simp] theorem State.updDom_balls (s : State) (d : Nat) (f : Domain → Domain) : (s.updDom d f).balls = s.balls := rfl
@[simp] theorem State.updDom_regs (s : State) (d : Nat) (f : Domain → Domain) : (s.updDom d f).regs = s.regs := rfl
@[simp] theorem State.updDom_shadow (s : State) (d : Nat) (f : Domain → Domain) : (s.updDom d f).shadow = s.shadow := rfl
@[simp] theorem State.updDom_hiLatch (s : State) (d : Nat) (f : Domain → Domain) : (s.updDom d f).hiLatch = s.hiLatch := rfl
@[simp] theorem State.updDom_rdData (s : State) (d : Nat) (f : Domain → Domain) : (s.updDom d f).rdData = s.rdData := rfl
@[simp] theorem State.updDom_rdResp (s : State) (d : Nat) (f : Domain → Domain) : (s.updDom d f).rdResp = s.rdResp := rfl
@[simp] theorem State.updDom_peat (s : State) (d : Nat) (f : Domain → Domain) : (s.updDom d f).peat = s.peat := rfl
@[simp] theorem State.updDom_jnl (s : State) (d : Nat) (f : Domain → Domain) : (s.updDom d f).jnl = s.jnl := rfl
@[simp] theorem State.updDom_eru (s : State) (d : Nat) (f : Domain → Domain) : (s.updDom d f).eru = s.eru := rfl
@[simp] theorem State.updDom_sent (s : State) (d : Nat) (f : Domain → Domain) : (s.updDom d f).sent = s.sent := rfl
@[simp] theorem State.updDom_fresh (s : State) (d : Nat) (f : Domain → Domain) : (s.updDom d f).fresh = s.fresh := rfl
@[simp] theorem State.updDom_lane (s : State) (d : Nat) (f : Domain → Domain) : (s.updDom d f).lane = s.lane := rfl
@[simp] theorem State.updDom_heads (s : State) (d : Nat) (f : Domain → Domain) : (s.updDom d f).heads = s.heads := rfl
@[simp] theorem State.updDom_slice (s : State) (d : Nat) (f : Domain → Domain) : (s.updDom d f).slice = s.slice := rfl
@[simp] theorem State.updDom_gddr (s : State) (d : Nat) (f : Domain → Domain) : (s.updDom d f).gddr = s.gddr := rfl
@[simp] theorem State.updDom_tile (s : State) (d : Nat) (f : Domain → Domain) : (s.updDom d f).tile = s.tile := rfl
@[simp] theorem State.updDom_frm (s : State) (d : Nat) (f : Domain → Domain) : (s.updDom d f).frm = s.frm := rfl
@[simp] theorem State.updDom_psq (s : State) (d : Nat) (f : Domain → Domain) : (s.updDom d f).psq = s.psq := rfl
@[simp] theorem State.updDom_mrk (s : State) (d : Nat) (f : Domain → Domain) : (s.updDom d f).mrk = s.mrk := rfl
@[simp] theorem State.updDom_res (s : State) (d : Nat) (f : Domain → Domain) : (s.updDom d f).res = s.res := rfl
@[simp] theorem State.updDom_fport (s : State) (d : Nat) (f : Domain → Domain) : (s.updDom d f).fport = s.fport := rfl
@[simp] theorem State.updDom_fab (s : State) (d : Nat) (f : Domain → Domain) : (s.updDom d f).fab = s.fab := rfl
@[simp] theorem State.updDom_cw (s : State) (d : Nat) (f : Domain → Domain) : (s.updDom d f).cw = s.cw := rfl
@[simp] theorem State.updDom_cen (s : State) (d : Nat) (f : Domain → Domain) : (s.updDom d f).cen = s.cen := rfl
@[simp] theorem State.updDom_ft (s : State) (d : Nat) (f : Domain → Domain) : (s.updDom d f).ft = s.ft := rfl
@[simp] theorem State.updDom_core (s : State) (d : Nat) (f : Domain → Domain) : (s.updDom d f).core = s.core := rfl
@[simp] theorem State.updDom_mtx (s : State) (d : Nat) (f : Domain → Domain) : (s.updDom d f).mtx = s.mtx := rfl
@[simp] theorem State.updDom_gdc (s : State) (d : Nat) (f : Domain → Domain) : (s.updDom d f).gdc = s.gdc := rfl
@[simp] theorem State.updDom_sec (s : State) (d : Nat) (f : Domain → Domain) : (s.updDom d f).sec = s.sec := rfl
@[simp] theorem State.updDom_pcie (s : State) (d : Nat) (f : Domain → Domain) : (s.updDom d f).pcie = s.pcie := rfl
@[simp] theorem State.updDom_clk (s : State) (d : Nat) (f : Domain → Domain) : (s.updDom d f).clk = s.clk := rfl
@[simp] theorem State.updDom_flash (s : State) (d : Nat) (f : Domain → Domain) : (s.updDom d f).flash = s.flash := rfl
@[simp] theorem State.updDom_img (s : State) (d : Nat) (f : Domain → Domain) : (s.updDom d f).img = s.img := rfl
@[simp] theorem State.updDom_pending (s : State) (d : Nat) (f : Domain → Domain) : (s.updDom d f).pending = s.pending := rfl

@[simp] theorem State.updGen_ts (s : State) (g : Nat) (f : Gen → Gen) : (s.updGen g f).ts = s.ts := rfl
@[simp] theorem State.updGen_sys (s : State) (g : Nat) (f : Gen → Gen) : (s.updGen g f).sys = s.sys := rfl
@[simp] theorem State.updGen_otp (s : State) (g : Nat) (f : Gen → Gen) : (s.updGen g f).otp = s.otp := rfl
@[simp] theorem State.updGen_balls (s : State) (g : Nat) (f : Gen → Gen) : (s.updGen g f).balls = s.balls := rfl
@[simp] theorem State.updGen_regs (s : State) (g : Nat) (f : Gen → Gen) : (s.updGen g f).regs = s.regs := rfl
@[simp] theorem State.updGen_shadow (s : State) (g : Nat) (f : Gen → Gen) : (s.updGen g f).shadow = s.shadow := rfl
@[simp] theorem State.updGen_hiLatch (s : State) (g : Nat) (f : Gen → Gen) : (s.updGen g f).hiLatch = s.hiLatch := rfl
@[simp] theorem State.updGen_rdData (s : State) (g : Nat) (f : Gen → Gen) : (s.updGen g f).rdData = s.rdData := rfl
@[simp] theorem State.updGen_rdResp (s : State) (g : Nat) (f : Gen → Gen) : (s.updGen g f).rdResp = s.rdResp := rfl
@[simp] theorem State.updGen_peat (s : State) (g : Nat) (f : Gen → Gen) : (s.updGen g f).peat = s.peat := rfl
@[simp] theorem State.updGen_jnl (s : State) (g : Nat) (f : Gen → Gen) : (s.updGen g f).jnl = s.jnl := rfl
@[simp] theorem State.updGen_eru (s : State) (g : Nat) (f : Gen → Gen) : (s.updGen g f).eru = s.eru := rfl
@[simp] theorem State.updGen_sent (s : State) (g : Nat) (f : Gen → Gen) : (s.updGen g f).sent = s.sent := rfl
@[simp] theorem State.updGen_fresh (s : State) (g : Nat) (f : Gen → Gen) : (s.updGen g f).fresh = s.fresh := rfl
@[simp] theorem State.updGen_lane (s : State) (g : Nat) (f : Gen → Gen) : (s.updGen g f).lane = s.lane := rfl
@[simp] theorem State.updGen_heads (s : State) (g : Nat) (f : Gen → Gen) : (s.updGen g f).heads = s.heads := rfl
@[simp] theorem State.updGen_slice (s : State) (g : Nat) (f : Gen → Gen) : (s.updGen g f).slice = s.slice := rfl
@[simp] theorem State.updGen_gddr (s : State) (g : Nat) (f : Gen → Gen) : (s.updGen g f).gddr = s.gddr := rfl
@[simp] theorem State.updGen_tile (s : State) (g : Nat) (f : Gen → Gen) : (s.updGen g f).tile = s.tile := rfl
@[simp] theorem State.updGen_frm (s : State) (g : Nat) (f : Gen → Gen) : (s.updGen g f).frm = s.frm := rfl
@[simp] theorem State.updGen_psq (s : State) (g : Nat) (f : Gen → Gen) : (s.updGen g f).psq = s.psq := rfl
@[simp] theorem State.updGen_mrk (s : State) (g : Nat) (f : Gen → Gen) : (s.updGen g f).mrk = s.mrk := rfl
@[simp] theorem State.updGen_res (s : State) (g : Nat) (f : Gen → Gen) : (s.updGen g f).res = s.res := rfl
@[simp] theorem State.updGen_fport (s : State) (g : Nat) (f : Gen → Gen) : (s.updGen g f).fport = s.fport := rfl
@[simp] theorem State.updGen_fab (s : State) (g : Nat) (f : Gen → Gen) : (s.updGen g f).fab = s.fab := rfl
@[simp] theorem State.updGen_cw (s : State) (g : Nat) (f : Gen → Gen) : (s.updGen g f).cw = s.cw := rfl
@[simp] theorem State.updGen_cen (s : State) (g : Nat) (f : Gen → Gen) : (s.updGen g f).cen = s.cen := rfl
@[simp] theorem State.updGen_ft (s : State) (g : Nat) (f : Gen → Gen) : (s.updGen g f).ft = s.ft := rfl
@[simp] theorem State.updGen_core (s : State) (g : Nat) (f : Gen → Gen) : (s.updGen g f).core = s.core := rfl
@[simp] theorem State.updGen_mtx (s : State) (g : Nat) (f : Gen → Gen) : (s.updGen g f).mtx = s.mtx := rfl
@[simp] theorem State.updGen_gdc (s : State) (g : Nat) (f : Gen → Gen) : (s.updGen g f).gdc = s.gdc := rfl
@[simp] theorem State.updGen_sec (s : State) (g : Nat) (f : Gen → Gen) : (s.updGen g f).sec = s.sec := rfl
@[simp] theorem State.updGen_pcie (s : State) (g : Nat) (f : Gen → Gen) : (s.updGen g f).pcie = s.pcie := rfl
@[simp] theorem State.updGen_clk (s : State) (g : Nat) (f : Gen → Gen) : (s.updGen g f).clk = s.clk := rfl
@[simp] theorem State.updGen_flash (s : State) (g : Nat) (f : Gen → Gen) : (s.updGen g f).flash = s.flash := rfl
@[simp] theorem State.updGen_img (s : State) (g : Nat) (f : Gen → Gen) : (s.updGen g f).img = s.img := rfl
@[simp] theorem State.updGen_pending (s : State) (g : Nat) (f : Gen → Gen) : (s.updGen g f).pending = s.pending := rfl

@[simp] theorem State.updEnc_ts (s : State) (n : Nat) (f : Encoder → Encoder) : (s.updEnc n f).ts = s.ts := rfl
@[simp] theorem State.updEnc_sys (s : State) (n : Nat) (f : Encoder → Encoder) : (s.updEnc n f).sys = s.sys := rfl
@[simp] theorem State.updEnc_otp (s : State) (n : Nat) (f : Encoder → Encoder) : (s.updEnc n f).otp = s.otp := rfl
@[simp] theorem State.updEnc_balls (s : State) (n : Nat) (f : Encoder → Encoder) : (s.updEnc n f).balls = s.balls := rfl
@[simp] theorem State.updEnc_regs (s : State) (n : Nat) (f : Encoder → Encoder) : (s.updEnc n f).regs = s.regs := rfl
@[simp] theorem State.updEnc_shadow (s : State) (n : Nat) (f : Encoder → Encoder) : (s.updEnc n f).shadow = s.shadow := rfl
@[simp] theorem State.updEnc_hiLatch (s : State) (n : Nat) (f : Encoder → Encoder) : (s.updEnc n f).hiLatch = s.hiLatch := rfl
@[simp] theorem State.updEnc_rdData (s : State) (n : Nat) (f : Encoder → Encoder) : (s.updEnc n f).rdData = s.rdData := rfl
@[simp] theorem State.updEnc_rdResp (s : State) (n : Nat) (f : Encoder → Encoder) : (s.updEnc n f).rdResp = s.rdResp := rfl
@[simp] theorem State.updEnc_peat (s : State) (n : Nat) (f : Encoder → Encoder) : (s.updEnc n f).peat = s.peat := rfl
@[simp] theorem State.updEnc_jnl (s : State) (n : Nat) (f : Encoder → Encoder) : (s.updEnc n f).jnl = s.jnl := rfl
@[simp] theorem State.updEnc_eru (s : State) (n : Nat) (f : Encoder → Encoder) : (s.updEnc n f).eru = s.eru := rfl
@[simp] theorem State.updEnc_sent (s : State) (n : Nat) (f : Encoder → Encoder) : (s.updEnc n f).sent = s.sent := rfl
@[simp] theorem State.updEnc_fresh (s : State) (n : Nat) (f : Encoder → Encoder) : (s.updEnc n f).fresh = s.fresh := rfl
@[simp] theorem State.updEnc_lane (s : State) (n : Nat) (f : Encoder → Encoder) : (s.updEnc n f).lane = s.lane := rfl
@[simp] theorem State.updEnc_heads (s : State) (n : Nat) (f : Encoder → Encoder) : (s.updEnc n f).heads = s.heads := rfl
@[simp] theorem State.updEnc_slice (s : State) (n : Nat) (f : Encoder → Encoder) : (s.updEnc n f).slice = s.slice := rfl
@[simp] theorem State.updEnc_gddr (s : State) (n : Nat) (f : Encoder → Encoder) : (s.updEnc n f).gddr = s.gddr := rfl
@[simp] theorem State.updEnc_tile (s : State) (n : Nat) (f : Encoder → Encoder) : (s.updEnc n f).tile = s.tile := rfl
@[simp] theorem State.updEnc_frm (s : State) (n : Nat) (f : Encoder → Encoder) : (s.updEnc n f).frm = s.frm := rfl
@[simp] theorem State.updEnc_psq (s : State) (n : Nat) (f : Encoder → Encoder) : (s.updEnc n f).psq = s.psq := rfl
@[simp] theorem State.updEnc_mrk (s : State) (n : Nat) (f : Encoder → Encoder) : (s.updEnc n f).mrk = s.mrk := rfl
@[simp] theorem State.updEnc_res (s : State) (n : Nat) (f : Encoder → Encoder) : (s.updEnc n f).res = s.res := rfl
@[simp] theorem State.updEnc_fport (s : State) (n : Nat) (f : Encoder → Encoder) : (s.updEnc n f).fport = s.fport := rfl
@[simp] theorem State.updEnc_fab (s : State) (n : Nat) (f : Encoder → Encoder) : (s.updEnc n f).fab = s.fab := rfl
@[simp] theorem State.updEnc_cw (s : State) (n : Nat) (f : Encoder → Encoder) : (s.updEnc n f).cw = s.cw := rfl
@[simp] theorem State.updEnc_cen (s : State) (n : Nat) (f : Encoder → Encoder) : (s.updEnc n f).cen = s.cen := rfl
@[simp] theorem State.updEnc_ft (s : State) (n : Nat) (f : Encoder → Encoder) : (s.updEnc n f).ft = s.ft := rfl
@[simp] theorem State.updEnc_core (s : State) (n : Nat) (f : Encoder → Encoder) : (s.updEnc n f).core = s.core := rfl
@[simp] theorem State.updEnc_mtx (s : State) (n : Nat) (f : Encoder → Encoder) : (s.updEnc n f).mtx = s.mtx := rfl
@[simp] theorem State.updEnc_gdc (s : State) (n : Nat) (f : Encoder → Encoder) : (s.updEnc n f).gdc = s.gdc := rfl
@[simp] theorem State.updEnc_sec (s : State) (n : Nat) (f : Encoder → Encoder) : (s.updEnc n f).sec = s.sec := rfl
@[simp] theorem State.updEnc_pcie (s : State) (n : Nat) (f : Encoder → Encoder) : (s.updEnc n f).pcie = s.pcie := rfl
@[simp] theorem State.updEnc_clk (s : State) (n : Nat) (f : Encoder → Encoder) : (s.updEnc n f).clk = s.clk := rfl
@[simp] theorem State.updEnc_flash (s : State) (n : Nat) (f : Encoder → Encoder) : (s.updEnc n f).flash = s.flash := rfl
@[simp] theorem State.updEnc_img (s : State) (n : Nat) (f : Encoder → Encoder) : (s.updEnc n f).img = s.img := rfl
@[simp] theorem State.updEnc_pending (s : State) (n : Nat) (f : Encoder → Encoder) : (s.updEnc n f).pending = s.pending := rfl

@[simp] theorem State.updMkr_ts (s : State) (n : Nat) (f : MarkOut → MarkOut) : (s.updMkr n f).ts = s.ts := rfl
@[simp] theorem State.updMkr_sys (s : State) (n : Nat) (f : MarkOut → MarkOut) : (s.updMkr n f).sys = s.sys := rfl
@[simp] theorem State.updMkr_otp (s : State) (n : Nat) (f : MarkOut → MarkOut) : (s.updMkr n f).otp = s.otp := rfl
@[simp] theorem State.updMkr_balls (s : State) (n : Nat) (f : MarkOut → MarkOut) : (s.updMkr n f).balls = s.balls := rfl
@[simp] theorem State.updMkr_regs (s : State) (n : Nat) (f : MarkOut → MarkOut) : (s.updMkr n f).regs = s.regs := rfl
@[simp] theorem State.updMkr_shadow (s : State) (n : Nat) (f : MarkOut → MarkOut) : (s.updMkr n f).shadow = s.shadow := rfl
@[simp] theorem State.updMkr_hiLatch (s : State) (n : Nat) (f : MarkOut → MarkOut) : (s.updMkr n f).hiLatch = s.hiLatch := rfl
@[simp] theorem State.updMkr_rdData (s : State) (n : Nat) (f : MarkOut → MarkOut) : (s.updMkr n f).rdData = s.rdData := rfl
@[simp] theorem State.updMkr_rdResp (s : State) (n : Nat) (f : MarkOut → MarkOut) : (s.updMkr n f).rdResp = s.rdResp := rfl
@[simp] theorem State.updMkr_peat (s : State) (n : Nat) (f : MarkOut → MarkOut) : (s.updMkr n f).peat = s.peat := rfl
@[simp] theorem State.updMkr_jnl (s : State) (n : Nat) (f : MarkOut → MarkOut) : (s.updMkr n f).jnl = s.jnl := rfl
@[simp] theorem State.updMkr_eru (s : State) (n : Nat) (f : MarkOut → MarkOut) : (s.updMkr n f).eru = s.eru := rfl
@[simp] theorem State.updMkr_sent (s : State) (n : Nat) (f : MarkOut → MarkOut) : (s.updMkr n f).sent = s.sent := rfl
@[simp] theorem State.updMkr_fresh (s : State) (n : Nat) (f : MarkOut → MarkOut) : (s.updMkr n f).fresh = s.fresh := rfl
@[simp] theorem State.updMkr_pos (s : State) (n : Nat) (f : MarkOut → MarkOut) : (s.updMkr n f).pos = s.pos := rfl
@[simp] theorem State.updMkr_lane (s : State) (n : Nat) (f : MarkOut → MarkOut) : (s.updMkr n f).lane = s.lane := rfl
@[simp] theorem State.updMkr_heads (s : State) (n : Nat) (f : MarkOut → MarkOut) : (s.updMkr n f).heads = s.heads := rfl
@[simp] theorem State.updMkr_slice (s : State) (n : Nat) (f : MarkOut → MarkOut) : (s.updMkr n f).slice = s.slice := rfl
@[simp] theorem State.updMkr_gddr (s : State) (n : Nat) (f : MarkOut → MarkOut) : (s.updMkr n f).gddr = s.gddr := rfl
@[simp] theorem State.updMkr_tile (s : State) (n : Nat) (f : MarkOut → MarkOut) : (s.updMkr n f).tile = s.tile := rfl
@[simp] theorem State.updMkr_frm (s : State) (n : Nat) (f : MarkOut → MarkOut) : (s.updMkr n f).frm = s.frm := rfl
@[simp] theorem State.updMkr_psq (s : State) (n : Nat) (f : MarkOut → MarkOut) : (s.updMkr n f).psq = s.psq := rfl
@[simp] theorem State.updMkr_res (s : State) (n : Nat) (f : MarkOut → MarkOut) : (s.updMkr n f).res = s.res := rfl
@[simp] theorem State.updMkr_fport (s : State) (n : Nat) (f : MarkOut → MarkOut) : (s.updMkr n f).fport = s.fport := rfl
@[simp] theorem State.updMkr_fab (s : State) (n : Nat) (f : MarkOut → MarkOut) : (s.updMkr n f).fab = s.fab := rfl
@[simp] theorem State.updMkr_cw (s : State) (n : Nat) (f : MarkOut → MarkOut) : (s.updMkr n f).cw = s.cw := rfl
@[simp] theorem State.updMkr_cen (s : State) (n : Nat) (f : MarkOut → MarkOut) : (s.updMkr n f).cen = s.cen := rfl
@[simp] theorem State.updMkr_ft (s : State) (n : Nat) (f : MarkOut → MarkOut) : (s.updMkr n f).ft = s.ft := rfl
@[simp] theorem State.updMkr_core (s : State) (n : Nat) (f : MarkOut → MarkOut) : (s.updMkr n f).core = s.core := rfl
@[simp] theorem State.updMkr_mtx (s : State) (n : Nat) (f : MarkOut → MarkOut) : (s.updMkr n f).mtx = s.mtx := rfl
@[simp] theorem State.updMkr_gdc (s : State) (n : Nat) (f : MarkOut → MarkOut) : (s.updMkr n f).gdc = s.gdc := rfl
@[simp] theorem State.updMkr_sec (s : State) (n : Nat) (f : MarkOut → MarkOut) : (s.updMkr n f).sec = s.sec := rfl
@[simp] theorem State.updMkr_pcie (s : State) (n : Nat) (f : MarkOut → MarkOut) : (s.updMkr n f).pcie = s.pcie := rfl
@[simp] theorem State.updMkr_clk (s : State) (n : Nat) (f : MarkOut → MarkOut) : (s.updMkr n f).clk = s.clk := rfl
@[simp] theorem State.updMkr_flash (s : State) (n : Nat) (f : MarkOut → MarkOut) : (s.updMkr n f).flash = s.flash := rfl
@[simp] theorem State.updMkr_img (s : State) (n : Nat) (f : MarkOut → MarkOut) : (s.updMkr n f).img = s.img := rfl
@[simp] theorem State.updMkr_pending (s : State) (n : Nat) (f : MarkOut → MarkOut) : (s.updMkr n f).pending = s.pending := rfl

@[simp] theorem State.answer_ts (s : State) (c : String) (w : Word) : (s.answer c w).ts = s.ts := rfl
@[simp] theorem State.answer_sys (s : State) (c : String) (w : Word) : (s.answer c w).sys = s.sys := rfl
@[simp] theorem State.answer_otp (s : State) (c : String) (w : Word) : (s.answer c w).otp = s.otp := rfl
@[simp] theorem State.answer_balls (s : State) (c : String) (w : Word) : (s.answer c w).balls = s.balls := rfl
@[simp] theorem State.answer_regs (s : State) (c : String) (w : Word) : (s.answer c w).regs = s.regs := rfl
@[simp] theorem State.answer_shadow (s : State) (c : String) (w : Word) : (s.answer c w).shadow = s.shadow := rfl
@[simp] theorem State.answer_hiLatch (s : State) (c : String) (w : Word) : (s.answer c w).hiLatch = s.hiLatch := rfl
@[simp] theorem State.answer_peat (s : State) (c : String) (w : Word) : (s.answer c w).peat = s.peat := rfl
@[simp] theorem State.answer_jnl (s : State) (c : String) (w : Word) : (s.answer c w).jnl = s.jnl := rfl
@[simp] theorem State.answer_eru (s : State) (c : String) (w : Word) : (s.answer c w).eru = s.eru := rfl
@[simp] theorem State.answer_sent (s : State) (c : String) (w : Word) : (s.answer c w).sent = s.sent := rfl
@[simp] theorem State.answer_fresh (s : State) (c : String) (w : Word) : (s.answer c w).fresh = s.fresh := rfl
@[simp] theorem State.answer_pos (s : State) (c : String) (w : Word) : (s.answer c w).pos = s.pos := rfl
@[simp] theorem State.answer_lane (s : State) (c : String) (w : Word) : (s.answer c w).lane = s.lane := rfl
@[simp] theorem State.answer_heads (s : State) (c : String) (w : Word) : (s.answer c w).heads = s.heads := rfl
@[simp] theorem State.answer_slice (s : State) (c : String) (w : Word) : (s.answer c w).slice = s.slice := rfl
@[simp] theorem State.answer_gddr (s : State) (c : String) (w : Word) : (s.answer c w).gddr = s.gddr := rfl
@[simp] theorem State.answer_tile (s : State) (c : String) (w : Word) : (s.answer c w).tile = s.tile := rfl
@[simp] theorem State.answer_frm (s : State) (c : String) (w : Word) : (s.answer c w).frm = s.frm := rfl
@[simp] theorem State.answer_psq (s : State) (c : String) (w : Word) : (s.answer c w).psq = s.psq := rfl
@[simp] theorem State.answer_mrk (s : State) (c : String) (w : Word) : (s.answer c w).mrk = s.mrk := rfl
@[simp] theorem State.answer_res (s : State) (c : String) (w : Word) : (s.answer c w).res = s.res := rfl
@[simp] theorem State.answer_fport (s : State) (c : String) (w : Word) : (s.answer c w).fport = s.fport := rfl
@[simp] theorem State.answer_fab (s : State) (c : String) (w : Word) : (s.answer c w).fab = s.fab := rfl
@[simp] theorem State.answer_cw (s : State) (c : String) (w : Word) : (s.answer c w).cw = s.cw := rfl
@[simp] theorem State.answer_cen (s : State) (c : String) (w : Word) : (s.answer c w).cen = s.cen := rfl
@[simp] theorem State.answer_ft (s : State) (c : String) (w : Word) : (s.answer c w).ft = s.ft := rfl
@[simp] theorem State.answer_core (s : State) (c : String) (w : Word) : (s.answer c w).core = s.core := rfl
@[simp] theorem State.answer_mtx (s : State) (c : String) (w : Word) : (s.answer c w).mtx = s.mtx := rfl
@[simp] theorem State.answer_gdc (s : State) (c : String) (w : Word) : (s.answer c w).gdc = s.gdc := rfl
@[simp] theorem State.answer_sec (s : State) (c : String) (w : Word) : (s.answer c w).sec = s.sec := rfl
@[simp] theorem State.answer_pcie (s : State) (c : String) (w : Word) : (s.answer c w).pcie = s.pcie := rfl
@[simp] theorem State.answer_clk (s : State) (c : String) (w : Word) : (s.answer c w).clk = s.clk := rfl
@[simp] theorem State.answer_flash (s : State) (c : String) (w : Word) : (s.answer c w).flash = s.flash := rfl
@[simp] theorem State.answer_img (s : State) (c : String) (w : Word) : (s.answer c w).img = s.img := rfl
@[simp] theorem State.answer_pending (s : State) (c : String) (w : Word) : (s.answer c w).pending = s.pending := rfl

@[simp] theorem State.setDr_ts (s : State) (i : BitVec 4) (w : Word) : (s.setDr i w).ts = s.ts := rfl
@[simp] theorem State.setDr_sys (s : State) (i : BitVec 4) (w : Word) : (s.setDr i w).sys = s.sys := rfl
@[simp] theorem State.setDr_otp (s : State) (i : BitVec 4) (w : Word) : (s.setDr i w).otp = s.otp := rfl
@[simp] theorem State.setDr_balls (s : State) (i : BitVec 4) (w : Word) : (s.setDr i w).balls = s.balls := rfl
@[simp] theorem State.setDr_regs (s : State) (i : BitVec 4) (w : Word) : (s.setDr i w).regs = s.regs := rfl
@[simp] theorem State.setDr_shadow (s : State) (i : BitVec 4) (w : Word) : (s.setDr i w).shadow = s.shadow := rfl
@[simp] theorem State.setDr_hiLatch (s : State) (i : BitVec 4) (w : Word) : (s.setDr i w).hiLatch = s.hiLatch := rfl
@[simp] theorem State.setDr_rdData (s : State) (i : BitVec 4) (w : Word) : (s.setDr i w).rdData = s.rdData := rfl
@[simp] theorem State.setDr_rdResp (s : State) (i : BitVec 4) (w : Word) : (s.setDr i w).rdResp = s.rdResp := rfl
@[simp] theorem State.setDr_peat (s : State) (i : BitVec 4) (w : Word) : (s.setDr i w).peat = s.peat := rfl
@[simp] theorem State.setDr_jnl (s : State) (i : BitVec 4) (w : Word) : (s.setDr i w).jnl = s.jnl := rfl
@[simp] theorem State.setDr_eru (s : State) (i : BitVec 4) (w : Word) : (s.setDr i w).eru = s.eru := rfl
@[simp] theorem State.setDr_sent (s : State) (i : BitVec 4) (w : Word) : (s.setDr i w).sent = s.sent := rfl
@[simp] theorem State.setDr_fresh (s : State) (i : BitVec 4) (w : Word) : (s.setDr i w).fresh = s.fresh := rfl
@[simp] theorem State.setDr_pos (s : State) (i : BitVec 4) (w : Word) : (s.setDr i w).pos = s.pos := rfl
@[simp] theorem State.setDr_lane (s : State) (i : BitVec 4) (w : Word) : (s.setDr i w).lane = s.lane := rfl
@[simp] theorem State.setDr_heads (s : State) (i : BitVec 4) (w : Word) : (s.setDr i w).heads = s.heads := rfl
@[simp] theorem State.setDr_slice (s : State) (i : BitVec 4) (w : Word) : (s.setDr i w).slice = s.slice := rfl
@[simp] theorem State.setDr_gddr (s : State) (i : BitVec 4) (w : Word) : (s.setDr i w).gddr = s.gddr := rfl
@[simp] theorem State.setDr_tile (s : State) (i : BitVec 4) (w : Word) : (s.setDr i w).tile = s.tile := rfl
@[simp] theorem State.setDr_frm (s : State) (i : BitVec 4) (w : Word) : (s.setDr i w).frm = s.frm := rfl
@[simp] theorem State.setDr_psq (s : State) (i : BitVec 4) (w : Word) : (s.setDr i w).psq = s.psq := rfl
@[simp] theorem State.setDr_mrk (s : State) (i : BitVec 4) (w : Word) : (s.setDr i w).mrk = s.mrk := rfl
@[simp] theorem State.setDr_res (s : State) (i : BitVec 4) (w : Word) : (s.setDr i w).res = s.res := rfl
@[simp] theorem State.setDr_fport (s : State) (i : BitVec 4) (w : Word) : (s.setDr i w).fport = s.fport := rfl
@[simp] theorem State.setDr_fab (s : State) (i : BitVec 4) (w : Word) : (s.setDr i w).fab = s.fab := rfl
@[simp] theorem State.setDr_cw (s : State) (i : BitVec 4) (w : Word) : (s.setDr i w).cw = s.cw := rfl
@[simp] theorem State.setDr_cen (s : State) (i : BitVec 4) (w : Word) : (s.setDr i w).cen = s.cen := rfl
@[simp] theorem State.setDr_ft (s : State) (i : BitVec 4) (w : Word) : (s.setDr i w).ft = s.ft := rfl
@[simp] theorem State.setDr_mtx (s : State) (i : BitVec 4) (w : Word) : (s.setDr i w).mtx = s.mtx := rfl
@[simp] theorem State.setDr_gdc (s : State) (i : BitVec 4) (w : Word) : (s.setDr i w).gdc = s.gdc := rfl
@[simp] theorem State.setDr_sec (s : State) (i : BitVec 4) (w : Word) : (s.setDr i w).sec = s.sec := rfl
@[simp] theorem State.setDr_pcie (s : State) (i : BitVec 4) (w : Word) : (s.setDr i w).pcie = s.pcie := rfl
@[simp] theorem State.setDr_clk (s : State) (i : BitVec 4) (w : Word) : (s.setDr i w).clk = s.clk := rfl
@[simp] theorem State.setDr_flash (s : State) (i : BitVec 4) (w : Word) : (s.setDr i w).flash = s.flash := rfl
@[simp] theorem State.setDr_img (s : State) (i : BitVec 4) (w : Word) : (s.setDr i w).img = s.img := rfl
@[simp] theorem State.setDr_pending (s : State) (i : BitVec 4) (w : Word) : (s.setDr i w).pending = s.pending := rfl

/-- The register written reads the value written. -/
theorem reg_setReg_same {s : State} (h : smWf regReset s.regs = true) (o : Nat) (w : Word) : (s.setReg o w).reg o = w :=
  smGet_smPut_same o w h

/-- Every other register reads as before. -/
theorem reg_setReg_ne (s : State) {o p : Nat} (w : Word) (h : p ≠ o) : (s.setReg o w).reg p = s.reg p := smGet_smPut_ne s.regs w h

/-- A register write keeps the canonical form of the register file. -/
theorem regs_setReg_wf {s : State} (h : smWf regReset s.regs = true) (o : Nat) (w : Word) : smWf regReset (s.setReg o w).regs = true :=
  smPut_wf o w h

/-- The sticky bits set in an event register. -/
theorem reg_orReg_same {s : State} (h : smWf regReset s.regs = true) (o m : Nat) : (s.orReg o m).reg o = s.reg o ||| w32 m :=
  reg_setReg_same h o _

theorem reg_orReg_ne (s : State) {o p : Nat} (m : Nat) (h : p ≠ o) : (s.orReg o m).reg p = s.reg p := reg_setReg_ne s _ h

/-- `send` records the message in front. -/
@[simp] theorem State.send_sent (s : State) (m : Sent) : (s.send m).sent = m :: s.sent := rfl

@[simp] theorem State.tick_fresh (s : State) (k : Nat) : (s.tick k).fresh = s.fresh + k := rfl

@[simp] theorem State.answer_rdData (s : State) (c : String) (w : Word) : (s.answer c w).rdData = w := rfl
@[simp] theorem State.answer_rdResp (s : State) (c : String) (w : Word) : (s.answer c w).rdResp = c := rfl

/-- An entry of a vector after an update of that entry, and of another one. -/
theorem atV_updV_same {α : Type} {n : Nat} (v : Vector α n) {i : Nat} (f : α → α) (d : α) (h : i < n) :
    atV (updV v i f) i d = f (atV v i d) := by
  simp [atV, updV, h]

theorem atV_updV_ne {α : Type} {n : Nat} (v : Vector α n) {i j : Nat} (f : α → α) (d : α) (h : j ≠ i) :
    atV (updV v i f) j d = atV v j d := by
  unfold updV
  split
  · simp [atV, Ne.symm h]
  · rfl

theorem atV_setV_same {α : Type} {n : Nat} (v : Vector α n) {i : Nat} (x d : α) (h : i < n) : atV (setV v i x) i d = x :=
  atV_updV_same v _ d h

theorem atV_setV_ne {α : Type} {n : Nat} (v : Vector α n) {i j : Nat} (x d : α) (h : j ≠ i) : atV (setV v i x) j d = atV v j d :=
  atV_updV_ne v _ d h

end Sys2Proof.Machine
end

