-- ==== Sys2Proof/Laws/Ops.lean ====
section
/-! SUPPORT. What raising an event and queueing a peat entry leave unchanged (R534, R539): only the ERU, the peat record, the register
file and the NMI latch of the core change, unless the event is FATAL (R541). -/
namespace Sys2Proof.Machine

@[simp] theorem State.nmiEdge_ts (s : State) : s.nmiEdge.ts = s.ts := rfl
@[simp] theorem State.nmiEdge_sys (s : State) : s.nmiEdge.sys = s.sys := rfl
@[simp] theorem State.nmiEdge_otp (s : State) : s.nmiEdge.otp = s.otp := rfl
@[simp] theorem State.nmiEdge_balls (s : State) : s.nmiEdge.balls = s.balls := rfl
@[simp] theorem State.nmiEdge_regs (s : State) : s.nmiEdge.regs = s.regs := rfl
@[simp] theorem State.nmiEdge_shadow (s : State) : s.nmiEdge.shadow = s.shadow := rfl
@[simp] theorem State.nmiEdge_hiLatch (s : State) : s.nmiEdge.hiLatch = s.hiLatch := rfl
@[simp] theorem State.nmiEdge_rdData (s : State) : s.nmiEdge.rdData = s.rdData := rfl
@[simp] theorem State.nmiEdge_rdResp (s : State) : s.nmiEdge.rdResp = s.rdResp := rfl
@[simp] theorem State.nmiEdge_peat (s : State) : s.nmiEdge.peat = s.peat := rfl
@[simp] theorem State.nmiEdge_jnl (s : State) : s.nmiEdge.jnl = s.jnl := rfl
@[simp] theorem State.nmiEdge_eru (s : State) : s.nmiEdge.eru = s.eru := rfl
@[simp] theorem State.nmiEdge_sent (s : State) : s.nmiEdge.sent = s.sent := rfl
@[simp] theorem State.nmiEdge_fresh (s : State) : s.nmiEdge.fresh = s.fresh := rfl
@[simp] theorem State.nmiEdge_pos (s : State) : s.nmiEdge.pos = s.pos := rfl
@[simp] theorem State.nmiEdge_lane (s : State) : s.nmiEdge.lane = s.lane := rfl
@[simp] theorem State.nmiEdge_heads (s : State) : s.nmiEdge.heads = s.heads := rfl
@[simp] theorem State.nmiEdge_slice (s : State) : s.nmiEdge.slice = s.slice := rfl
@[simp] theorem State.nmiEdge_gddr (s : State) : s.nmiEdge.gddr = s.gddr := rfl
@[simp] theorem State.nmiEdge_tile (s : State) : s.nmiEdge.tile = s.tile := rfl
@[simp] theorem State.nmiEdge_frm (s : State) : s.nmiEdge.frm = s.frm := rfl
@[simp] theorem State.nmiEdge_psq (s : State) : s.nmiEdge.psq = s.psq := rfl
@[simp] theorem State.nmiEdge_mrk (s : State) : s.nmiEdge.mrk = s.mrk := rfl
@[simp] theorem State.nmiEdge_res (s : State) : s.nmiEdge.res = s.res := rfl
@[simp] theorem State.nmiEdge_fport (s : State) : s.nmiEdge.fport = s.fport := rfl
@[simp] theorem State.nmiEdge_fab (s : State) : s.nmiEdge.fab = s.fab := rfl
@[simp] theorem State.nmiEdge_cw (s : State) : s.nmiEdge.cw = s.cw := rfl
@[simp] theorem State.nmiEdge_cen (s : State) : s.nmiEdge.cen = s.cen := rfl
@[simp] theorem State.nmiEdge_ft (s : State) : s.nmiEdge.ft = s.ft := rfl
@[simp] theorem State.nmiEdge_mtx (s : State) : s.nmiEdge.mtx = s.mtx := rfl
@[simp] theorem State.nmiEdge_gdc (s : State) : s.nmiEdge.gdc = s.gdc := rfl
@[simp] theorem State.nmiEdge_sec (s : State) : s.nmiEdge.sec = s.sec := rfl
@[simp] theorem State.nmiEdge_pcie (s : State) : s.nmiEdge.pcie = s.pcie := rfl
@[simp] theorem State.nmiEdge_clk (s : State) : s.nmiEdge.clk = s.clk := rfl
@[simp] theorem State.nmiEdge_flash (s : State) : s.nmiEdge.flash = s.flash := rfl
@[simp] theorem State.nmiEdge_img (s : State) : s.nmiEdge.img = s.img := rfl
@[simp] theorem State.nmiEdge_pending (s : State) : s.nmiEdge.pending = s.pending := rfl

@[simp] theorem State.eruCapture_ts (s : State) (ev : Ev) (i d a : Nat) : (s.eruCapture ev i d a).ts = s.ts := rfl
@[simp] theorem State.eruCapture_sys (s : State) (ev : Ev) (i d a : Nat) : (s.eruCapture ev i d a).sys = s.sys := rfl
@[simp] theorem State.eruCapture_otp (s : State) (ev : Ev) (i d a : Nat) : (s.eruCapture ev i d a).otp = s.otp := rfl
@[simp] theorem State.eruCapture_balls (s : State) (ev : Ev) (i d a : Nat) : (s.eruCapture ev i d a).balls = s.balls := rfl
@[simp] theorem State.eruCapture_regs (s : State) (ev : Ev) (i d a : Nat) : (s.eruCapture ev i d a).regs = s.regs := rfl
@[simp] theorem State.eruCapture_shadow (s : State) (ev : Ev) (i d a : Nat) : (s.eruCapture ev i d a).shadow = s.shadow := rfl
@[simp] theorem State.eruCapture_hiLatch (s : State) (ev : Ev) (i d a : Nat) : (s.eruCapture ev i d a).hiLatch = s.hiLatch := rfl
@[simp] theorem State.eruCapture_rdData (s : State) (ev : Ev) (i d a : Nat) : (s.eruCapture ev i d a).rdData = s.rdData := rfl
@[simp] theorem State.eruCapture_rdResp (s : State) (ev : Ev) (i d a : Nat) : (s.eruCapture ev i d a).rdResp = s.rdResp := rfl
@[simp] theorem State.eruCapture_peat (s : State) (ev : Ev) (i d a : Nat) : (s.eruCapture ev i d a).peat = s.peat := rfl
@[simp] theorem State.eruCapture_jnl (s : State) (ev : Ev) (i d a : Nat) : (s.eruCapture ev i d a).jnl = s.jnl := rfl
@[simp] theorem State.eruCapture_sent (s : State) (ev : Ev) (i d a : Nat) : (s.eruCapture ev i d a).sent = s.sent := rfl
@[simp] theorem State.eruCapture_fresh (s : State) (ev : Ev) (i d a : Nat) : (s.eruCapture ev i d a).fresh = s.fresh := rfl
@[simp] theorem State.eruCapture_pos (s : State) (ev : Ev) (i d a : Nat) : (s.eruCapture ev i d a).pos = s.pos := rfl
@[simp] theorem State.eruCapture_lane (s : State) (ev : Ev) (i d a : Nat) : (s.eruCapture ev i d a).lane = s.lane := rfl
@[simp] theorem State.eruCapture_heads (s : State) (ev : Ev) (i d a : Nat) : (s.eruCapture ev i d a).heads = s.heads := rfl
@[simp] theorem State.eruCapture_slice (s : State) (ev : Ev) (i d a : Nat) : (s.eruCapture ev i d a).slice = s.slice := rfl
@[simp] theorem State.eruCapture_gddr (s : State) (ev : Ev) (i d a : Nat) : (s.eruCapture ev i d a).gddr = s.gddr := rfl
@[simp] theorem State.eruCapture_tile (s : State) (ev : Ev) (i d a : Nat) : (s.eruCapture ev i d a).tile = s.tile := rfl
@[simp] theorem State.eruCapture_frm (s : State) (ev : Ev) (i d a : Nat) : (s.eruCapture ev i d a).frm = s.frm := rfl
@[simp] theorem State.eruCapture_psq (s : State) (ev : Ev) (i d a : Nat) : (s.eruCapture ev i d a).psq = s.psq := rfl
@[simp] theorem State.eruCapture_mrk (s : State) (ev : Ev) (i d a : Nat) : (s.eruCapture ev i d a).mrk = s.mrk := rfl
@[simp] theorem State.eruCapture_res (s : State) (ev : Ev) (i d a : Nat) : (s.eruCapture ev i d a).res = s.res := rfl
@[simp] theorem State.eruCapture_fport (s : State) (ev : Ev) (i d a : Nat) : (s.eruCapture ev i d a).fport = s.fport := rfl
@[simp] theorem State.eruCapture_fab (s : State) (ev : Ev) (i d a : Nat) : (s.eruCapture ev i d a).fab = s.fab := rfl
@[simp] theorem State.eruCapture_cw (s : State) (ev : Ev) (i d a : Nat) : (s.eruCapture ev i d a).cw = s.cw := rfl
@[simp] theorem State.eruCapture_cen (s : State) (ev : Ev) (i d a : Nat) : (s.eruCapture ev i d a).cen = s.cen := rfl
@[simp] theorem State.eruCapture_ft (s : State) (ev : Ev) (i d a : Nat) : (s.eruCapture ev i d a).ft = s.ft := rfl
@[simp] theorem State.eruCapture_mtx (s : State) (ev : Ev) (i d a : Nat) : (s.eruCapture ev i d a).mtx = s.mtx := rfl
@[simp] theorem State.eruCapture_gdc (s : State) (ev : Ev) (i d a : Nat) : (s.eruCapture ev i d a).gdc = s.gdc := rfl
@[simp] theorem State.eruCapture_sec (s : State) (ev : Ev) (i d a : Nat) : (s.eruCapture ev i d a).sec = s.sec := rfl
@[simp] theorem State.eruCapture_pcie (s : State) (ev : Ev) (i d a : Nat) : (s.eruCapture ev i d a).pcie = s.pcie := rfl
@[simp] theorem State.eruCapture_clk (s : State) (ev : Ev) (i d a : Nat) : (s.eruCapture ev i d a).clk = s.clk := rfl
@[simp] theorem State.eruCapture_flash (s : State) (ev : Ev) (i d a : Nat) : (s.eruCapture ev i d a).flash = s.flash := rfl
@[simp] theorem State.eruCapture_img (s : State) (ev : Ev) (i d a : Nat) : (s.eruCapture ev i d a).img = s.img := rfl
@[simp] theorem State.eruCapture_pending (s : State) (ev : Ev) (i d a : Nat) : (s.eruCapture ev i d a).pending = s.pending := rfl

@[simp] theorem State.peatPush_ts (s : State) (t u : Nat) (b : List Byte) : (s.peatPush t u b).ts = s.ts := by
  unfold State.peatPush
  dsimp only
  split
  · rfl
  · split <;> rfl

@[simp] theorem State.peatPush_sys (s : State) (t u : Nat) (b : List Byte) : (s.peatPush t u b).sys = s.sys := by
  unfold State.peatPush
  dsimp only
  split
  · rfl
  · split <;> rfl

@[simp] theorem State.peatPush_otp (s : State) (t u : Nat) (b : List Byte) : (s.peatPush t u b).otp = s.otp := by
  unfold State.peatPush
  dsimp only
  split
  · rfl
  · split <;> rfl

@[simp] theorem State.peatPush_balls (s : State) (t u : Nat) (b : List Byte) : (s.peatPush t u b).balls = s.balls := by
  unfold State.peatPush
  dsimp only
  split
  · rfl
  · split <;> rfl

@[simp] theorem State.peatPush_shadow (s : State) (t u : Nat) (b : List Byte) : (s.peatPush t u b).shadow = s.shadow := by
  unfold State.peatPush
  dsimp only
  split
  · rfl
  · split <;> rfl

@[simp] theorem State.peatPush_hiLatch (s : State) (t u : Nat) (b : List Byte) : (s.peatPush t u b).hiLatch = s.hiLatch := by
  unfold State.peatPush
  dsimp only
  split
  · rfl
  · split <;> rfl

@[simp] theorem State.peatPush_rdData (s : State) (t u : Nat) (b : List Byte) : (s.peatPush t u b).rdData = s.rdData := by
  unfold State.peatPush
  dsimp only
  split
  · rfl
  · split <;> rfl

@[simp] theorem State.peatPush_rdResp (s : State) (t u : Nat) (b : List Byte) : (s.peatPush t u b).rdResp = s.rdResp := by
  unfold State.peatPush
  dsimp only
  split
  · rfl
  · split <;> rfl

@[simp] theorem State.peatPush_jnl (s : State) (t u : Nat) (b : List Byte) : (s.peatPush t u b).jnl = s.jnl := by
  unfold State.peatPush
  dsimp only
  split
  · rfl
  · split <;> rfl

@[simp] theorem State.peatPush_sent (s : State) (t u : Nat) (b : List Byte) : (s.peatPush t u b).sent = s.sent := by
  unfold State.peatPush
  dsimp only
  split
  · rfl
  · split <;> rfl

@[simp] theorem State.peatPush_fresh (s : State) (t u : Nat) (b : List Byte) : (s.peatPush t u b).fresh = s.fresh := by
  unfold State.peatPush
  dsimp only
  split
  · rfl
  · split <;> rfl

@[simp] theorem State.peatPush_pos (s : State) (t u : Nat) (b : List Byte) : (s.peatPush t u b).pos = s.pos := by
  unfold State.peatPush
  dsimp only
  split
  · rfl
  · split <;> rfl

@[simp] theorem State.peatPush_lane (s : State) (t u : Nat) (b : List Byte) : (s.peatPush t u b).lane = s.lane := by
  unfold State.peatPush
  dsimp only
  split
  · rfl
  · split <;> rfl

@[simp] theorem State.peatPush_heads (s : State) (t u : Nat) (b : List Byte) : (s.peatPush t u b).heads = s.heads := by
  unfold State.peatPush
  dsimp only
  split
  · rfl
  · split <;> rfl

@[simp] theorem State.peatPush_slice (s : State) (t u : Nat) (b : List Byte) : (s.peatPush t u b).slice = s.slice := by
  unfold State.peatPush
  dsimp only
  split
  · rfl
  · split <;> rfl

@[simp] theorem State.peatPush_gddr (s : State) (t u : Nat) (b : List Byte) : (s.peatPush t u b).gddr = s.gddr := by
  unfold State.peatPush
  dsimp only
  split
  · rfl
  · split <;> rfl

@[simp] theorem State.peatPush_tile (s : State) (t u : Nat) (b : List Byte) : (s.peatPush t u b).tile = s.tile := by
  unfold State.peatPush
  dsimp only
  split
  · rfl
  · split <;> rfl

@[simp] theorem State.peatPush_frm (s : State) (t u : Nat) (b : List Byte) : (s.peatPush t u b).frm = s.frm := by
  unfold State.peatPush
  dsimp only
  split
  · rfl
  · split <;> rfl

@[simp] theorem State.peatPush_psq (s : State) (t u : Nat) (b : List Byte) : (s.peatPush t u b).psq = s.psq := by
  unfold State.peatPush
  dsimp only
  split
  · rfl
  · split <;> rfl

@[simp] theorem State.peatPush_mrk (s : State) (t u : Nat) (b : List Byte) : (s.peatPush t u b).mrk = s.mrk := by
  unfold State.peatPush
  dsimp only
  split
  · rfl
  · split <;> rfl

@[simp] theorem State.peatPush_res (s : State) (t u : Nat) (b : List Byte) : (s.peatPush t u b).res = s.res := by
  unfold State.peatPush
  dsimp only
  split
  · rfl
  · split <;> rfl

@[simp] theorem State.peatPush_fport (s : State) (t u : Nat) (b : List Byte) : (s.peatPush t u b).fport = s.fport := by
  unfold State.peatPush
  dsimp only
  split
  · rfl
  · split <;> rfl

@[simp] theorem State.peatPush_fab (s : State) (t u : Nat) (b : List Byte) : (s.peatPush t u b).fab = s.fab := by
  unfold State.peatPush
  dsimp only
  split
  · rfl
  · split <;> rfl

@[simp] theorem State.peatPush_cw (s : State) (t u : Nat) (b : List Byte) : (s.peatPush t u b).cw = s.cw := by
  unfold State.peatPush
  dsimp only
  split
  · rfl
  · split <;> rfl

@[simp] theorem State.peatPush_cen (s : State) (t u : Nat) (b : List Byte) : (s.peatPush t u b).cen = s.cen := by
  unfold State.peatPush
  dsimp only
  split
  · rfl
  · split <;> rfl

@[simp] theorem State.peatPush_ft (s : State) (t u : Nat) (b : List Byte) : (s.peatPush t u b).ft = s.ft := by
  unfold State.peatPush
  dsimp only
  split
  · rfl
  · split <;> rfl

@[simp] theorem State.peatPush_mtx (s : State) (t u : Nat) (b : List Byte) : (s.peatPush t u b).mtx = s.mtx := by
  unfold State.peatPush
  dsimp only
  split
  · rfl
  · split <;> rfl

@[simp] theorem State.peatPush_gdc (s : State) (t u : Nat) (b : List Byte) : (s.peatPush t u b).gdc = s.gdc := by
  unfold State.peatPush
  dsimp only
  split
  · rfl
  · split <;> rfl

@[simp] theorem State.peatPush_sec (s : State) (t u : Nat) (b : List Byte) : (s.peatPush t u b).sec = s.sec := by
  unfold State.peatPush
  dsimp only
  split
  · rfl
  · split <;> rfl

@[simp] theorem State.peatPush_pcie (s : State) (t u : Nat) (b : List Byte) : (s.peatPush t u b).pcie = s.pcie := by
  unfold State.peatPush
  dsimp only
  split
  · rfl
  · split <;> rfl

@[simp] theorem State.peatPush_clk (s : State) (t u : Nat) (b : List Byte) : (s.peatPush t u b).clk = s.clk := by
  unfold State.peatPush
  dsimp only
  split
  · rfl
  · split <;> rfl

@[simp] theorem State.peatPush_flash (s : State) (t u : Nat) (b : List Byte) : (s.peatPush t u b).flash = s.flash := by
  unfold State.peatPush
  dsimp only
  split
  · rfl
  · split <;> rfl

@[simp] theorem State.peatPush_img (s : State) (t u : Nat) (b : List Byte) : (s.peatPush t u b).img = s.img := by
  unfold State.peatPush
  dsimp only
  split
  · rfl
  · split <;> rfl

@[simp] theorem State.peatPush_pending (s : State) (t u : Nat) (b : List Byte) : (s.peatPush t u b).pending = s.pending := by
  unfold State.peatPush
  dsimp only
  split
  · rfl
  · split <;> rfl

@[simp] theorem State.rateNote_ts (s : State) (ev : Ev) (i : Nat) : (s.rateNote ev i).ts = s.ts := by
  unfold State.rateNote
  split <;> rfl

@[simp] theorem State.rateNote_sys (s : State) (ev : Ev) (i : Nat) : (s.rateNote ev i).sys = s.sys := by
  unfold State.rateNote
  split <;> rfl

@[simp] theorem State.rateNote_otp (s : State) (ev : Ev) (i : Nat) : (s.rateNote ev i).otp = s.otp := by
  unfold State.rateNote
  split <;> rfl

@[simp] theorem State.rateNote_balls (s : State) (ev : Ev) (i : Nat) : (s.rateNote ev i).balls = s.balls := by
  unfold State.rateNote
  split <;> rfl

@[simp] theorem State.rateNote_regs (s : State) (ev : Ev) (i : Nat) : (s.rateNote ev i).regs = s.regs := by
  unfold State.rateNote
  split <;> rfl

@[simp] theorem State.rateNote_shadow (s : State) (ev : Ev) (i : Nat) : (s.rateNote ev i).shadow = s.shadow := by
  unfold State.rateNote
  split <;> rfl

@[simp] theorem State.rateNote_hiLatch (s : State) (ev : Ev) (i : Nat) : (s.rateNote ev i).hiLatch = s.hiLatch := by
  unfold State.rateNote
  split <;> rfl

@[simp] theorem State.rateNote_rdData (s : State) (ev : Ev) (i : Nat) : (s.rateNote ev i).rdData = s.rdData := by
  unfold State.rateNote
  split <;> rfl

@[simp] theorem State.rateNote_rdResp (s : State) (ev : Ev) (i : Nat) : (s.rateNote ev i).rdResp = s.rdResp := by
  unfold State.rateNote
  split <;> rfl

@[simp] theorem State.rateNote_peat (s : State) (ev : Ev) (i : Nat) : (s.rateNote ev i).peat = s.peat := by
  unfold State.rateNote
  split <;> rfl

@[simp] theorem State.rateNote_jnl (s : State) (ev : Ev) (i : Nat) : (s.rateNote ev i).jnl = s.jnl := by
  unfold State.rateNote
  split <;> rfl

@[simp] theorem State.rateNote_sent (s : State) (ev : Ev) (i : Nat) : (s.rateNote ev i).sent = s.sent := by
  unfold State.rateNote
  split <;> rfl

@[simp] theorem State.rateNote_fresh (s : State) (ev : Ev) (i : Nat) : (s.rateNote ev i).fresh = s.fresh := by
  unfold State.rateNote
  split <;> rfl

@[simp] theorem State.rateNote_pos (s : State) (ev : Ev) (i : Nat) : (s.rateNote ev i).pos = s.pos := by
  unfold State.rateNote
  split <;> rfl

@[simp] theorem State.rateNote_lane (s : State) (ev : Ev) (i : Nat) : (s.rateNote ev i).lane = s.lane := by
  unfold State.rateNote
  split <;> rfl

@[simp] theorem State.rateNote_heads (s : State) (ev : Ev) (i : Nat) : (s.rateNote ev i).heads = s.heads := by
  unfold State.rateNote
  split <;> rfl

@[simp] theorem State.rateNote_slice (s : State) (ev : Ev) (i : Nat) : (s.rateNote ev i).slice = s.slice := by
  unfold State.rateNote
  split <;> rfl

@[simp] theorem State.rateNote_gddr (s : State) (ev : Ev) (i : Nat) : (s.rateNote ev i).gddr = s.gddr := by
  unfold State.rateNote
  split <;> rfl

@[simp] theorem State.rateNote_tile (s : State) (ev : Ev) (i : Nat) : (s.rateNote ev i).tile = s.tile := by
  unfold State.rateNote
  split <;> rfl

@[simp] theorem State.rateNote_frm (s : State) (ev : Ev) (i : Nat) : (s.rateNote ev i).frm = s.frm := by
  unfold State.rateNote
  split <;> rfl

@[simp] theorem State.rateNote_psq (s : State) (ev : Ev) (i : Nat) : (s.rateNote ev i).psq = s.psq := by
  unfold State.rateNote
  split <;> rfl

@[simp] theorem State.rateNote_mrk (s : State) (ev : Ev) (i : Nat) : (s.rateNote ev i).mrk = s.mrk := by
  unfold State.rateNote
  split <;> rfl

@[simp] theorem State.rateNote_res (s : State) (ev : Ev) (i : Nat) : (s.rateNote ev i).res = s.res := by
  unfold State.rateNote
  split <;> rfl

@[simp] theorem State.rateNote_fport (s : State) (ev : Ev) (i : Nat) : (s.rateNote ev i).fport = s.fport := by
  unfold State.rateNote
  split <;> rfl

@[simp] theorem State.rateNote_fab (s : State) (ev : Ev) (i : Nat) : (s.rateNote ev i).fab = s.fab := by
  unfold State.rateNote
  split <;> rfl

@[simp] theorem State.rateNote_cw (s : State) (ev : Ev) (i : Nat) : (s.rateNote ev i).cw = s.cw := by
  unfold State.rateNote
  split <;> rfl

@[simp] theorem State.rateNote_cen (s : State) (ev : Ev) (i : Nat) : (s.rateNote ev i).cen = s.cen := by
  unfold State.rateNote
  split <;> rfl

@[simp] theorem State.rateNote_ft (s : State) (ev : Ev) (i : Nat) : (s.rateNote ev i).ft = s.ft := by
  unfold State.rateNote
  split <;> rfl

@[simp] theorem State.rateNote_core (s : State) (ev : Ev) (i : Nat) : (s.rateNote ev i).core = s.core := by
  unfold State.rateNote
  split <;> rfl

@[simp] theorem State.rateNote_mtx (s : State) (ev : Ev) (i : Nat) : (s.rateNote ev i).mtx = s.mtx := by
  unfold State.rateNote
  split <;> rfl

@[simp] theorem State.rateNote_gdc (s : State) (ev : Ev) (i : Nat) : (s.rateNote ev i).gdc = s.gdc := by
  unfold State.rateNote
  split <;> rfl

@[simp] theorem State.rateNote_sec (s : State) (ev : Ev) (i : Nat) : (s.rateNote ev i).sec = s.sec := by
  unfold State.rateNote
  split <;> rfl

@[simp] theorem State.rateNote_pcie (s : State) (ev : Ev) (i : Nat) : (s.rateNote ev i).pcie = s.pcie := by
  unfold State.rateNote
  split <;> rfl

@[simp] theorem State.rateNote_clk (s : State) (ev : Ev) (i : Nat) : (s.rateNote ev i).clk = s.clk := by
  unfold State.rateNote
  split <;> rfl

@[simp] theorem State.rateNote_flash (s : State) (ev : Ev) (i : Nat) : (s.rateNote ev i).flash = s.flash := by
  unfold State.rateNote
  split <;> rfl

@[simp] theorem State.rateNote_img (s : State) (ev : Ev) (i : Nat) : (s.rateNote ev i).img = s.img := by
  unfold State.rateNote
  split <;> rfl

@[simp] theorem State.rateNote_pending (s : State) (ev : Ev) (i : Nat) : (s.rateNote ev i).pending = s.pending := by
  unfold State.rateNote
  split <;> rfl

@[simp] theorem State.note_ts (s : State) (ev : Ev) (i d a : Nat) : (s.note ev i d a).ts = s.ts := by
  unfold State.note State.noteAs
  split
  · rfl
  · simp

@[simp] theorem State.note_sys (s : State) (ev : Ev) (i d a : Nat) : (s.note ev i d a).sys = s.sys := by
  unfold State.note State.noteAs
  split
  · rfl
  · simp

@[simp] theorem State.note_otp (s : State) (ev : Ev) (i d a : Nat) : (s.note ev i d a).otp = s.otp := by
  unfold State.note State.noteAs
  split
  · rfl
  · simp

@[simp] theorem State.note_balls (s : State) (ev : Ev) (i d a : Nat) : (s.note ev i d a).balls = s.balls := by
  unfold State.note State.noteAs
  split
  · rfl
  · simp

@[simp] theorem State.note_shadow (s : State) (ev : Ev) (i d a : Nat) : (s.note ev i d a).shadow = s.shadow := by
  unfold State.note State.noteAs
  split
  · rfl
  · simp

@[simp] theorem State.note_hiLatch (s : State) (ev : Ev) (i d a : Nat) : (s.note ev i d a).hiLatch = s.hiLatch := by
  unfold State.note State.noteAs
  split
  · rfl
  · simp

@[simp] theorem State.note_rdData (s : State) (ev : Ev) (i d a : Nat) : (s.note ev i d a).rdData = s.rdData := by
  unfold State.note State.noteAs
  split
  · rfl
  · simp

@[simp] theorem State.note_rdResp (s : State) (ev : Ev) (i d a : Nat) : (s.note ev i d a).rdResp = s.rdResp := by
  unfold State.note State.noteAs
  split
  · rfl
  · simp

@[simp] theorem State.note_jnl (s : State) (ev : Ev) (i d a : Nat) : (s.note ev i d a).jnl = s.jnl := by
  unfold State.note State.noteAs
  split
  · rfl
  · simp

@[simp] theorem State.note_sent (s : State) (ev : Ev) (i d a : Nat) : (s.note ev i d a).sent = s.sent := by
  unfold State.note State.noteAs
  split
  · rfl
  · simp

@[simp] theorem State.note_fresh (s : State) (ev : Ev) (i d a : Nat) : (s.note ev i d a).fresh = s.fresh := by
  unfold State.note State.noteAs
  split
  · rfl
  · simp

@[simp] theorem State.note_pos (s : State) (ev : Ev) (i d a : Nat) : (s.note ev i d a).pos = s.pos := by
  unfold State.note State.noteAs
  split
  · rfl
  · simp

@[simp] theorem State.note_lane (s : State) (ev : Ev) (i d a : Nat) : (s.note ev i d a).lane = s.lane := by
  unfold State.note State.noteAs
  split
  · rfl
  · simp

@[simp] theorem State.note_heads (s : State) (ev : Ev) (i d a : Nat) : (s.note ev i d a).heads = s.heads := by
  unfold State.note State.noteAs
  split
  · rfl
  · simp

@[simp] theorem State.note_slice (s : State) (ev : Ev) (i d a : Nat) : (s.note ev i d a).slice = s.slice := by
  unfold State.note State.noteAs
  split
  · rfl
  · simp

@[simp] theorem State.note_gddr (s : State) (ev : Ev) (i d a : Nat) : (s.note ev i d a).gddr = s.gddr := by
  unfold State.note State.noteAs
  split
  · rfl
  · simp

@[simp] theorem State.note_tile (s : State) (ev : Ev) (i d a : Nat) : (s.note ev i d a).tile = s.tile := by
  unfold State.note State.noteAs
  split
  · rfl
  · simp

@[simp] theorem State.note_frm (s : State) (ev : Ev) (i d a : Nat) : (s.note ev i d a).frm = s.frm := by
  unfold State.note State.noteAs
  split
  · rfl
  · simp

@[simp] theorem State.note_psq (s : State) (ev : Ev) (i d a : Nat) : (s.note ev i d a).psq = s.psq := by
  unfold State.note State.noteAs
  split
  · rfl
  · simp

@[simp] theorem State.note_mrk (s : State) (ev : Ev) (i d a : Nat) : (s.note ev i d a).mrk = s.mrk := by
  unfold State.note State.noteAs
  split
  · rfl
  · simp

@[simp] theorem State.note_res (s : State) (ev : Ev) (i d a : Nat) : (s.note ev i d a).res = s.res := by
  unfold State.note State.noteAs
  split
  · rfl
  · simp

@[simp] theorem State.note_fport (s : State) (ev : Ev) (i d a : Nat) : (s.note ev i d a).fport = s.fport := by
  unfold State.note State.noteAs
  split
  · rfl
  · simp

@[simp] theorem State.note_fab (s : State) (ev : Ev) (i d a : Nat) : (s.note ev i d a).fab = s.fab := by
  unfold State.note State.noteAs
  split
  · rfl
  · simp

@[simp] theorem State.note_cw (s : State) (ev : Ev) (i d a : Nat) : (s.note ev i d a).cw = s.cw := by
  unfold State.note State.noteAs
  split
  · rfl
  · simp

@[simp] theorem State.note_cen (s : State) (ev : Ev) (i d a : Nat) : (s.note ev i d a).cen = s.cen := by
  unfold State.note State.noteAs
  split
  · rfl
  · simp

@[simp] theorem State.note_ft (s : State) (ev : Ev) (i d a : Nat) : (s.note ev i d a).ft = s.ft := by
  unfold State.note State.noteAs
  split
  · rfl
  · simp

@[simp] theorem State.note_mtx (s : State) (ev : Ev) (i d a : Nat) : (s.note ev i d a).mtx = s.mtx := by
  unfold State.note State.noteAs
  split
  · rfl
  · simp

@[simp] theorem State.note_gdc (s : State) (ev : Ev) (i d a : Nat) : (s.note ev i d a).gdc = s.gdc := by
  unfold State.note State.noteAs
  split
  · rfl
  · simp

@[simp] theorem State.note_sec (s : State) (ev : Ev) (i d a : Nat) : (s.note ev i d a).sec = s.sec := by
  unfold State.note State.noteAs
  split
  · rfl
  · simp

@[simp] theorem State.note_pcie (s : State) (ev : Ev) (i d a : Nat) : (s.note ev i d a).pcie = s.pcie := by
  unfold State.note State.noteAs
  split
  · rfl
  · simp

@[simp] theorem State.note_clk (s : State) (ev : Ev) (i d a : Nat) : (s.note ev i d a).clk = s.clk := by
  unfold State.note State.noteAs
  split
  · rfl
  · simp

@[simp] theorem State.note_flash (s : State) (ev : Ev) (i d a : Nat) : (s.note ev i d a).flash = s.flash := by
  unfold State.note State.noteAs
  split
  · rfl
  · simp

@[simp] theorem State.note_img (s : State) (ev : Ev) (i d a : Nat) : (s.note ev i d a).img = s.img := by
  unfold State.note State.noteAs
  split
  · rfl
  · simp

@[simp] theorem State.note_pending (s : State) (ev : Ev) (i d a : Nat) : (s.note ev i d a).pending = s.pending := by
  unfold State.note State.noteAs
  split
  · rfl
  · simp

/-- Raising an event that is not FATAL leaves `ts` unchanged. -/
theorem State.raise_ts (s : State) {ev : Ev} (i d a : Nat) (h : ev.cls ≠ 3) : (s.raise ev i d a).ts = s.ts := by
  unfold State.raise
  split
  · rfl
  · simp

/-- Raising an event that is not FATAL leaves `sys` unchanged. -/
theorem State.raise_sys (s : State) {ev : Ev} (i d a : Nat) (h : ev.cls ≠ 3) : (s.raise ev i d a).sys = s.sys := by
  unfold State.raise
  split
  · rfl
  · simp

/-- Raising an event that is not FATAL leaves `otp` unchanged. -/
theorem State.raise_otp (s : State) {ev : Ev} (i d a : Nat) (h : ev.cls ≠ 3) : (s.raise ev i d a).otp = s.otp := by
  unfold State.raise
  split
  · rfl
  · simp

/-- Raising an event that is not FATAL leaves `balls` unchanged. -/
theorem State.raise_balls (s : State) {ev : Ev} (i d a : Nat) (h : ev.cls ≠ 3) : (s.raise ev i d a).balls = s.balls := by
  unfold State.raise
  split
  · rfl
  · simp

/-- Raising an event that is not FATAL leaves `shadow` unchanged. -/
theorem State.raise_shadow (s : State) {ev : Ev} (i d a : Nat) (h : ev.cls ≠ 3) : (s.raise ev i d a).shadow = s.shadow := by
  unfold State.raise
  split
  · rfl
  · simp

/-- Raising an event that is not FATAL leaves `hiLatch` unchanged. -/
theorem State.raise_hiLatch (s : State) {ev : Ev} (i d a : Nat) (h : ev.cls ≠ 3) : (s.raise ev i d a).hiLatch = s.hiLatch := by
  unfold State.raise
  split
  · rfl
  · simp

/-- Raising an event that is not FATAL leaves `rdData` unchanged. -/
theorem State.raise_rdData (s : State) {ev : Ev} (i d a : Nat) (h : ev.cls ≠ 3) : (s.raise ev i d a).rdData = s.rdData := by
  unfold State.raise
  split
  · rfl
  · simp

/-- Raising an event that is not FATAL leaves `rdResp` unchanged. -/
theorem State.raise_rdResp (s : State) {ev : Ev} (i d a : Nat) (h : ev.cls ≠ 3) : (s.raise ev i d a).rdResp = s.rdResp := by
  unfold State.raise
  split
  · rfl
  · simp

/-- Raising an event that is not FATAL leaves `jnl` unchanged. -/
theorem State.raise_jnl (s : State) {ev : Ev} (i d a : Nat) (h : ev.cls ≠ 3) : (s.raise ev i d a).jnl = s.jnl := by
  unfold State.raise
  split
  · rfl
  · simp

/-- Raising an event that is not FATAL leaves `sent` unchanged. -/
theorem State.raise_sent (s : State) {ev : Ev} (i d a : Nat) (h : ev.cls ≠ 3) : (s.raise ev i d a).sent = s.sent := by
  unfold State.raise
  split
  · rfl
  · simp

/-- Raising an event that is not FATAL leaves `fresh` unchanged. -/
theorem State.raise_fresh (s : State) {ev : Ev} (i d a : Nat) (h : ev.cls ≠ 3) : (s.raise ev i d a).fresh = s.fresh := by
  unfold State.raise
  split
  · rfl
  · simp

/-- Raising an event that is not FATAL leaves `pos` unchanged. -/
theorem State.raise_pos (s : State) {ev : Ev} (i d a : Nat) (h : ev.cls ≠ 3) : (s.raise ev i d a).pos = s.pos := by
  unfold State.raise
  split
  · rfl
  · simp

/-- Raising an event that is not FATAL leaves `lane` unchanged. -/
theorem State.raise_lane (s : State) {ev : Ev} (i d a : Nat) (h : ev.cls ≠ 3) : (s.raise ev i d a).lane = s.lane := by
  unfold State.raise
  split
  · rfl
  · simp

/-- Raising an event that is not FATAL leaves `heads` unchanged. -/
theorem State.raise_heads (s : State) {ev : Ev} (i d a : Nat) (h : ev.cls ≠ 3) : (s.raise ev i d a).heads = s.heads := by
  unfold State.raise
  split
  · rfl
  · simp

/-- Raising an event that is not FATAL leaves `slice` unchanged. -/
theorem State.raise_slice (s : State) {ev : Ev} (i d a : Nat) (h : ev.cls ≠ 3) : (s.raise ev i d a).slice = s.slice := by
  unfold State.raise
  split
  · rfl
  · simp

/-- Raising an event that is not FATAL leaves `gddr` unchanged. -/
theorem State.raise_gddr (s : State) {ev : Ev} (i d a : Nat) (h : ev.cls ≠ 3) : (s.raise ev i d a).gddr = s.gddr := by
  unfold State.raise
  split
  · rfl
  · simp

/-- Raising an event that is not FATAL leaves `tile` unchanged. -/
theorem State.raise_tile (s : State) {ev : Ev} (i d a : Nat) (h : ev.cls ≠ 3) : (s.raise ev i d a).tile = s.tile := by
  unfold State.raise
  split
  · rfl
  · simp

/-- Raising an event that is not FATAL leaves `frm` unchanged. -/
theorem State.raise_frm (s : State) {ev : Ev} (i d a : Nat) (h : ev.cls ≠ 3) : (s.raise ev i d a).frm = s.frm := by
  unfold State.raise
  split
  · rfl
  · simp

/-- Raising an event that is not FATAL leaves `psq` unchanged. -/
theorem State.raise_psq (s : State) {ev : Ev} (i d a : Nat) (h : ev.cls ≠ 3) : (s.raise ev i d a).psq = s.psq := by
  unfold State.raise
  split
  · rfl
  · simp

/-- Raising an event that is not FATAL leaves `mrk` unchanged. -/
theorem State.raise_mrk (s : State) {ev : Ev} (i d a : Nat) (h : ev.cls ≠ 3) : (s.raise ev i d a).mrk = s.mrk := by
  unfold State.raise
  split
  · rfl
  · simp

/-- Raising an event that is not FATAL leaves `res` unchanged. -/
theorem State.raise_res (s : State) {ev : Ev} (i d a : Nat) (h : ev.cls ≠ 3) : (s.raise ev i d a).res = s.res := by
  unfold State.raise
  split
  · rfl
  · simp

/-- Raising an event that is not FATAL leaves `fport` unchanged. -/
theorem State.raise_fport (s : State) {ev : Ev} (i d a : Nat) (h : ev.cls ≠ 3) : (s.raise ev i d a).fport = s.fport := by
  unfold State.raise
  split
  · rfl
  · simp

/-- Raising an event that is not FATAL leaves `fab` unchanged. -/
theorem State.raise_fab (s : State) {ev : Ev} (i d a : Nat) (h : ev.cls ≠ 3) : (s.raise ev i d a).fab = s.fab := by
  unfold State.raise
  split
  · rfl
  · simp

/-- Raising an event that is not FATAL leaves `cw` unchanged. -/
theorem State.raise_cw (s : State) {ev : Ev} (i d a : Nat) (h : ev.cls ≠ 3) : (s.raise ev i d a).cw = s.cw := by
  unfold State.raise
  split
  · rfl
  · simp

/-- Raising an event that is not FATAL leaves `cen` unchanged. -/
theorem State.raise_cen (s : State) {ev : Ev} (i d a : Nat) (h : ev.cls ≠ 3) : (s.raise ev i d a).cen = s.cen := by
  unfold State.raise
  split
  · rfl
  · simp

/-- Raising an event that is not FATAL leaves `ft` unchanged. -/
theorem State.raise_ft (s : State) {ev : Ev} (i d a : Nat) (h : ev.cls ≠ 3) : (s.raise ev i d a).ft = s.ft := by
  unfold State.raise
  split
  · rfl
  · simp

/-- Raising an event that is not FATAL leaves `mtx` unchanged. -/
theorem State.raise_mtx (s : State) {ev : Ev} (i d a : Nat) (h : ev.cls ≠ 3) : (s.raise ev i d a).mtx = s.mtx := by
  unfold State.raise
  split
  · rfl
  · simp

/-- Raising an event that is not FATAL leaves `gdc` unchanged. -/
theorem State.raise_gdc (s : State) {ev : Ev} (i d a : Nat) (h : ev.cls ≠ 3) : (s.raise ev i d a).gdc = s.gdc := by
  unfold State.raise
  split
  · rfl
  · simp

/-- Raising an event that is not FATAL leaves `sec` unchanged. -/
theorem State.raise_sec (s : State) {ev : Ev} (i d a : Nat) (h : ev.cls ≠ 3) : (s.raise ev i d a).sec = s.sec := by
  unfold State.raise
  split
  · rfl
  · simp

/-- Raising an event that is not FATAL leaves `pcie` unchanged. -/
theorem State.raise_pcie (s : State) {ev : Ev} (i d a : Nat) (h : ev.cls ≠ 3) : (s.raise ev i d a).pcie = s.pcie := by
  unfold State.raise
  split
  · rfl
  · simp

/-- Raising an event that is not FATAL leaves `clk` unchanged. -/
theorem State.raise_clk (s : State) {ev : Ev} (i d a : Nat) (h : ev.cls ≠ 3) : (s.raise ev i d a).clk = s.clk := by
  unfold State.raise
  split
  · rfl
  · simp

/-- Raising an event that is not FATAL leaves `flash` unchanged. -/
theorem State.raise_flash (s : State) {ev : Ev} (i d a : Nat) (h : ev.cls ≠ 3) : (s.raise ev i d a).flash = s.flash := by
  unfold State.raise
  split
  · rfl
  · simp

/-- Raising an event that is not FATAL leaves `img` unchanged. -/
theorem State.raise_img (s : State) {ev : Ev} (i d a : Nat) (h : ev.cls ≠ 3) : (s.raise ev i d a).img = s.img := by
  unfold State.raise
  split
  · rfl
  · simp

/-- Raising an event that is not FATAL leaves `pending` unchanged. -/
theorem State.raise_pending (s : State) {ev : Ev} (i d a : Nat) (h : ev.cls ≠ 3) : (s.raise ev i d a).pending = s.pending := by
  unfold State.raise
  split
  · rfl
  · simp

/-- What the clocks of the processing die make of one of its engines (R576). -/
@[simp] theorem State.clocked_run {s : State} (f : State → Host.Outcome State Fault Refusal) (h : s.clk.shutdown = false) : s.clocked f = f s := by
  simp [State.clocked, h]

@[simp] theorem State.clocked_stop {s : State} (f : State → Host.Outcome State Fault Refusal) (h : s.clk.shutdown = true) :
    s.clocked f = .next s := by
  simp [State.clocked, h]

/-- A register access that cannot reach the bridge changes nothing (R432). -/
theorem State.busWrite_held {s : State} {who : Requester} (v : View) (o : Nat) (w : Word) (strb : BitVec 4) (h : s.busHeld who = true) :
    s.busWrite who v o w strb = s := by
  simp [State.busWrite, h]

theorem State.busRead_held {s : State} {who : Requester} (v : View) (o : Nat) (h : s.busHeld who = true) : s.busRead who v o = s := by
  simp [State.busRead, h]

end Sys2Proof.Machine
end

