-- ==== Sys2Proof/Laws/Core.lean ====
section
/-! SUPPORT. The control core: the fetch of a word in a ready state, what the run of a word does then, and exception entry. -/
namespace Sys2Proof.Machine

theorem spmReady_plain {s : State} (hw : s.mtx.wiping = false) (hs : s.mtx.shadow = none) (a k : Nat) : s.spmReady a k = s := by
  simp [State.spmReady, State.wipeDone, hw, hs]

theorem spmCheck_plain {s : State} (hb : s.mtx.spmBad = []) (a k : Nat) : s.spmCheck a k = (true, s) := by
  simp [State.spmCheck, hb]

/-- A read of sound words of the scratchpad answers their bytes and changes nothing. -/
theorem spmRead_plain {s : State} (hb : s.mtx.spmBad = []) (hw : s.mtx.wiping = false) (hs : s.mtx.shadow = none) (a k : Nat) :
    s.spmRead a k = (some (memGetBytes ramDefault s.mtx.spm a k), s) := by
  simp [State.spmRead, spmReady_plain hw hs, spmCheck_plain hb]

theorem regionOf_spm {s : State} {m a : Nat} (h : a < 0x200000) : s.regionOf m a = some (.spm a) := by
  simp [State.regionOf, h]

theorem reach_core_spm {s : State} {m a : Nat} (hm : m < 2) (h : a < 0x200000) : s.reach m a = some (.spm a) := by
  have : m = 0 ∨ m = 1 := by omega
  rcases this with rfl | rfl <;> simp [State.reach, regionOf_spm h, reaches, Region.target]

/-- A core port's read of the scratchpad. -/
theorem portRead_spm {s : State} {m a k : Nat} (hm : m < 2) (h : a < 0x200000) (hb : s.mtx.spmBad = []) (hw : s.mtx.wiping = false)
    (hs : s.mtx.shadow = none) (hl : s.mtx.late = []) : s.portRead m a k = (0, memGetBytes ramDefault s.mtx.spm a k, s) := by
  simp [State.portRead, reach_core_spm hm h, hl, State.regionRead, spmRead_plain hb hw hs]

/-- The state in which the word at the PC of `s` has left the prefetch queue. -/
def fetched (s : State) : State := { s with core := { s.core with pq := s.queueAfter s.core.pc.toNat } }

/-- The fetch through the queue never fails in the scratchpad below the secure window (R385). -/
theorem fetchQueue_spm {s : State} {a : Nat} (h : a < 0x200000) (hb : s.mtx.spmBad = []) (hw : s.mtx.wiping = false)
    (hs : s.mtx.shadow = none) (hl : s.mtx.late = []) :
    ∃ w, s.fetchQueue a = (0, w, { s with core := { s.core with pq := s.queueAfter a } }) := by
  unfold State.fetchQueue
  cases s.core.pq.find? fun x => x.1 == a with
  | some x =>
    simp only [portRead_spm (by omega : (0 : Nat) < 2) h hb hw hs hl]
    exact ⟨_, rfl⟩
  | none =>
    simp only [portRead_spm (by omega : (0 : Nat) < 2) h hb hw hs hl]
    exact ⟨_, rfl⟩

/-- In a ready state the word at the PC is fetched: it leaves the queue, and nothing else changes (R385). -/
theorem fetch_ready {s : State} (h : CoreReady s) : s.fetch = .ok (fetched s) := by
  obtain ⟨_, hr, _, hi, ha, hp, hb, hw, hs, hl, _⟩ := h
  have h2 : s.core.pc.toNat < 0x200000 := by omega
  have h3 : inSecure s.core.pc.toNat = false := by simp [inSecure]; omega
  obtain ⟨w, h4⟩ := fetchQueue_spm h2 hb hw hs hl
  simp [State.fetch, hr, ha, h3, State.fetchRead, hi, h4, fetched]

theorem retire_fetched {s : State} (h : s.core.rep = none) : (fetched s).retire = afterWord s := by
  simp [State.retire, fetched, h, afterWord, State.priv]

theorem repBad_none {s : State} (w : CoreWord) (h : s.core.rep = none) : s.repBad w = false := by simp [State.repBad, h]
theorem divWait_none {s : State} (w : CoreWord) (h : s.core.div = none) : s.divWait w = s := by simp [State.divWait, h]

/-- The core's ports reach the scratchpad directly, so no access to it waits (R418, R432). -/
theorem portWaits_spm {s : State} {m a : Nat} (hm : m < 2) (h : a < 0x200000) : s.portWaits m a = false := by
  simp [State.portWaits, State.tileWaits, reach_core_spm hm h, Region.target]

/-- Neither the core's state, nor a pending entry, nor the fetch keeps a ready core from its next word. -/
theorem runs_ready {s : State} (h : CoreReady s) :
    ¬ (s.core.st ≠ 1 ∨ s.clk.shutdown = true ∨ s.nmiReady = true ∨ s.irqReady = true ∨ s.portWaits 0 s.core.pc.toNat = true) := by
  obtain ⟨h1, _, _, _, _, hp, _, _, _, _, hn, hq, hc⟩ := h
  simp [h1, hn, hq, hc, portWaits_spm (by omega : (0 : Nat) < 2) (by omega : s.core.pc.toNat < 0x200000)]

/-- A word in a ready state: the checks of R379 in their order, then its effect on the state in which it has retired. -/
theorem coreRun_fetched {s : State} (h : CoreReady s) (w : CoreWord) (body : State → CoreRes) :
    s.coreRun w body =
      if !w.legal then (fetched s).coreFault { vec := 0 }
      else if w.privileged && !s.priv then (fetched s).coreFault { vec := 1 }
      else match body (afterWord s) with
        | .ok t => t
        | .trap x t => if x.wait then s else if x.after then t.coreFault x else (t.undo (fetched s)).coreFault x := by
  have hf := fetch_ready h
  have h0 := runs_ready h
  obtain ⟨_, hr, hd, _⟩ := h
  rw [State.coreRun, if_neg h0, repBad_none w hr, hf]
  have hp : (fetched s).priv = s.priv := rfl
  cases hb : body (afterWord s) <;>
    simp only [Bool.false_eq_true, if_false, hp, divWait_none w (show (fetched s).core.div = none from hd), retire_fetched hr, hb]

/-- A legal word that the present level may run, in a ready state: its effect on the state in which it has retired. -/
theorem coreRun_ready {s : State} (h : CoreReady s) {w : CoreWord} (hl : w.legal = true) (hp : (w.privileged && !s.priv) = false)
    (body : State → CoreRes) :
    s.coreRun w body = match body (afterWord s) with
      | .ok t => t
      | .trap x t => if x.wait then s else if x.after then t.coreFault x else (t.undo (fetched s)).coreFault x := by
  rw [coreRun_fetched h]
  simp [hl, hp]

/-- A word whose effect cannot fail. -/
theorem coreRun_ok {s : State} (h : CoreReady s) {w : CoreWord} (hl : w.legal = true) (hp : w.privileged = false) {body : State → CoreRes}
    {t : State} (hb : body (afterWord s) = .ok t) : s.coreRun w body = t := by
  rw [coreRun_ready h hl (by simp [hp]), hb]

/-- The outcome of a word whose effect cannot fail. -/
theorem coreNext_ok {s : State} (h : CoreReady s) {w : CoreWord} {body : State → CoreRes} {t : State} (hl : w.legal = true)
    (hp : w.privileged = false) (hb : body (afterWord s) = .ok t) : Outcome.goes (s.coreRun w body) = .next t := by
  rw [coreRun_ok h hl hp hb]

/-- The same for a privileged word in privileged mode. -/
theorem corePriv_ok {s : State} (h : CoreReady s) {w : CoreWord} {body : State → CoreRes} {t : State} (hl : w.legal = true)
    (hp : s.priv = true) (hb : body (afterWord s) = .ok t) : Outcome.goes (s.coreRun w body) = .next t := by
  rw [coreRun_ready h hl (by simp [hp]), hb]

@[simp] theorem afterWord_dr (s : State) (i : BitVec 4) : (afterWord s).dr i = s.dr i := rfl
@[simp] theorem afterWord_ar (s : State) (i : BitVec 4) : (afterWord s).ar i = s.ar i := rfl
@[simp] theorem afterWord_priv (s : State) : (afterWord s).priv = s.priv := rfl
@[simp] theorem afterWord_mtx (s : State) : (afterWord s).mtx = s.mtx := rfl

/-- Entry to a vector, with room on the return stack: what R409 says. -/
theorem coreEnter_ready {s : State} (hd : s.core.div = none) (he : EntryReady s) (x : CoreEx) (saved : Word) (int : Bool) (lvl : Option Nat)
    (nmi : Bool) :
    s.coreEnter x saved int lvl nmi =
      (let st := putBits (putBits s.core.status 0 0 1) 31 23 0
       let st := (lvl.map fun l => putBits st 11 9 l).getD st
       let st := if nmi then putBits st 15 15 1 else st
       { s with core := { s.core with
          rs := { value := saved, kind := 1, tag := s.priv } :: { value := s.core.status, kind := 2, tag := s.priv } :: s.core.rs,
          st := 1, status := st,
          cause := w32 (fldsOr [(31, 31, b2n int), (30, 30, b2n x.part), (29, 29, b2n x.fetch), (15, 8, x.detail), (7, 0, x.vec)]),
          far := (x.far.map w32).getD s.core.far, pc := s.vecPc x.vec, rep := none, pq := [], atVector := true } }) := by
  obtain ⟨h1, h2⟩ := he
  have h3 : s.core.rs.length < 32 := by omega
  have h4 : s.core.rs.length + 1 < 32 := by omega
  simp [State.coreEnter, State.divFinish, hd, State.mulFlush, h2, State.rsPush, State.rsSpillOne, h3, h4, State.vecPc]

/-- A fault with no address, in a state without a repeat: its vector is entered with the address of the word saved (R409). -/
theorem coreFault_ready {s : State} (h1 : s.core.st = 1) (hr : s.core.rep = none) (hd : s.core.div = none) (he : EntryReady s) (vec detail : Nat)
    (after : Bool) (hv : vec < 256) (hdt : detail < 256) :
    s.coreFault { vec := vec, detail := detail, after := after } = entered s vec detail s.core.pc := by
  simp [State.coreFault, coreEnter_ready hd he, entered, hr, h1, State.vecPc, fldsOr, fld, sumN, b2n, Nat.mod_eq_of_lt hv,
    Nat.mod_eq_of_lt hdt, Nat.mul_comm, Nat.add_comm]

/-- The same once the word has been fetched: entry flushes the queue in any case. -/
theorem coreFault_fetched {s : State} (h : CoreReady s) (he : EntryReady s) (vec detail : Nat) (hv : vec < 256) (hdt : detail < 256) :
    (fetched s).coreFault { vec := vec, detail := detail } = entered s vec detail s.core.pc := by
  obtain ⟨h1, hr, hd, _⟩ := h
  rw [coreFault_ready (s := fetched s) h1 hr hd he vec detail false hv hdt]
  rfl

/-- An illegal word, in a ready state: the illegal-instruction vector is entered with the address of the word saved (R379, R409). -/
theorem coreRun_illegal {s : State} (h : CoreReady s) (he : EntryReady s) {w : CoreWord} (hl : w.legal = false) (body : State → CoreRes) :
    s.coreRun w body = entered s 0 0 s.core.pc := by
  rw [coreRun_fetched h, if_pos (by simp [hl]), coreFault_fetched h he 0 0 (by omega) (by omega)]

/-- The outcome of an illegal word. -/
theorem coreNext_illegal {s : State} (h : CoreReady s) (he : EntryReady s) {w : CoreWord} {body : State → CoreRes} (hl : w.legal = false) :
    Outcome.goes (s.coreRun w body) = .next (entered s 0 0 s.core.pc) := by
  rw [coreRun_illegal h he hl]

/-- The outcome of a legal word that the present level may not run. -/
theorem coreNext_denied {s : State} (h : CoreReady s) (he : EntryReady s) {w : CoreWord} {body : State → CoreRes} (hl : w.legal = true)
    (hw : w.privileged = true) (hp : s.priv = false) : Outcome.goes (s.coreRun w body) = .next (entered s 1 0 s.core.pc) := by
  rw [coreRun_fetched h, if_neg (by simp [hl]), if_pos (by simp [hw, hp]), coreFault_fetched h he 1 0 (by omega) (by omega)]

/-- The outcome of a word whose effect raises an exception without an address and without a saved next word: registers as before. -/
theorem coreNext_fault {s : State} (h : CoreReady s) (he : EntryReady s) {w : CoreWord} {body : State → CoreRes} {vec detail : Nat}
    (hl : w.legal = true) (hw : (w.privileged && !s.priv) = false) (hv : vec < 256) (hdt : detail < 256)
    (hb : body (afterWord s) = .trap { vec := vec, detail := detail } (afterWord s)) :
    Outcome.goes (s.coreRun w body) = .next (entered s vec detail s.core.pc) := by
  rw [coreRun_ready h hl hw, hb]
  have : (afterWord s).undo (fetched s) = fetched s := rfl
  simp only [this, Bool.false_eq_true, if_false]
  rw [coreFault_fetched h he vec detail hv hdt]

end Sys2Proof.Machine
end

