-- ==== Sys2Proof/Laws/Report.lean ====
section
/-! SUPPORT. Raising an event below FATAL that is reported at once: what it adds, and that it touches nothing else. -/
namespace Sys2Proof.Machine

/-- With room in its queue the peat record takes an entry, and nothing else changes. -/
theorem State.peatPush_room (s : State) (t u : Nat) (b : List Byte) (h : s.peat.queue.length < 1024) :
    s.peatPush t u b = { s with peat := { s.peat with
      queue := s.peat.queue ++ [{ type := t, sub := u, time := s.fabricTime, body := b }] } } := by
  unfold State.peatPush
  rw [if_pos h]

/-- An event that can be reported is captured, counted and queued, and nothing happens beside. -/
theorem State.raise_eq (s : State) {ev : Ev} {i : Nat} (d a : Nat) (hc : ev.cls ≠ 3) (h : CanReport s ev i) :
    s.raise ev i d a = ((s.rateNote ev i).eruCapture ev i d a).peatPush 0x01 ev.cls
      (leBytes 2 ev.id ++ leBytes 3 (ev.src + i) ++ leBytes 4 d ++ leBytes 5 a) := by
  unfold State.raise State.note State.noteAs
  rw [h.1]
  simp only [Bool.not_true, Bool.false_eq_true, if_false, if_neg hc]

/-- Nothing but the ERU, the peat record and the core's NMI latch changes. -/
theorem State.raise_noting (s : State) {ev : Ev} {i : Nat} (d a : Nat) (hc : ev.cls ≠ 3) (h : CanReport s ev i) :
    s.raise ev i d a = s.noting (s.raise ev i d a) := by
  rw [State.raise_eq s d a hc h, State.peatPush_room _ _ _ _ (by simpa using h.2)]
  unfold State.noting State.eruCapture State.nmiEdge State.rateNote
  by_cases w : ev.window = 0 <;> simp only [w, if_true, if_false]

/-- The event is counted in its class and queued for the peat record. -/
theorem State.raise_reported (s : State) {ev : Ev} {i : Nat} (d a : Nat) (hc : ev.cls < 3) (h : CanReport s ev i) :
    Reported s (s.raise ev i d a) ev i := by
  rw [State.raise_eq s d a (by omega) h, State.peatPush_room _ _ _ _ (by simpa using h.2)]
  have hr : (s.rateNote ev i).eru.cnt = s.eru.cnt := by unfold State.rateNote; split <;> rfl
  refine ⟨?_, ⟨_, by simp only [State.eruCapture_peat, State.rateNote_peat]; rfl, rfl, rfl, ?_, ?_⟩⟩
  · have : ∀ (u : State), atV (u.eruCapture ev i d a).eru.cnt ev.cls 0 = (atV u.eru.cnt ev.cls 0 + 1) % 2 ^ 32 := by
      intro u
      have hs : ∀ w : State, w.nmiEdge.eru = w.eru := fun _ => rfl
      unfold State.eruCapture
      rw [hs]
      dsimp only
      split
      · split
        · exact atV_updV_same _ _ _ (by omega)
        · exact atV_updV_same _ _ _ (by omega)
      · exact atV_updV_same _ _ _ (by omega)
    exact (this (s.rateNote ev i)).trans (by rw [hr])
  · unfold State.fabricTime
    simp
  · have : (leBytes 2 ev.id ++ leBytes 3 (ev.src + i)).length = 5 := by simp [leBytes]
    rw [List.append_assoc (leBytes 2 ev.id ++ leBytes 3 (ev.src + i)), List.take_append_of_le_length (by omega),
      List.take_of_length_le (by omega)]

/-- After an event has been reported there is room for another when there was room for two. -/
theorem State.raise_queue (s : State) {ev : Ev} {i : Nat} (d a : Nat) (hc : ev.cls ≠ 3) (h : CanReport s ev i) :
    (s.raise ev i d a).peat.queue.length = s.peat.queue.length + 1 := by
  rw [State.raise_eq s d a hc h, State.peatPush_room _ _ _ _ (by simpa using h.2)]
  simp

end Sys2Proof.Machine
end

