-- ==== Sys2Proof/Laws/Vec.lean ====
section
/-! SUPPORT. The vector accessors at an index of the vector, and the numbered parts of the state read through them. -/
namespace Sys2Proof.Machine

theorem atV_fin {α : Type} {n : Nat} (v : Vector α n) (i : Fin n) (d : α) : atV v i.val d = v[i] := by
  unfold atV; simp

theorem updV_fin {α : Type} {n : Nat} (v : Vector α n) (i : Fin n) (f : α → α) : updV v i.val f = v.set i (f v[i]) := by
  unfold updV; simp

theorem setV_fin {α : Type} {n : Nat} (v : Vector α n) (i : Fin n) (x : α) : setV v i.val x = v.set i x := updV_fin v i _

theorem atV_set_same {α : Type} {n : Nat} (v : Vector α n) (i : Fin n) (x d : α) : atV (v.set i x) i.val d = x := by
  rw [atV_fin]; simp

theorem getElem_set_ne {α : Type} {n : Nat} (v : Vector α n) {i j : Fin n} (x : α) (h : j ≠ i) : (v.set i x)[j] = v[j] := by
  have : i.val ≠ j.val := fun e => h (Fin.ext e.symm)
  simp [this]

theorem State.enc_fin (s : State) (n : Fin 4) : s.enc n.val = s.pos.enc[n] := atV_fin _ _ _
theorem State.gen_fin (s : State) (g : Fin 32) : s.gen g.val = s.pos.gen[g] := atV_fin _ _ _
theorem State.mkr_fin (s : State) (n : Fin 8) : s.mkr n.val = s.mrk[n] := atV_fin _ _ _

/-- A domain that is not tracked reads as its own entry. -/
theorem State.dom_fin (s : State) {d : Fin 16} (h : s.rootDom d.val = d.val) : s.dom d.val = s.pos.dom[d] := by
  unfold State.dom
  rw [h]
  exact atV_fin _ _ _

/-- Which domain another follows does not depend on the domains, generators, encoders or messages. -/
theorem State.rootDom_congr {s t : State} (h : t.regs = s.regs) (hc : t.pos.ttCopy = s.pos.ttCopy) (d : Nat) :
    t.rootDom d = s.rootDom d := by
  unfold State.rootDom State.rbit State.rf State.reg
  rw [h, hc]

end Sys2Proof.Machine
end

