-- ==== Sys2Proof/Tests/Slice0.lean ====
section
/-! SUPPORT. Tests on small states: ill-formed commands refused, worked examples of the spec, one command at a time, and for every statement
with hypotheses a witness: concrete states and operands that meet them, clause by clause, at the ends of their ranges. -/
namespace Sys2Proof.Tests
open Sys2Proof Sys2Proof.Machine
-- One theorem at a time: each kernel check that waits for the one before it would hold a thread and its stack.
set_option Elab.async false

/-- The state after a command that goes on, and the state itself otherwise: tests look at its fields. -/
def after (i : Instr) (s : State) : State :=
  match exec i s with
  | .next t => t
  | _ => s

/-! The control core: witnesses -/

/-- The core released at 0x100, as `f` makes it. -/
def onCore (f : Core → Core) : State := { State.reset with core := f { Core.init with st := 1, pc := 0x100 } }

/-- Its D registers hold d0 = 7, d1 = -3, d2 = 31, A registers addresses at the end of the memory below the secure window. -/
def coreS : State := onCore fun c => { c with
  d := ((Vector.replicate 16 0).set 0 7 |>.set 1 0xFFFFFFFD).set 2 31, a := Vector.replicate 7 0x1BFFFC, a7p := 0x1BFFFC, a7u := 4 }

theorem witness_RegisterFormsResult : CoreReady coreS ∧ EntryReady coreS := by decide
theorem witness_ImmediateFormsResult : CoreReady coreS := by decide
theorem witness_MovCopies : CoreReady coreS ∧ EntryReady coreS := by decide
theorem witness_LoadsFromScratchpad : CoreReady coreS ∧ coreS.core.sb = [] ∧ coreS.core.rsLimit = 0 ∧ memLegal 0 1 0 = true ∧
    (coreS.memEa 0 1 0).toNat + 4 = 0x1C0000 := by decide
theorem witness_StoresAreBuffered : CoreReady coreS ∧ coreS.core.sb.length < 4 ∧ coreS.core.rsLimit = 0 ∧ memLegal 0 1 0 = true ∧
    (coreS.memEa 0 1 0).toNat + 4 = 0x1C0000 ∧ (coreS.memEa 0 1 0).toNat % 4 = 0 := by decide
theorem witness_StoreBufferDrains :
    let s := onCore fun c => { c with sb := [{ addr := 0x1BFFFC, data := [1, 2, 3, 4] }] }
    let b := fun (a : Nat) (d : List Byte) => onCore fun c => { c with sb := [{ addr := a, data := d }] }
    State.reset.core.sb = [] ∧ s.MemWf ∧ s.core.sb = { addr := 0x1BFFFC, data := [1, 2, 3, 4] } :: [] ∧ s.mtx.wiping = false ∧
      s.mtx.shadow = none ∧ s.mtx.late = [] ∧ s.clk.shutdown = false ∧
      ∀ x ∈ [(0x1BFFFF, [(7 : Byte)]), (0x1BFFFE, [7, 8]), (0, [9])], (b x.1 x.2).MemWf ∧ (b x.1 x.2).core.sb = { addr := x.1, data := x.2 } :: [] ∧
        x.1 % 4 + x.2.length ≤ 4 ∧ x.1 + x.2.length ≤ 0x1C0000 ∧ (b x.1 x.2).mtx.spmBad = [] := by decide

/-- A7 one byte off. -/
def coreOdd : State := onCore fun c => { c with a7p := 0x1BFFFD }

theorem witness_AddressArithmetic : CoreReady coreS ∧ EntryReady coreS ∧ (7 : BitVec 4).toNat < 8 := by decide
theorem witness_PushPop :
    (CoreReady coreS ∧ coreS.core.sb = [] ∧ coreS.core.rsLimit = 0 ∧ (coreS.ar 7).toNat % 4 = 0 ∧ (coreS.ar 7).toNat = 0x1C0000 - 4) ∧
    (let s := onCore fun c => { c with a7p := 4 }
     CoreReady s ∧ (s.ar 7).toNat = 4) ∧
    CoreReady coreOdd ∧ coreOdd.core.sb = [] ∧ coreOdd.core.rsLimit = 0 ∧ (coreOdd.ar 7).toNat % 4 ≠ 0 ∧ coreOdd.core.atVector = false ∧
      EntryReady coreOdd := by decide
theorem witness_Multiplication :
    let m := fun (t : Nat) => { onCore (fun c => { c with mulQ := [((0 : Word) ++ (1 : Word), 11)] }) with ts := t }
    CoreReady coreS ∧ coreS.core.mulQ = [] ∧ (m 10).clk.shutdown = false ∧ (m 10).core.mulQ = ((0 : Word) ++ (1 : Word), 11) :: [] ∧ 11 + 4 = (m 10).cycle ∧
      (m 9).cycle < 11 + 4 := by decide

/-- Accumulator 0 at -2^71, accumulator 1 at 2^31 - 1, 2 at -2^31 and 3 at 2^31. -/
def coreAcc : State := onCore fun c => { c with acc := #v[2 ^ 71, 2 ^ 31 - 1, -2 ^ 31, 2 ^ 31] }

theorem witness_Accumulators :
    CoreReady coreAcc ∧ (coreAcc.acc 1).toInt = 2 ^ 31 - 1 ∧ (coreAcc.acc 2).toInt = -2 ^ 31 ∧ (coreAcc.acc 3).toInt = 2 ^ 31 ∧
      ((coreAcc.acc 0).sshiftRight 40).toInt = -2 ^ 31 ∧ ((coreAcc.acc 0).sshiftRight 39).toInt < -2 ^ 31 ∧ (63 : BitVec 8).toNat < 64 := by
  decide
theorem witness_Division :
    let z := onCore fun c => { c with accst := 4 }
    (CoreReady coreS ∧ coreS.dr 1 ≠ 0) ∧ (CoreReady z ∧ z.dr 0 = 0 ∧ z.core.accst.getLsbD 2 = true ∧ EntryReady z ∧ z.core.atVector = false) ∧
      (coreS.dr 3 = 0 ∧ coreS.core.accst.getLsbD 2 = false) ∧
      (let f := fun (t : Nat) => { onCore (fun c => { c with div := some (15, 1), divAt := 2 }) with ts := t }
       (f 24).clk.shutdown = false ∧ (f 24).core.div = some ((15 : BitVec 4).toNat, 1) ∧ (f 24).core.divAt + 34 = (f 24).cycle ∧ (f 23).cycle < (f 23).core.divAt + 34) ∧
      coreS.core.div = none := by decide
theorem witness_BranchesAndJumps : CoreReady coreS ∧ (7 : BitVec 4).toNat < 8 := by decide

/-- A return stack with the entries `l`, in the level `p`. -/
def coreRs (p : Bool) (l : List RsEnt) : State := onCore fun c => { c with rs := l, status := if p then 1 else 0 }

theorem witness_CallsAndReturns :
    let e := ({ value := 0x44, kind := 0, tag := true } : RsEnt)
    let s := coreRs true [e]
    let u := coreRs false [e]
    (CoreReady (coreRs true (List.replicate 31 e)) ∧ (coreRs true (List.replicate 31 e)).core.rs.length < 32) ∧
      (CoreReady s ∧ s.core.rs = [e] ∧ e.kind = 0 ∧ e.tag = s.priv) ∧ (CoreReady u ∧ e.tag ≠ u.priv ∧ EntryReady u) ∧
      (CoreReady coreS ∧ coreS.core.rs = [] ∧ coreS.core.rsSpill.toNat ≤ coreS.core.rsBase.toNat ∧ EntryReady coreS) := by decide
theorem witness_TrapAndRete :
    let p := fun (t : Bool) => ({ value := 0x44, kind := 1, tag := t } : RsEnt)
    let q := fun (v : Word) (t : Bool) => ({ value := v, kind := 2, tag := t } : RsEnt)
    let c := ({ value := 0x44, kind := 0, tag := true } : RsEnt)
    let meets := fun (s : State) => decide (CoreReady s ∧ EntryReady s ∧ s.priv = true)
    (CoreReady (coreRs false []) ∧ EntryReady (coreRs false []) ∧ (coreRs false []).priv = false) ∧
      meets (coreRs true [p true, q 1 true]) ∧ meets (coreRs true [p false, q 0 false]) ∧ meets (coreRs true [c, q 1 true]) ∧
      meets (coreRs true [p true, q 0 false]) ∧ meets (coreRs true [p false, q 1 false]) := by decide

/-- A core stopped by WFI. -/
def coreWfi (f : Core → Core) : State := onCore fun c => f { c with st := 2, irqEn := -1, prio := Vector.replicate 8 0x33333333 }

theorem witness_SystemWords :
    let b := onCore fun c => { c with sb := [{ addr := 0x1FFFFC, data := [1, 2, 3, 4] }] }
    let d := { onCore id with sec := { Sec.init with debugOpened := true, scope := 1 } }
    (CoreReady b ∧ ∀ e ∈ b.core.sb, e.addr < 0x200000) ∧ (CoreReady coreS ∧ coreS.sec.debugOpened = false ∧ EntryReady coreS ∧ coreS.priv = true) ∧
      (CoreReady d ∧ d.sec.debugOpened = true ∧ d.sec.zeroising = false ∧ d.sec.scope % 2 = 1) ∧
      ((coreWfi fun c => { c with nmi := true }).core.st = 2 ∧ (coreWfi fun c => { c with nmi := true }).core.nmi = true ∧
        (coreWfi id).clk.shutdown = false) ∧
      (let s := coreWfi fun c => { c with swi := true }
       s.core.st = 2 ∧ ∃ n < 64, s.irqPend n = true ∧ s.core.irqEn.getLsbD n = true ∧
         (s.core.status.toNat / 512) % 8 < ((atV s.core.prio (n / 8) 0).toNat / 2 ^ (4 * (n % 8))) % 8) ∧
      (let s := coreWfi fun c => { c with irqEn := 0 }
       s.core.st = 2 ∧ s.core.nmi = false ∧ ∀ n < 64, s.core.irqEn.getLsbD n = false) := by decide +kernel
theorem witness_PrivilegedWordsTrapInUserMode :
    let s := onCore fun c => { c with status := 0 }
    CoreReady s ∧ EntryReady s ∧ s.priv = false ∧ 2 < (0x10 : BitVec 12).toNat ∧ (s.csr 0x10).isSome = true ∧ csrWritable 0x10 = true := by decide
/-- The core at 0x100, with the NOP word there. -/
def nopS : State := { onCore id with mtx := { Mtx.init with spm := [(0x103, 0x38)] } }
theorem witness_PrivilegedWordsTrapInUserMode_step :
    let n := fun (s : State) => ({ s with ts := s.ts + 1 } : State)
    (nopS.pending = [] ∧ CoreReady (n nopS) ∧ (n nopS).clk.shutdown = false ∧ (n nopS).codeWord = some 0x38000000 ∧
        coreEncode (.nop 0 0) = some 0x38000000) ∧
      ((onCore id).pending = [] ∧ CoreReady (n (onCore id)) ∧ EntryReady (n (onCore id)) ∧ (n (onCore id)).codeWord = some 0) := by decide +kernel
theorem witness_PrivilegedWordsTrapInUserMode_undefined :
    (coreDecode 0 0).isNone ∧ (coreDecode 0x7F000000 0).isNone ∧ (coreDecode 0x0100000E 0).isNone ∧ (coreDecode 0x20000007 0).isNone ∧
      (coreDecode 0x21000004 0).isNone ∧ (coreDecode 0x38000008 0).isNone ∧ (coreDecode 0x2E060000 0).isNone ∧ (coreDecode 0x2E0F0000 0).isNone := by
  decide +kernel
theorem witness_CsrReadsAndWrites :
    CoreReady coreS ∧ coreS.priv = true ∧ EntryReady coreS ∧ (∃ v, (afterWord coreS).csr 0x010 = some v) ∧ (0x010 : BitVec 12) ≠ 1 :=
  ⟨by decide, by decide, by decide, ⟨_, rfl⟩, by decide⟩
theorem witness_RepeatsAndPairs :
    let r := fun (n : Nat) => onCore fun c => { c with rep := some { pfx := 0xFC, left := n, irq := true, got := true } }
    (CoreReady coreS ∧ coreS.core.status.toNat < 2 ^ 23 ∧ EntryReady coreS ∧ (0x01000000 : Word).extractLsb' 24 8 = 0x01 ∧
      (0x28000000 : Word).extractLsb' 24 8 = 0x28 ∧ (0x3D000000 : Word).extractLsb' 24 8 = 0x3D ∧ (0x21000000 : Word).extractLsb' 24 8 = 0x21 ∧
      (0x80000000 : Word).msb = true ∧ coreS.core.sb = [] ∧ coreS.core.rsLimit = 0 ∧ (coreS.ar 0 + 0).toNat + 4 = 0x1C0000 ∧ (coreS.ar 0 + 0).toNat % 4 = 0) ∧
      (∀ n ∈ [1, 2, 256], (r n).core.st = 1 ∧ (r n).core.rep = some { pfx := 0xFC, left := n, irq := true, got := true } ∧ (r n).core.div = none) := by
  decide
theorem witness_RepeatsAndPairs_boundary :
    let r := fun (n : Nat) => onCore fun c => { c with rep := some { pfx := 0xFC, left := n, irq := true, got := true } }
    ∀ n ∈ [1, 2, 256], (r n).nmiReady = false ∧ (r n).irqReady = false ∧ 0 < n ∧ (r n).clk.shutdown = false ∧ (r n).core.pc.toNat < 0x1C0000 := by
  decide

theorem witness_InterruptsAndNmi :
    let s := onCore fun c => { c with status := 0x101, swi := true, irqEn := -1, prio := Vector.replicate 8 0x33333333 }
    let n := onCore fun c => { c with nmi := true }
    (s.clk.shutdown = false ∧ s.core.st = 1 ∧ s.core.rep = none ∧ s.core.div = none ∧ EntryReady s ∧ s.irqBest.isSome = true ∧ s.core.status.getLsbD 8 = true ∧ s.core.nmi = false) ∧
      (coreS.irqBest = none ∧ EntryReady coreS) ∧ (n.core.nmi = true ∧ n.core.status.getLsbD 15 = false ∧ EntryReady n) ∧
      (onCore fun c => { c with status := 0x8001 }).core.status.getLsbD 15 = true ∧
      ((coreS.slotAt 6).valid = false ∧ (coreS.slotAt 7).valid = false ∧ coreS.core.nmiLevel = false) ∧
      (onCore fun c => { c with nmiLevel := true }).core.nmiLevel = true := by decide

/-! Position timebase and output timing: witnesses -/

/-- The device RUNNING at TS 10,000,000 with its outputs enabled. -/
def run0 : State := { State.reset with
  ts := 10000000, sys := { SysState.init with st := .running, outEn := true, mrkLive := true, pdReleased := true } }

/-- Encoder 0, no silent level ahead, as `f` makes it. -/
def onEnc (f : Encoder → Encoder) : State := run0.updEnc 0 fun e => f { e with quietA := false, quietB := false, quietZ := false }

/-- A domain that has run at 20 m/s, with its newest edge 1.25 µs ago. -/
def domOn (l : Lock) : Domain := { Domain.init with
  lock := l, motion := .track, tPrev := some 9999000, v := 2 ^ 32, te := 9999000, pe := 5000, coord := 5000, known := [(9999000, 5000)],
  hwm := 4000, everLocked := true, acc := 3, hist := [(7, 9999000)], lastC := some 7, coastSince := 9000000 }

/-- Domain 0 enabled on ENC_0, 1,000 nm a count. -/
def onDom (f : Domain → Domain) : State :=
  ({ run0 with pos := { run0.pos with dom := run0.pos.dom.set 0 (f (domOn .locked)) } }.setReg (rPosDCtrl 0) 1).setReg64 (rPosDScaleLo 0) (1000 * 2 ^ 32)

/-- Generator 0 on domain 0 at a pitch of 1,000 nm. -/
def onGen (f : Domain → Domain) : State := (((onDom f).setReg (rPosTgCtrl 0) (1 + 2 ^ 7)).setReg (rPosDPitch 0) 1000).setReg (rPosTgPulse 0) 0x00640064

def trigAt (t : Int) : Trig := { id := 4, fire := t, k := 3, target := 6000, x := 6000, phase := 0, coast := false, creep := false, cancelled := false }
def repBack : EdgeReport := { enc := 0, first := 9999900, newest := 9999950, count := 9, up := false }
def spot : Marking := { t := 20000, tEnd := 20000, span := false, start := .pending, stop := .pending, parts := [(20000, 20000, none)] }
def evAt (k : OutKind) (t : Int) : OutEvent := { id := 4, kind := k, time := t }
def onLink (l : List LdMsg) (h : List OutEvent) : State := { run0 with pos := { run0.pos with toLd := l, held := h } }

theorem witness_EncoderEdgesCount :
    let e := fun (a b : Bool) => onEnc fun e => { e with a := a, b := b, qerr := a }
    let m := fun (k : Word) => (onEnc id).setReg (rIoxEncCfg 0) k
    (run0.ts < 10000001 + run0.rf (rIoxEncCfg 0) 15 8) ∧
      (onEnc fun e => { e with lastStamp := some 9999968 }).rf (rIoxEncCfg 0) 15 8 = 0 ∧
      ((e false false).rf (rIoxEncCfg 0) 1 0 = 0 ∧ ((e false false).enc 0).a = false ∧ ((e false false).enc 0).b = false) ∧
      (m 1).rf (rIoxEncCfg 0) 1 0 = 1 ∧ (m 2).rf (rIoxEncCfg 0) 1 0 = 2 ∧ (m 3).rf (rIoxEncCfg 0) 1 0 = 3 ∧ ((m 3).enc 0).a = false ∧
      (((e true true).enc 0).qerr = true ∧ CanReport (e true true) evEncQuadErr 0) ∧ ((e false true).enc 0).qerr = false ∧
      (let q := (onEnc fun e => { e with quietB := true }).setReg (rIoxEncCfg 0) 0x500
       let p := { onEnc id with sys := { run0.sys with resetN := false } }
       run0.sys.powered = true ∧ run0.sys.resetN = true ∧ ((onEnc id).enc 0).quietA = false ∧ (q.enc 0).quietA = false ∧ (q.enc 0).quietB = true ∧
         q.rf (rIoxEncCfg 0) 15 8 = 5 ∧ 9999005 + q.rf (rIoxEncCfg 0) 15 8 ≤ q.ts ∧ p.sys.resetN = false) := by decide +kernel
theorem witness_ZAndGpiEdges :
    let z := (onEnc fun e => { e with count := 77 }).setReg (rIoxEncCfg 0) 8
    (10000000 + run0.rf (rIoxEncCfg 0) 15 8 ≤ run0.ts ∧ run0.rbit (rIoxEncCfg 0) 3 = false) ∧
      (9999990 + z.rf (rIoxEncCfg 0) 15 8 ≤ z.ts ∧ z.rbit (rIoxEncCfg 0) 3 = true ∧ (z.enc 0).z = false) ∧
      ((z.enc 0).quietZ = false ∧ ((onEnc fun e => { e with quietZ := true }).enc 0).quietZ = true) ∧
      (let g := { run0 with res := { run0.res with gpiQuiet := (Vector.replicate 16 false).set 15 true } }
       9990000 + g.rf rIoxGpiFilt 7 0 ≤ g.ts ∧ g.MemWf ∧ g.res.gpi[0] = !true ∧ g.res.gpiQuiet[0] = false ∧ g.res.gpiQuiet[15] = true ∧ g.sys.powered = true ∧ g.sys.resetN = true) := by decide +kernel
theorem witness_ReceiverFaults :
    let c := (onDom fun m => { m with lock := .coast }).updEnc 0 fun e => { e with rxfA := true }
    ((onDom id).encFaulty 0 = false ∧ (onDom id).domsOn 0 = [(0 : Fin 16).val] ∧ (onDom id).dCheckEn 0 = false ∧ ((onDom id).dom 0).lock = .locked ∧
        (onDom id).peat.queue.length + 3 ≤ 1024) ∧
      run0.domsOn 0 = [] ∧
      (c.domsOn 0 = [0] ∧ c.encFaulty 0 = true ∧ ((c.enc 0).setRxf .a false).rxfA = false ∧ ((c.enc 0).setRxf .a false).rxfB = false ∧
        (c.dom 0).lock = .coast) := by decide +kernel
theorem witness_ReceiverFaults_clear :
    let c := (onDom fun m => { m with lock := .off }).updEnc 0 fun e => { e with rxfA := true }
    (∀ d : Fin 16, (run0.cwAt d).standby = false) ∧ c.domsOn 0 = [0] ∧ c.encFaulty 0 = true ∧ (c.dom 0).lock = .off := by decide +kernel
theorem witness_MotionAndLockTimers :
    let c := onDom fun m => { m with lock := .coast, coastSince := 8400000, hwm := 100000000 }
    (c.clk.shutdown = false ∧ (c.dom 0).tPrev = some 9999000 ∧ (c.dom 0).motion ≠ .stopped) ∧
    ((onDom id).rootDom 0 = 0 ∧ ((onDom id).dom 0).tPrev = some 9999000 ∧ ((onDom id).dom 0).lock = .locked ∧ ((onDom id).dom 0).motion = .track) ∧
      ((onDom fun m => { m with tPrev := some 0 }).dom 0).tPrev = some 0 ∧
      (c.rootDom 0 = 0 ∧ (c.dom 0).lock = .coast ∧ (c.dom 0).coastSince + 1600000 = c.ts ∧ (∀ g : Fin 32, c.pos.gen[g].gated = []) ∧
        c.coordNow 0 ≤ (c.dom 0).hwm) ∧
      (onDom fun m => { m with lock := .coast, coastSince := 8400001 }).ts < 8400001 + 1600000 := by decide +kernel
theorem witness_MotionAndLockTimers_shadow :
    let s := fun (f g : Domain → Domain) => { onDom f with pos := { (onDom f).pos with shadowDom := (onDom f).pos.shadowDom.set 0 (g (domOn .locked)) } }
    let old := fun (m : Domain) => { m with tPrev := some 0 }
    ((s id id).pos.shadowDom[0].tPrev = some 9999000 ∧ (s id id).ts ≤ 9999000 + (s id id).dCreepT 0 ∧ (s id id).ts < 9999000 + (s id id).dTStop 0) ∧
      (0 + (s id old).dCreepT 0 < (s id old).ts ∧ (s id old).pos.shadowDom[0].motion ≠ .stopped ∧ 0 + (s id old).dTStop 0 ≤ (s id old).ts) ∧
      ((s old fun m => { m with motion := .stopped }).pos.shadowDom[0].motion = .stopped) ∧
      (onDom id).pos.shadowDom[0].tPrev = none ∧ ((onDom fun m => { m with lock := .acquire }).dom 0).lock = .acquire ∧
      ((onDom fun m => { m with motion := .reverse }).dom 0).motion ≠ .stopped := by decide +kernel
theorem witness_ReportsAndChecks :
    let r := { onDom id with pos := { (onDom id).pos with reports := [repBack] } }
    let o := (onDom id).updEnc 0 fun e => { e with openRep := some repBack }
    let k := fun (a b : Int) => ((((onDom id).setReg (rPosDCtrl 0) (1 + 2 ^ 6 + 2 ^ 8 + 2 ^ 16)).setReg64 (rPosDCscaleLo 0) (1000 * 2 ^ 32)).updEnc 0 fun e =>
      { e with count := a }).updEnc 1 fun e => { e with count := b }
    let dist := fun (a b : Int) =>
      ((k a b).encCount ((k a b).dEncSel 0) * ((k a b).reg64 (rPosDScaleLo 0) : Int) / 2 ^ 32,
        (k a b).encCount ((k a b).dCheckEnc 0) * ((k a b).reg64 (rPosDCscaleLo 0) : Int) / 2 ^ 32)
    (((onDom id).updEnc 0 fun e => { e with closed := [repBack] }).enc 0).closed = [repBack] ∧
      ((o.enc 0).closed = [] ∧ (o.enc 0).openRep = some repBack) ∧
      (let q := { run0 with pos := { run0.pos with reports := [repBack] } }
       q.pos.reports = [repBack] ∧ (∀ d < 16, q.dEn d = false) ∧ q.res.held = []) ∧
      (r.pos.reports = [repBack] ∧ r.rootDom 0 = 0 ∧ (∀ e < 16, e ≠ 0 → r.dEn e = false) ∧ r.onEncoder 0 = true ∧ r.dEncNow 0 = repBack.enc ∧
        (r.dom 0).lock = .locked ∧ r.encFaulty repBack.enc = false ∧
        r.encInvert repBack.enc = repBack.up) ∧
      ((k 0 0).rootDom 0 = 0 ∧ (k 0 0).clk.shutdown = false ∧ (k 0 0).dCheckEn 0 = true ∧ ((k 0 0).dom 0).onCheck = false ∧ ((k 0 0).dom 0).everLocked = true ∧
        (k 0 0).onEncoder 0 = true ∧ CanReport (k 0 0) evPosCheckDiff 0 ∧ (k 0 0).dCheckTol 0 = 1 ∧ ((k 0 0).dom 0).cmpP = 0 ∧ ((k 0 0).dom 0).cmpC = 0) ∧
      dist 999999 0 = (999999000, 0) ∧ dist 1000000 1000001 = (1000000000, 1000001000) ∧ dist 1000000 1000002 = (1000000000, 1000002000) := by decide +kernel
/-- A forward edge at count `c` on a domain with one sample, a T_MIN of `tm` µs and a CREEP_T of `cr` x 10 µs. -/
def onFwd (c : Int) (tm cr : Nat) : State :=
  let s := (onGen fun m => { m with hist := [(7, 9900000)], tPrev := some 9900000, hwm := 9000 }).setReg (rPosDEst 0) (w32 (65536 * cr + 256 * tm + 1))
  { s with pos := { s.pos with reports := [{ repBack with count := c, up := true, first := 9999950 }] } }
theorem witness_ReportsAndChecks_forward :
    let q := onFwd 10 200 25
    (q.clk.shutdown = false ∧ q.pos.reports = [{ repBack with count := 10, up := true, first := 9999950 }] ∧ q.rootDom 0 = 0 ∧
        (∀ e < 16, e ≠ 0 → q.dEn e = false) ∧ q.onEncoder 0 = true ∧ q.dEncNow 0 = 0 ∧ (q.dom 0).lock = .locked ∧ (q.dom 0).everLocked = true ∧
        q.encFaulty 0 = false ∧ true = !q.encInvert 0 ∧ (q.dom 0).hist = [(7, 9900000)] ∧ (q.dom 0).tPrev = some 9900000) ∧
      (q.gensOf 0 = [0] ∧ q.live = true ∧ q.psq.gateOff[0] = false ∧ 0 < q.dPitch 0 ∧ 0 < q.dScale 0 ∧ q.pos.gen[0].prevFire = none ∧
        q.pos.gen[0].lossFrom = none ∧ q.rbit (rPosTgPhase 0) 21 = false ∧ ¬ 9900000 + q.dTMin 0 ≤ 9999950) ∧
      (q.target 0 (q.nextLine 0) = (q.dom 0).base + (10 - (q.dom 0).c0) * (q.dScale 0 : Int) / 2 ^ 32 ∧
        q.target 0 (q.nextLine 0 + (q.gDiv1 0 : Int)) = 11000) ∧
      ((onFwd 9 200 25).dScale 0 = 1000 * 2 ^ 32 ∧ (onFwd 9 200 25).target 0 ((onFwd 9 200 25).nextLine 0) = 10000) ∧
      (9900000 + (onFwd 10 124 25).dTMin 0 ≤ 9999950 ∧ 7 + ((onFwd 10 124 25).dNMin 0 : Int) ≤ 10 ∧ (onFwd 10 124 12).dCreepT 0 < 99950 ∧
        2 * 99950 ≤ (onFwd 10 124 25).dCreepT 0 ∧ (onFwd 10 124 13).dCreepT 0 < 2 * 99950 ∧ 99950 ≤ (onFwd 10 124 13).dCreepT 0) := by decide +kernel
/-- Trigger 4 of generator 0 due now, by path OUT `o`. -/
def onFire (o : Nat) : State :=
  let s := (onGen id).setReg (rPosTgCtrl 0) (w32 (1 + 2 ^ 7 * o))
  { s with pos := { s.pos with held := [evAt (.trg 0) 160000000], gen := s.pos.gen.set 0 { s.pos.gen[0] with trigs := [trigAt 160000000] } } }
theorem witness_OutputEventsAndPulses_trigger :
    let b := (onFire 1).setReg rIoxTrgEn 1
    let l := { (onFire 2).setReg (rIglLCtrl 0) 1 with lane := run0.lane.set 0 { Lane.init with phase := .up } }
    (b.pos.held = [evAt (.trg 0) 160000000] ∧ (160000000 : Int) = 16 * (b.ts : Int) ∧ b.pos.gen[0].trigs = [trigAt 160000000] ∧
        b.live = true ∧ b.gOut 0 = 1 ∧ b.sys.outEn = true ∧ b.rbit rIoxTrgEn 0 = true ∧ b.gBall 0 = 0) ∧
      ((onFire 1).rbit rIoxTrgEn 0 = false) ∧ (l.gOut 0 = 2 ∧ l.live = true ∧ l.lPers 0 = 1 ∧ l.laneUp 0 = true ∧ l.genLead 0 = 0) ∧
      (let m := (onLink [] [evAt (.mrkOff 7) 160000000])
       m.pos.held = [evAt (.mrkOff 7) 160000000] ∧ (160000000 : Int) ≤ 16 * (m.ts : Int) ∧ m.sys.outEn = true) := by decide +kernel
theorem witness_OutputEventsAndPulses :
    let m := (onDom id).updMkr 0 fun k => { k with queue := [{ spot with start := .committed 4 160000000 }] }
    let h := { m with pos := { m.pos with held := [evAt (.mrkOn 0) 160000000] } }
    let l := (onDom fun m => { m with lock := .lost }).updMkr 0 fun k => { k with pulseEnd := some 160000000 }
    (run0.sys.dieLink = true ∧ { run0 with sys := { run0.sys with dieLink := false } }.sys.dieLink = false) ∧
      (16 * (run0.ts : Int) = 160000000 ∧ (onLink [.event (evAt (.trg 0) 160000000)] []).pos.toLd = [.event (evAt (.trg 0) 160000000)] ∧
        ∀ t ∈ (onLink [.event (evAt (.trg 0) 159999999)] []).pos.gen[0].trigs, t.id ≠ 4) ∧
      (onLink [.cancel 4] [evAt (.mrkOn 0) 160000000]).pos.held.find? (fun x => x.id == 4) = some (evAt (.mrkOn 0) 160000000) ∧
      (onLink [.cancel 4] [evAt (.mrkOn 0) 160000001]).pos.held.find? (fun x => x.id == 4) = some (evAt (.mrkOn 0) 160000001) ∧
      (onLink [] [evAt (.phase 0 14 3) 160000000]).pos.held = [evAt (.phase 0 14 3) 160000000] ∧
      ((onLink [.event (evAt (.phase 31 14 3) 159999999)] []).pos.toLd = [.event (evAt (.phase 31 14 3) 159999999)] ∧ (159999999 : Int) < 16 * (run0.ts : Int)) ∧
      (h.pos.held = [evAt (.mrkOn 0) 160000000] ∧ h.mkSpan 0 = false ∧ h.sys.outEn = true ∧
        h.mrk[0].queue = [{ spot with start := .committed 4 160000000 }]) ∧
      ({ run0 with pos := { run0.pos with trgEnd := run0.pos.trgEnd.set 15 (some 160000000) } }).pos.trgEnd[15] = some 160000000 ∧
      (l.mrk[0].pulseEnd = some 160000000 ∧ (l.dom (l.mkDom 0)).lock = .lost) := by decide +kernel
theorem witness_CommitWithinTheHorizon :
    let far := onGen fun m => { m with hwm := 100000 }
    let near := (onGen id).setReg rPosCtrl 0xFFFF
    let mk := fun (t : Int) => (((onDom id).updMkr 0 fun k => { k with queue := [{ spot with t := t }] }).setReg rPosCtrl 0xFFFF)
    let msg : FabMsg := { src := 3, nosrc := false, tc := 2, mtype := 0x10, payload := [1, 0x20, 0, 0] ++ leBytes 8 5000000 ++ leBytes 8 6000000 }
    (far.genReady 0 = true ∧ 0 < (far.dom (far.gDom 0)).v ∧ far.commit16 < far.predictFire 0 - 16 * (far.ts : Int)) ∧
      (near.genReady 0 = true ∧ 0 < (near.dom (near.gDom 0)).v ∧ near.predictFire 0 - 16 * (near.ts : Int) ≤ near.commit16 ∧
        near.pos.gen[0].prevFire = none ∧ near.rbit (rPosTgPhase 0) 21 = false ∧ near.pos.gen[0].lossFrom = none) ∧
      ((mk 20000).mrk[0].queue = [spot] ∧ (mk 20000).mkPred 0 = true ∧
        12800 ≤ (mk 20000).mkFire 0 20000 - 16 * ((mk 20000).ts : Int) ∧ (mk 20000).mkFire 0 20000 - 16 * ((mk 20000).ts : Int) ≤ (mk 20000).commit16) ∧
      ((mk 100000).mkPred 0 = true ∧ (mk 100000).commit16 < (mk 100000).mkFire 0 100000 - 16 * ((mk 100000).ts : Int)) ∧
      (let s := { run0 with fab := { FabCore.init with inbox := [msg] } }
       s.fab.inbox = [msg] ∧ msg.mtype = 0x10 ∧ s.pos.ttCopy = [] ∧ s.res.held = []) := by decide +kernel

/-! Ingress lanes and slices: witnesses -/

/-- The 64 bits on the wire that give payload `v` after the bits `st` (R72). -/
def scramble (st v : Nat) : Nat :=
  ((List.range 64).foldl (fun c i => c + 2 ^ (58 + i) * ((v / 2 ^ i + c / 2 ^ (19 + i) + c / 2 ^ i) % 2)) st) / 2 ^ 58
/-- Words of these sync headers and payloads, in turn. -/
def wordsOf (st : Nat) : List (BitVec 2 × Nat) → List KslWord
  | [] => []
  | (h, v) :: r =>
    let w := scramble st v
    { sync := h, bits := BitVec.ofNat 64 w } :: wordsOf ((st + w * 2 ^ 58) / 2 ^ 64) r
/-- The first word of a lane in the state of `Lane.init`. -/
def word0 (h : BitVec 2) (v : Nat) : KslWord := { sync := h, bits := BitVec.ofNat 64 (scramble 0 v) }

/-- Lane 0 in a phase it entered 1,000 TS units ago. -/
def laneOn (p : LanePhase) (f : Lane → Lane) : State := { run0 with lane := run0.lane.set 0 (f { Lane.init with phase := p, since := 9999000 }) }
/-- The same with the personality of a KSL lane. -/
def kslOn (p : LanePhase) (f : Lane → Lane) : State := (laneOn p f).setReg (rIglLCtrl 0) 1

def trigRec0 : TrigRec := {
  line := 3, x := 6000, phase := 0, coast := false, creep := false, free := false, fire := 160000000, wire := none, stampErr := false,
  bad := false, seen := [], done := false, blks := [] }

/-- A management block's header of 16 bytes, SEQ 0, and a payload of one pixel group's size. -/
def mgHdr : List Byte := [0x4D, 1, 0, 0, 0, 0, 0, 0, 0, 0, 0, 0, 0, 0, 0, 0]
def mgPay : List Byte := List.replicate 16 7

theorem witness_LaneTraining :
    let a := kslOn .capability fun l => { l with
      capA := some [0x2D, 1], capPair := some ([0x2D, 1], leBytes 8 0x2E), since := 6000000, lastTrain := 9920000 }
    let v := fun (s : State) (w : KslWord) => (descramble s.lane[0].descr w.bits.toNat).1
    let agrees := 0x2D + 256 + 2 ^ 24 * a.rf (rIglLHead 0) 15 8
    let late := fun (p : LanePhase) (t : Nat) => kslOn p fun l => { l with since := t, failed := 2 }
    run0.clk.shutdown = false ∧ LaneFree a 0 ∧ ((kslOn .bcLock fun l => { l with since := 6000000 }).lane[0].since + 4000000 = 10000000 ∧ run0.ts = 10000000) ∧
      (∀ p ∈ [LanePhase.bcLock, .equalise, .blockLock, .up], LaneFree (kslOn p id) 0 ∧ (kslOn p id).lane[0].phase = p) ∧
      (a.lane[0].lastTrain + 80000 = a.ts ∧ (kslOn .equalise fun l => { l with lastTrain := 9920001 }).ts < 9920001 + 80000) ∧
      ((kslOn .equalise fun l => { l with since := 0 }).ts ≤ 0 + 16000000 ∧ (kslOn .blockLock fun l => { l with since := 2000000 }).ts = 2000000 + 8000000) ∧
      (a.lane[0].phase = .capability ∧ a.ts ≤ a.lane[0].since + 4000000 ∧ a.lane[0].capA = some [0x2D, 1] ∧ a.lane[0].retraining = false ∧
        (word0 2 0x2E).sync = 2 ∧ v a (word0 2 0x2E) % 256 = 0x2E ∧ a.lane[0].capPair = some ([0x2D, 1], leBytes 8 (v a (word0 2 0x2E))) ∧
        a.lane[0].capPair ≠ some ([0x2D, 1], leBytes 8 (v a (word0 2 0x12E))) ∧ v a (word0 2 0x12E) % 256 = 0x2E) ∧
      (v a (word0 2 agrees) % 256 = 0x2D ∧ a.capAgrees 0 (leBytes 8 (v a (word0 2 agrees))) = true ∧ v a (word0 2 0x2D) % 256 = 0x2D ∧
        a.capAgrees 0 (leBytes 8 (v a (word0 2 0x2D))) = false) ∧
      ((late .blockLock 1999999).lane[0].since + 8000000 < (late .blockLock 1999999).ts ∧ CanReport (late .blockLock 1999999) evIglLaneDown 0 ∧
        2 ≤ (late .blockLock 1999999).lane[0].failed ∧ LaneFree (late .blockLock 1999999) 0) ∧
      ((late .capability 5999999).lane[0].since + 4000000 < (late .capability 5999999).ts) ∧
      (let s := { kslOn .equalise (fun l => { l with since := 0 }) with ts := 16000001 }
       s.lane[0].since + 16000000 < s.ts ∧ s.lane[0].failed < 2 ∧ CanReport s evIglLaneDown 0 ∧ LaneFree s 0) := by decide +kernel
theorem witness_LaneTraining_grade :
    (kslOn .capability id).laneDisabled 0 = false := by decide +kernel
theorem witness_LanesGoDown :
    let u := kslOn .up fun l => { l with syncLoss := true, lastIdle := 9992000 }
    run0.clk.shutdown = false ∧ LaneFree u 0 ∧ (LaneFree (kslOn .bcLock id) 0 ∧ (kslOn .bcLock id).lane[0].phase ≠ .up ∧ (kslOn .up id).lane[0].syncLoss = false) ∧
      (u.lane[0].phase = .up ∧ (∀ r ∈ u.record (u.headGen 0), r.done = true) ∧ CanReport u evIglLaneDown 0 ∧ CoreMayAccess u ∧
        u.lane[0].syncLoss = true ∧ u.lane[0].lastIdle + 8000 = u.ts) ∧
      (kslOn .up fun l => { l with lastIdle := 9992001 }).ts < 9992001 + 8000 ∧
      (LaneFree (kslOn .failed id) 0 ∧ (kslOn .failed id).lane[0].phase = .failed ∧ CoreMayAccess (kslOn .failed id)) := by decide +kernel
/-- `State.FieldsGood`, as a check that runs. -/
def fieldsOk (s : State) (o : Nat) : Bool :=
  match regSpec o with
  | some r => r.fields.all fun f => f.acc != .rw || f.allows r.reset (f.val (s.reg o).toNat)
  | none => true
theorem fieldsGood_of_ok {s : State} {o : Nat} (h : fieldsOk s o = true) : s.FieldsGood o := by
  intro r hr f hf ha
  simp only [fieldsOk, hr, List.all_eq_true] at h
  simpa [ha] using h f hf
theorem witness_LanesGoDown_fields : (kslOn .up id).FieldsGood (rIglLCtrl 0) ∧ (kslOn .failed id).FieldsGood (rIglLCtrl 0) :=
  ⟨fieldsGood_of_ok (by decide +kernel), fieldsGood_of_ok (by decide +kernel)⟩
/-- A block's reads: header, payload and TERM word. -/
def mgWords (t : Nat) : List (BitVec 2 × Nat) :=
  [(2, fieldAt mgHdr 0 8), (1, fieldAt mgHdr 8 8), (1, fieldAt mgPay 0 8), (1, fieldAt mgPay 8 8), (2, t)]
def mgTerm : Nat := 0xE1 + 256 * crc32c (mgHdr ++ mgPay)
theorem witness_SelectiveRepeat_words :
    let up := kslOn .up id
    let r := fun (s : State) (w : KslWord) => (s.lane[0].takeWord w).1
    (r up (word0 0 5) = .bad ∧ (word0 3 5).sync ≠ 2 ∧ (r up (word0 1 0x1E) = .data 0x1E) ∧ (word0 1 0x1E).sync ≠ 2) ∧
      (r up (word0 2 0x77) = .ctl 0x77 ∧ ctlKnown 0x77 = false ∧ r up (word0 2 0xE1) = .ctl 0xE1 ∧ ctlKnown 0xE1 = true) ∧
      (r up (word0 2 0x4B) = .ctl 0x4B ∧ r up (word0 2 0x4D) = .ctl 0x4D ∧ up.lane[0].phase = .up) ∧
      (run0.lane[0].phase ≠ .up ∧ r run0 (word0 2 0x1E) = .ctl 0x1E) ∧
      (∀ k ∈ [1, 8], r up (word0 2 (0x1E + 256 * k)) = .ctl (0x1E + 256 * k) ∧ (0x1E + 256 * k) / 256 % 65536 = (up.lane[0].base + k) % 65536) ∧
      (LaneFree up 0 ∧ up.lane[0].got = [] ∧ up.lane[0].missing = [] ∧ up.lane[0].top = up.lane[0].base) ∧
      ∃ t, exec (.kslStrayWord { lane := 0, word := word0 1 5 }) run0 = .next t :=
  ⟨by decide +kernel, by decide +kernel, by decide +kernel, by decide +kernel, by decide +kernel, by decide +kernel, _, rfl⟩
theorem witness_SelectiveRepeat_blocks :
    let sr := (kslOn .up id).setReg (rIglLSr 0) 0x10101010
    let rs := fun (ws : List (BitVec 2 × Nat)) => (sr.lane[0].takeWords (wordsOf 0 ws)).1
    (kslBlockOf (rs (mgWords mgTerm)) = some (mgHdr, mgPay) ∧ (wordsOf 0 (mgWords mgTerm)).length = 5 ∧ mgPay.length = 16 * (fieldAt mgHdr 4 1 + 1)) ∧
      (kslBlockOf (rs (mgWords (mgTerm + 256))) = none ∧ kslBlockOf (rs ((2, 0x4D) :: mgWords mgTerm)) = none ∧ run0.lane[0].phase ≠ .up) ∧
      (let h := mgHdr.set 1 2
       sr.kslHeaderOk 0 h = false ∧
         kslBlockOf [.ctl (fieldAt h 0 8), .data (fieldAt h 8 8), .data (fieldAt mgPay 0 8), .data (fieldAt mgPay 8 8), .ctl (0xE1 + 256 * crc32c (h ++ mgPay))] =
           some (h, mgPay)) ∧
      (sr.lane[0].phase = .up ∧ sr.kslHeaderOk 0 mgHdr = true ∧ fieldAt mgHdr 0 1 = 0x4D ∧ fieldAt mgHdr 1 1 = 1 ∧
        fieldAt mgHdr 2 2 = sr.lane[0].base % 65536 ∧ sr.lane[0].got = [] ∧ sr.lane[0].lost = [] ∧ sr.lane[0].top = sr.lane[0].base ∧
        sr.lane[0].rxReady = false ∧ 2 ≤ sr.rf (rIglLSr 0) 31 24 ∧ sr.lane[0].ackCnt = 0) := by decide +kernel
/-- A lane of 16 pixels of 8 bits, UP, its head's only one, with record `h`. -/
def lineOn (ctl : Word) (h : List TrigRec) : State :=
  let s := (((kslOn .up id).setReg (rIglLCtrl 0) ctl).setReg (rIglLSr 0) 0x10101010).setReg (rIglLHead 0) 0x800
  { s.setReg (rIglLLine 0) 16 with heads := run0.heads.set 0 h }
/-- A line block for it of LINE 3, its descriptor that of `trigRec0`. -/
def lnHdr (f : Byte) : List Byte := [0x4B, f, 0, 0, 1, 0, 0, 0, 3, 0, 0, 0, 8, 0, 0, 0]
def lnPay (x : Nat) : List Byte := leBytes 8 x ++ leBytes 8 0 ++ (List.range 16).map (BitVec.ofNat 8)
def lnWords (f : Byte) (x : Nat) : List (BitVec 2 × Nat) :=
  (2, fieldAt (lnHdr f) 0 8) :: (1, fieldAt (lnHdr f) 8 8) :: ((List.range 4).map fun i => ((1 : BitVec 2), fieldAt (lnPay x) (8 * i) 8)) ++
    [(2, 0xE1 + 256 * crc32c (lnHdr f ++ lnPay x))]
theorem witness_SelectiveRepeat_lines :
    let s := lineOn 1 [trigRec0]
    let d := lineOn 1 [{ trigRec0 with done := true }]
    (s.clk.shutdown = false ∧ s.laneHears 0 = true ∧ s.lane[0].phase = .up ∧ s.lane[0].got = [] ∧ s.lane[0].lost = [] ∧ s.lane[0].top = s.lane[0].base ∧
        s.lane[0].ackCnt + 1 < s.rf (rIglLSr 0) 31 24) ∧
      (∀ f ∈ [(0x31 : Byte), 0x11], ∀ x ∈ [6000, 6001], kslBlockOf (s.lane[0].takeWords (wordsOf 0 (lnWords f x))).1 = some (lnHdr f, lnPay x) ∧
        s.kslHeaderOk 0 (lnHdr f) = true ∧ fieldAt (lnHdr f) 0 1 = 0x4B ∧ fieldAt (lnHdr f) 2 2 = s.lane[0].base % 65536 ∧
        bitN (fieldAt (lnHdr f) 1 1) 4 = true ∧ bitN (fieldAt (lnHdr f) 1 1) 5 = (f == 0x31) ∧ fieldAt (lnHdr f) 6 2 = 0 ∧
        bitN (fieldAt (lnPay x) 12 1) 4 = false ∧ trigRec0.differs ((lnPay x).take 16) = (x == 6001)) ∧
      (s.lFree 0 = false ∧ s.record (s.headGen 0) = [trigRec0] ∧ trigRec0.free = false ∧ trigRec0.bad = false ∧ trigRec0.line = fieldAt (lnHdr 0x31) 8 4 ∧
        trigRec0.stampErr = false ∧ trigRec0.done = false ∧ trigRec0.blks = [] ∧ CanReport s evIglOrphan 0) ∧
      (d.record (d.headGen 0) = [{ trigRec0 with done := true }] ∧ CanReport d evIglOrphan 0) ∧
      ((lineOn 1 []).record 0 = [] ∧ atV (lineOn 1 []).orphans 0 [] = [] ∧ CanReport (lineOn 1 []) evIglOrphan 0 ∧ (lineOn 9 []).lFree 0 = true ∧
        (lineOn 9 []).laneHears 0 = true ∧ (lineOn 9 []).kslHeaderOk 0 (lnHdr 0x11) = true) ∧
      (s.headPlanes 0 = 1 ∧ s.lLanes 0 = 1 ∧ s.lIdx 0 = 0 ∧ 0 < s.headDepth 0 ∧ s.headPixels 0 ≤ 8 * ((lnPay 6000).drop 16).length / s.headDepth 0 ∧
        s.rbit (rLcuSCtrl (s.genLead 0)) 0 = false ∧ (s.gen 0).gated = [] ∧ s.MemWf) :=
  ⟨by decide +kernel, by decide +kernel, by decide +kernel, by decide +kernel, by decide +kernel, by decide +kernel⟩
theorem witness_SelectiveRepeat_timers :
    let up := kslOn .up
    let m := fun (r t : Nat) => up fun l => { l with missing := [{ seq := 0, reqs := r, last := t }], top := 1 }
    let ak := fun (u : Nat) => (up fun l => { l with ackFirst := some u, lastAck := 9992000 }).setReg (rIglLSr 0) 0x10101010
    let tr := fun (t : Nat) => { run0 with heads := run0.heads.set 0 [trigRec0], ts := t }
    (run0.lane[0].phase ≠ .up ∧ (up id).lane[0].missing = [] ∧ (up id).lane[0].ackFirst = none) ∧
      (LaneFree (m 2 0) 0 ∧ (m 2 0).ts ≥ 0 + (m 2 0).rf (rIglLSr 0) 15 8 * 800 ∧
        ((m 2 9999999).setReg (rIglLSr 0) 0x10101010).ts < 9999999 + ((m 2 9999999).setReg (rIglLSr 0) 0x10101010).rf (rIglLSr 0) 15 8 * 800) ∧
      (LaneFree (m 3 0) 0 ∧ (m 3 0).lane[0].missing = [{ seq := (m 3 0).lane[0].base, reqs := 3, last := 0 }] ∧ (m 3 0).lane[0].got = [] ∧
        (m 3 0).lane[0].lost = [] ∧ (m 3 0).lane[0].goods = []) ∧
      (LaneFree (ak 9998720) 0 ∧ (ak 9998720).lane[0].ackFirst = some 9998720 ∧ 9998720 + (ak 9998720).rf (rIglLSr 0) 23 16 * 80 = (ak 9998720).ts ∧
        (ak 9998721).ts < 9998721 + (ak 9998721).rf (rIglLSr 0) 23 16 * 80) ∧
      ((ak 0).lane[0].lastAck + 8000 = (ak 0).ts ∧ (up fun l => { l with lastAck := 9992001 }).ts < 9992001 + 8000) ∧
      ((tr 10000000).genLead ((tr 10000000).headGen 0) = 0 ∧ (tr 10000000).record ((tr 10000000).headGen 0) = [trigRec0] ∧ trigRec0.done = false ∧
        16 * ((tr 10000000).ts : Int) < trigRec0.fire + (tr 10000000).lineTo16 0) ∧
      (trigRec0.fire + (tr 20000000).lineTo16 0 ≤ 16 * ((tr 20000000).ts : Int) ∧ run0.genLead (run0.headGen 1) ≠ (1 : Fin 32).val) := by decide +kernel
theorem witness_SelectiveRepeat_hears :
    let g := { run0 with otp := { Otp.init with grade := 1 } }
    (kslOn .up id).laneHears 0 = true ∧ (laneOn .off id).laneHears 0 = false ∧ (g.laneDisabled 24 = true ∧ g.laneHears 24 = false) ∧
      g.laneDisabled 23 = false := by decide +kernel
theorem witness_ManagementMessages :
    let four := fun (f : Lane → Lane) => kslOn .up fun l => f { l with mgTx := [1, 2, 3, 4] }
    let t := four id
    let busy := four fun l => { l with mgEnd := 2 ^ 40 }
    let near := let s := (four id).setReg (rPosTgCtrl 0) (1 + 2 * 2 ^ 7)
      { s with pos := { s.pos with gen := s.pos.gen.set 0 { s.pos.gen[0] with trigs := [trigAt 160000512] } } }
    let r := laneOn .up fun l => { l with mgRx := List.replicate 16 9, rxReady := true, mgPos := 12 }
    (CoreMayAccess run0 ∧ run0.txBusy 0 = false ∧ run0.lane[0].mgTx.length ≤ 60) ∧ (CoreMayAccess busy ∧ busy.txBusy 0 = true) ∧
      (CoreMayAccess t ∧ t.lane[0].mgTx.length = (4 : BitVec 7).toNat ∧ t.txBusy 0 = false ∧ t.lane[0].phase = .up ∧ LaneFree t 0 ∧ t.MemWf) ∧
      ((laneOn .off fun l => { l with mgTx := [1] }).lane[0].phase = .off ∧ (laneOn .failed fun l => { l with mgTx := [1] }).lane[0].phase = .failed) ∧
      (near.lane[0].phase = .up ∧ near.lPers 0 = 1 ∧ near.lane[0].bcq = [] ∧ near.txBusy 0 = false ∧ near.MemWf ∧
        near.nextTts 0 = some (ttsBit 160000512) ∧ ttsBit 160000512 < near.bcStart 0 + 10 * (((4 : BitVec 7).toNat : Int) + 6)) ∧
      ((t.setReg (rIglLCtrl 0) 2).lPers 0 = 2 ∧ (t.setReg (rIglLCtrl 0) 2).MemWf ∧ (t.setReg (rIglLCtrl 0) 2).txBusy 0 = false) ∧
      (CoreMayAccess r ∧ r.lane[0].rxReady = true ∧ r.lane[0].mgPos + 4 = r.lane[0].mgRx.length) ∧
      (1 ≤ (64 : BitVec 7).toNat ∧ (64 : BitVec 7).toNat ≤ 64 ∧ run0.rf (rIglLCtrl 0) 1 0 ≠ 2) ∧
      (let c := (laneOn .up id).setReg (rIglLCtrl 0) 2
       c.clk.shutdown = false ∧ c.rf (rIglLCtrl 0) 1 0 = 2 ∧ c.lane[0].rxReady = false ∧ (List.replicate 256 (0 : Byte)).length ≤ 256) :=
  ⟨by decide +kernel, by decide +kernel, by decide +kernel, by decide +kernel, by decide +kernel, by decide +kernel, by decide +kernel,
    by decide +kernel, by decide +kernel⟩
theorem witness_ManagementMessages_streams :
    let c := fun (h : List TrigRec) => lineOn 2 h
    let r := (c [trigRec0]).setReg (rIglLLto 0) 0x10000000
    ((c []).clk.shutdown = false ∧ (c []).rf (rIglLCtrl 0) 1 0 = 2 ∧ (c []).laneDisabled 0 = false ∧ (c []).lFree 0 = false ∧
        (c []).record ((c []).headGen 0) = [] ∧ (c []).genLead 0 < 32 ∧ CanReport (c []) evIglOrphan 0) ∧
      (({ c [] with lane := run0.lane.set 0 { Lane.init with cxpSkip := true } }).laneAt 0).cxpSkip = true ∧
      (r.record (r.headGen 0) = [trigRec0] ∧ trigRec0.wire = none ∧ r.lineDue (r.genLead 0) trigRec0 = false ∧ CanReport r evIglCfgMismatch 0 ∧
        r.headPlanes 0 = 1 ∧ r.headPixels 0 = 16) := by decide +kernel

def sliceOn (f : Slice → Slice) : State := { run0 with slice := run0.slice.set 0 (f Slice.init) }
def outLine0 : OutLine := {
  m := 3, q := 0, y := 3000, line := 3, flags := 0, sat := 0, pix := [1, 2, 3], filled := false, formed := 9999000, waits := false }

/-- Table set 0 of lead lane 0: flat-field table at 64, defect map of one entry at 128, x-map at 192; the blend table at 256. -/
def tab0 : List Byte :=
  [0, 1, 1, 0] ++ leBytes 4 64 ++ leBytes 4 128 ++ leBytes 4 192 ++ leBytes 4 256 ++ leBytes 12 0 ++ leBytes 32 0 ++
    (leBytes 4 0x40000000 ++ leBytes 4 0x40008000 ++ leBytes 4 0xFFFF0000 ++ leBytes 52 0) ++ (leBytes 4 1 ++ leBytes 60 0) ++
    (leBytes 4 0x00010001 ++ leBytes 4 0x00040001 ++ leBytes 4 0 ++ leBytes 52 0) ++ (leBytes 2 0x400 ++ leBytes 62 0)
/-- Slice 0 enabled with control bits `c`, three pixels of 8 bits, a line pitch of 1,000 nm, and table set 0 in its active bank. -/
def condOn (c : Nat) : State :=
  let s := ((((lineOn 1 []).setReg (rIglLLine 0) 3).setReg (rLcuSOutw 0) 0x00030003).setReg (rPosDPitch 0) 1000).setReg (rLcuSCtrl 0) (w32 (c + 1))
  { s with img := { Img.init with tabs := [{ type := 2, index := 0, data := tab0 }] },
           slice := s.slice.set 0 { Slice.init with banks := Slice.init.banks.set 0 { ts := some 0, ready := true } } }
theorem witness_SlotsStripsAndBanks_pixels :
    let a := condOn
    let on := fun (s : State) (ff dpm xm : Bool) => s.rbit (rLcuSCtrl 0) 11 = ff ∧ s.rbit (rLcuSCtrl 0) 12 = dpm ∧ s.rbit (rLcuSCtrl 0) 13 = xm
    on (a 0) false false false ∧ (on (a 0x800) true false false ∧ (a 0x800).tabOfs ((a 0x800).tabFor 0 0) 0 4 = some 64) ∧
      (on (a 0x1000) false true false ∧ (a 0x1000).tabOfs ((a 0x1000).tabFor 0 0) 0 8 = some 128 ∧ (a 0x1000).dirField ((a 0x1000).tabFor 0 0) 0 2 2 = 1 ∧
        bitsN (fieldAt tab0 128 4) 14 0 = 1 ∧ bitsN (fieldAt tab0 128 4) 18 16 = 0) ∧
      (on (a 0x2000) false false true ∧ (a 0x2000).tabOfs ((a 0x2000).tabFor 0 0) 0 12 = some 192 ∧ (a 0x2000).outPixels 0 = 3 ∧
        bitsN (fieldAt tab0 196 4) 31 17 = 2) ∧
      ((a 0).rbit (rLcuSCtrl 0) 0 = true ∧ (a 0).headPlanes 0 = 1 ∧ (a 0).stitchL 0 = false ∧ (a 0).stitchR 0 = false ∧ 0 < (a 0).opitch 0 ∧
        ((a 0).planeAt 0 0).prev = none ∧ ((a 0).planeAt 0 0).mNext = none) ∧
      ((a 0).lineY 0 ((a 0).lineAtOrAfter 0 6000) = 6000 ∧ 6000 + 10 * (a 0).phOfs 0 0 = 6000 ∧ ((a 0).bankFor 0 6).ready = true ∧
        (a 0).rf (rLcuSCtrl 0) 17 16 = 0 ∧ 5999 < (a 0).lineY 0 ((a 0).lineAtOrAfter 0 5999)) := by decide +kernel
theorem witness_SlotsStripsAndBanks_strips :
    let l := { outLine0 with waits := true, formed := 9999999 }
    let msg : FabMsg := { src := 3, nosrc := false, tc := 1, mtype := 0x08, payload := leBytes 8 3 ++ [0, 0, 0, 0] ++ leBytes 2 0 ++ leBytes 2 1 ++ leBytes 16 0 ++ [9, 0] }
    let s := { (condOn 0x01000000).setReg (rLcuSStitchL 0) 0x80000001 with
      slice := (condOn 0).slice.set 0 { (condOn 0).slice[0] with lines := [l] }, fab := { FabCore.init with inbox := [msg] } }
    s.clk.shutdown = false ∧ s.fab.inbox = [msg] ∧ msg.mtype = 0x08 ∧ fieldAt msg.payload 9 1 = (0 : Fin 32).val ∧ s.slice[0].lines = [l] ∧
      l.m = signed 64 (fieldAt msg.payload 0 8) ∧ l.q = fieldAt msg.payload 8 1 ∧ s.ts ≤ l.formed + s.rf (rLcuSCtrl 0) 31 24 * 800 ∧ l.filled = false ∧
      bitN (fieldAt msg.payload 12 2) 0 = false ∧ s.ownLo 0 = 1 ∧ fieldAt msg.payload 14 2 = 1 := by decide +kernel
theorem witness_SlotsStripsAndBanks :
    let l := sliceOn fun x => { x with lines := [outLine0] }
    let w := fun (t : Nat) => sliceOn fun x => { x with lines := [{ outLine0 with waits := true, formed := t }] }
    let msg : FabMsg := { src := 3, nosrc := false, tc := 1, mtype := 0x08, payload := leBytes 8 7 ++ [0, 0, 0, 0] ++ leBytes 2 0 ++ leBytes 2 2 ++ [1, 2, 3, 4] }
    (l.slice[0].lines = [outLine0] ∧ outLine0.waits = false ∧ (l.gdcAt (l.slotPort 0)).st ≠ 2) ∧
      (let u := { l with gdc := l.gdc.set 0 { GdcPort.init with st := 2 } }
       (u.gdcAt (u.slotPort 0)).st = 2 ∧ u.MemWf) ∧
      ((w 9999000).slice[0].lines = [{ outLine0 with waits := true, formed := 9999000 }] ∧
        9999000 + (w 9999000).rf (rLcuSCtrl 0) 31 24 * 800 > (w 9999000).ts ∧ 0 + (w 0).rf (rLcuSCtrl 0) 31 24 * 800 ≤ (w 0).ts ∧
        CanReport (w 0) evLcuStitchMiss 0) ∧
      (let s := { run0 with fab := { FabCore.init with inbox := [msg] } }
       s.fab.inbox = [msg] ∧ msg.mtype = 0x08 ∧ fieldAt msg.payload 9 1 = 0 ∧ s.slice[0].lines = [] ∧
         (s.planeAt 0 (fieldAt msg.payload 8 1)).mNext = none) ∧
      run0.clk.shutdown = false ∧ outLine0.pix.length ≤ 3 ∧ run0.slice[0].loads = [] ∧ (sliceOn fun x => { x with loads := [1, 0] }).slice[0].loads = (1 : Fin 2).val :: [0] := by decide +kernel
theorem witness_SlotsStripsAndBanks_copy :
    let s := sliceOn fun x => { x with loads := [1, 0] }
    s.sysCopyUp = false ∧ { s with gdc := s.gdc.set 1 { GdcPort.init with st := 2, syscopy := true } }.sysCopyUp = true := by decide +kernel

/-! Tiles and frames: witnesses -/

/-- Schedule set: one program of 100 cycles, mapped over virtual column 0. -/
def set0 : List Byte :=
  [0, 0, 0, 0, 0, 1, 1, 0x1F] ++ leBytes 2 0 ++ leBytes 2 0 ++ leBytes 4 0 ++ (List.replicate 4 (leBytes 4 100)).flatten ++ List.replicate 8 0 ++ leBytes 4 64

/-- A recipe: mode, schedule set, FALLBACK entries and slip policy, B = 8, FDOM 0, SA 10 µs, one rule that exports. -/
def rcp (mode ss slip fb heads : Nat) : List Byte :=
  ([1, BitVec.ofNat 8 mode, BitVec.ofNat 8 ss, 0, 0, 8, 0, BitVec.ofNat 8 slip, 4, 0, BitVec.ofNat 8 fb, 5] ++ leBytes 2 10 ++ leBytes 2 0 ++
    leBytes 8 0 ++ leBytes 4 0 ++ leBytes 4 heads ++ List.replicate 608 0).set 336 1

/-- RUNNING with recipe 0 of three in force: 1 drops late frames, 2 needs set 1. -/
def frm (f : Machine.Frm → Machine.Frm) : State := { onDom id with
  frm := f { Machine.Frm.init with recipe := some 0 },
  img := { Img.init with
    arr := some 0, sets := [{ type := 1, index := 0, data := set0 }, { type := 1, index := 1, data := set0 }],
    recipes := rcp 0 0 0 1 0 ++ rcp 3 0 1 0xFF 0 ++ rcp 0 1 0 0xFF 0, valid := true, ended := true } }

def due0 : DueFrame := { f := 5, recipe := 0, mode := 0, line := 40, due := 9999000, vel := 0, late := false, after := 0 }
def run5 : RunFrame := {
  f := 5, prog := 0, len := 100, recipe := 0, mode := 0, step := 0, slip := 0, due := 9999000, disp := 9999500, vel := 0, late := false, line := 40,
  flagsOr := 0, tiles := [0], halted := [], faults := [], out := true }

/-- Frame 5 on the array, with tile 0 as `f` makes a running tile. -/
def tileOn (f : Tile → Tile) : State := (frm fun x => { x with running := some run5 }).updTile 0 fun _ => f { Tile.init with st := .run, done := false }
def mvWord (dst c : Nat) : BitVec 160 := BitVec.ofNat 160 (2 * 2 ^ 32 + dst * 2 ^ 24 + c * 2 ^ 16)
def outEnt (e : Bool) : OutqEnt := {
  isEnd := e, data := BitVec.ofNat 128 0x0705000400030002, tag := 0, cycle := 9, prog := 0, vcol := 0, vrow := 0, frame := 5, fault := false,
  poison := false, discarded := 0 }

theorem witness_TileMoveWords :
    let s := fun (d : Nat) (p : List (Nat × Land)) => tileOn fun x => { x with moves := [(0, mvWord d 0xFF)], pipe := p }
    let x := (s 31 []).tile[0]
    ((s 31 []).frm.running = some run5 ∧ x.st = .run ∧ x.done = false ∧ x.rep = 0 ∧ x.loops = [] ∧ x.pc < 2048 ∧ x.cyc + 1 < run5.len ∧
        (s 31 []).inStep 0 = true ∧ (s 31 []).rf (rTileNet 0) 9 0 = 0 ∧ x.pipe = [] ∧ (s 31 []).clk.shutdown = false) ∧
      (∀ d ∈ [1, 2, 31], ((s d []).tile[0].move 0).toNat = 2 * 2 ^ 32 + d * 2 ^ 24 + (0xFF : BitVec 8).toNat * 2 ^ 16) ∧
      (s 1 [(0, .alu 0 7)]).tile[0].pipe = [((s 1 [(0, .alu 0 7)]).tile[0].cyc, .alu 0 7)] := by decide +kernel
theorem witness_TileAluLanes : (7 < 8) ∧ (3 : Nat) < 4 := by decide
theorem witness_TileQueuesAndScrubbing :
    let b := (tileOn fun x => { x with cyc := 100 }).updTile 5 fun _ => { Tile.init with st := .run, done := false, cyc := 3 }
    let idle := fun (f : Tile → Tile) => (frm fun x => { x with running := some run5 }).updTile 0 fun _ => f { Tile.init with st := .idle }
    let scr := fun (n : Nat) (z : Option Nat) => (idle fun x => { x with scrubNext := n, scrubFix := z, idleFree := 15 }).setReg (rTileCtrl 0) 0x43
    ((tileOn fun x => { x with cyc := 99 }).tile[0].cyc < run5.len) ∧
      (b.frm.running = some run5 ∧ b.tile[0].st = .run ∧ b.tile[0].done = false ∧ run5.len ≤ b.tile[0].cyc ∧ b.tile[0].fCode = 0 ∧
        ∃ j ∈ b.mappedTiles, j ≠ (0 : Fin 272).val ∧ (b.tileAt j).cyc < run5.len) ∧
      ((idle fun x => { x with outq := [outEnt false] }).tile[0].outq = [outEnt false] ∧ (outEnt false).frame = unsigned 16 run5.f) ∧
      (let p := idle fun x => { x with port := [(16383, 1)] }
       p.tile[0].st ≠ .off ∧ p.tile[0].st ≠ .run ∧ p.tile[0].st ≠ .faulted ∧ p.tile[0].portBusy = 0 ∧ p.tile[0].port = [(16383, 1)] ∧
         p.tile[0].engine = [] ∧ p.clk.shutdown = false ∧ p.tile[0].portLater = 0 ∧
         (let h := idle fun x => { x with portBusy := 3, portLater := 2 }
          h.frm.running ≠ none ∧ h.tile[0].portBusy ≠ h.tile[0].portLater) ∧
         (let q := idle fun x => { x with portBusy := 2, portLater := 2, port := [(5, 1)] }
          q.tile[0].portBusy = q.tile[0].portLater ∧ q.tile[0].portBusy ≠ 0)) ∧
      ((scr 16383 none).rbit (rTileCtrl 0) 1 = true ∧ (scr 16383 none).tile[0].port = [] ∧ (scr 16383 none).tile[0].engine = [] ∧
        (scr 16383 none).tile[0].scrubFix = none ∧ (scr 16383 none).tile[0].portBusy = 0 ∧ (scr 0 (some 16383)).tile[0].scrubFix = some 16383) ∧
      (2 ^ (scr 16383 none).rf (rTileCtrl 0) 7 4 = (scr 16383 none).scrubIdle 0 + 1 ∧
        ¬ 2 ^ ((idle id).setReg (rTileCtrl 0) 0x43).rf (rTileCtrl 0) 7 4 ≤ ((idle id).setReg (rTileCtrl 0) 0x43).scrubIdle 0 + 1) ∧
      run0.tile[0].st = .off := by decide +kernel
theorem witness_TileSpaceAndControl :
    let h := (frm id).updTile 0 fun _ => { Tile.init with st := .halted }
    let i := (frm id).updTile 0 fun _ => { Tile.init with st := .idle }
    ((0x3FFFF : BitVec 19).toNat + 1 ≤ 0x40000 ∧ smWf (fun _ => (0 : V128)) i.tile[0].mem = true ∧ (0x3FFFC : BitVec 19).toNat + 4 = 0x40000) ∧
      (let r := (tileOn fun x => { x with done := true }); r.frm.running.isSome = true ∧ r.tile[0].portBusy = r.tile[0].portLater ∧ r.tile[0].portBusy = 0) ∧
      ((0x40000 : BitVec 19).toNat = 0x40000 ∧ (0x4FFFF : BitVec 19).toNat + 1 = 0x50000) ∧
      (i.tile[0].st ≠ .off ∧ i.tile[0].st ≠ .run ∧ i.tile[0].st ≠ .faulted ∧ i.frm.running = none ∧ i.tile[0].port = [] ∧ i.tile[0].engine = []) ∧
      (let b := tileOn id
       b.tile[0].st = .run ∧ b.tile[0].done = false ∧ (b.tile[0].move b.tile[0].pc).getLsbD 7 = false ∧ (0x3FFFF : BitVec 19).toNat < 0x40000) ∧
      (i.tile[0].st ≠ .off ∧ i.tile[0].st ≠ .halted ∧ CanReport i evTileAccessRefused 0 ∧ i.MemWf) ∧
      (CoreMayAccess h ∧ h.tile[0].st = .halted ∧ h.frm.running = none ∧ fieldsOk h (rTileCtrl 0) = true) := by decide +kernel
theorem witness_TileSpaceAndControl_checkBits :
    let t := fun (f : Tile → Tile) => (frm id).updTile 0 fun _ => f { Tile.init with st := .idle, port := [(16383, 1)] }
    let e := (frm id).setReg rMtxErrInfo 0
    ((t id).tile[0].badAt 16383 = 0 ∧ smWf (fun _ => 0) (t id).tile[0].bad = true ∧ ∀ w ∈ memWords 0x3FFFC 4, (t id).tile[0].badAt w = 0) ∧
      ((t fun x => { x with bad := [(16383, 2)] }).tile[0].badAt 16383 = 2 ∧ smWf (fun _ => 0) [(16383, 2)] = true) ∧
      (e.rbit rMtxErrInfo 31 = false ∧ e.MemWf) := by decide +kernel

theorem witness_FramesSlipAndDispatch :
    let d := fun (r t : Nat) (l : Bool) => { frm (fun x => { x with due := [{ due0 with recipe := r }], lateRun := l }) with ts := t }
    let go := (d 0 10007000 false).updTile 0 fun x => { x with st := .idle }
    (let a := { frm (fun x => { x with due := [due0], switches := [{ seq := 7, recipe := 2, mode := 0, isMode := false, dom := 0, coord := 0, ms := some 40 }] }) with ts := 10007001 }
     a.reloadAhead due0.line = true ∧ a.MemWf ∧ (∀ w ∈ a.frm.switches, w.ms.isSome = true) ∧ a.frm.due = [due0] ∧ due0.due + a.rcpSA due0.recipe * 800 < a.ts) ∧
    (∀ r < 2, (d r 10007001 true).reloadAhead due0.line = false ∧ (d r 10007001 true).peat.queue.length ≤ 1022) ∧
    (∀ r < 2, (d r 10007001 true).frm.due = [{ due0 with recipe := r }] ∧ due0.due + (d r 10007001 true).rcpSA r * 800 = 10007000 ∧
        (d r 10007001 true).rcpSlipDrop r = (r == 1) ∧ (d r 10007001 true).frm.reload = none) ∧
      (CanReport (d 0 10007001 true) evFrmLate 0 ∧ CanReport (d 1 10007001 true) evFrmDrop 0) ∧
      (go.frm.due = [due0] ∧ due0.late = false ∧ (∀ w ∈ go.frm.switches, w.ms.isSome = true) ∧ go.canDispatch due0 = true ∧ go.switchesDue = [] ∧
        go.cen.committed.any go.epochDue = false ∧ go.psq.swap = none ∧ go.psq.swapped = [] ∧ go.jnl.wait = [] ∧ go.shadow = [] ∧
        go.res.growing = [] ∧ go.frm.lateRun = false ∧ go.frm.stepReq = none ∧ go.MemWf ∧ go.tile[1].st = .off ∧ bitsN (go.tile[0].move 0).toNat 44 40 = 0) ∧
      (let s := frm fun x => { x with due := [due0], running := some run5 }
       s.canDispatch due0 = false) := by decide +kernel

/-- Line `w` of head 0's plane 0 is the newest written; line `f` is the first of the next frame. -/
def strm (w f : Int) : State := { frm (fun x => { x with next := some f }) with
  slice := State.reset.slice.set 0 { Slice.init with planes := Slice.init.planes.set 0 { PlaneGen.init with wFirst := some 0, wLast := some w } } }
def switch (r : Nat) : Switch := { seq := 7, recipe := r, mode := 0, isMode := false, dom := 0, coord := 0, ms := some 40 }
def sw (r : Nat) (n : Int) : State := frm fun x => { x with switches := [switch r], next := some n }
def reload0 : Reload := { seq := 7, ms := 40, oldRecipe := 0, oldMode := 0, recipe := 2, mode := 0, drops := 0, since := 0 }

theorem witness_StagingStepsAndSwitches_lines :
    let s := strm 12 5
    s.clk.shutdown = false ∧
    let u := { s with gdc := s.gdc.set 0 { GdcPort.init with st := 2 } }
    (run0.planeAt 0 0).wLast = none ∧
      (s.frm.next = some 5 ∧ (s.planeAt 0 0).wFirst = some 0 ∧ (s.planeAt 0 0).wLast = some (5 + (7 : Int)) ∧ s.live = true ∧ s.frm.reload = none ∧
        s.frm.switches = [] ∧ s.frm.staged = [] ∧ s.img.arr = some (s.rcpSS (s.frm.recipe.getD 0)) ∧ 7 < s.rcpB (s.frm.recipe.getD 0) ∧
        (s.gdcAt (s.slotPort 0)).st ≠ 2) ∧
      ((s.frm.due ≠ [] ∨ s.frameKept 0 s.frm.band (s.frameOf 5) = true) ∧
        (let n := { s with frm := { s.frm with band := 1 } }
         n.frm.next = some 5 ∧ n.frm.switches = [] ∧ n.frm.staged = [] ∧ n.frm.due = [] ∧ n.frameKept 0 n.frm.band (n.frameOf 5) = false)) ∧
      ((u.gdcAt (u.slotPort 0)).st = 2 ∧ leNat (memGetBytes ramDefault u.gddr (gddrKey (u.slotPort 0) (u.slotAddr 0 0 0) + 8) 8) = unsigned 64 0) := by
  decide +kernel
theorem witness_StagingStepsAndSwitches_switches :
    let r := frm fun x => { x with reload := some reload0 }
    let fb := fun (k : Nat) => frm fun x => { x with fallbackReq := true, recipe := some k }
    ((frm fun x => { x with stepReq := some 2, running := some run5 }).frm.running.isSome = true ∧ (frm fun x => { x with stepReq := some 2 }).frm.running = none ∧
        (frm fun x => { x with stepReq := some 2, mode := 4 }).frm.recipe.isSome = true ∧ (frm id).fastest = 1 ∧
        (frm fun x => { x with stepReq := some 0 }).frm.stepReq = some 0 ∧ (frm fun x => { x with stepReq := some 2 }).frm.step ≤ 2 ∧
        (frm fun x => { x with mode := 4 }).fastest = 3 ∧ (frm fun x => { x with stepReq := some 2 }).clk.shutdown = false) ∧
      ((sw 1 40).frm.switches = [switch 1] ∧ (switch 1).ms = some 40 ∧ (switch 1).isMode = false ∧ (sw 1 40).frm.running = none ∧
        (sw 1 40).frm.reload = none ∧ (sw 1 40).frm.next = some 40 ∧ (sw 1 40).frm.recipe = some 0 ∧ (sw 1 40).live = true ∧ (sw 1 40).rcpMode 1 ≠ 4 ∧
        (sw 1 40).seamless (0, (sw 1 40).frm.mode) (1, (sw 1 40).rcpMode 1) = true) ∧
      ((sw 1 39).frm.next = some 39 ∧ (sw 2 40).seamless (0, (sw 2 40).frm.mode) (2, (sw 2 40).rcpMode 2) = false) ∧
      (r.frm.reload = some reload0 ∧ r.sysCopyUp = false ∧
        { r with gdc := r.gdc.set 0 { GdcPort.init with st := 2, syscopy := true } }.sysCopyUp = true) ∧
      ((fb 0).frm.fallbackReq = true ∧ (fb 0).live = true ∧ (fb 0).frm.running = none ∧ (fb 0).fallbackOf 63 0 = some 1 ∧ (fb 0).frm.switches = [] ∧
        (fb 1).fallbackOf 63 1 = none) := by decide +kernel

/-- One half of a TWIN pair; the peer has serial 77. -/
def twin (role : Nat) (f : State → State) : State :=
  let s := frm fun x => { x with mode := 2 }
  f { s with img := { s.img with plan := leBytes 2 0 ++ leBytes 1 role ++ leBytes 5 0 ++ leBytes 8 77 } }
def mirrored (m : Nat) : FabMsg := {
  src := 3, nosrc := false, tc := 1, mtype := 9,
  payload := leBytes 8 3000 ++ leBytes 8 m ++ leBytes 8 0 ++ leBytes 4 3 ++ leBytes 2 5 ++ [0, 0] ++ List.replicate 32 0 ++ [1, 2, 3, 4] }
def inb (m : FabMsg) (s : State) : State := { s with fab := { s.fab with inbox := [m] } }

theorem witness_TwinMirrorAndWatch :
    let s := fun (w : Int) => inb (mirrored 8) ((((twin 2 fun s => { s with
      gdc := s.gdc.set 0 { GdcPort.init with st := 2 },
      slice := s.slice.set 0 { Slice.init with planes := Slice.init.planes.set 0 { PlaneGen.init with wFirst := some 0, wLast := some w } } }).setReg
        (rLcuSRlines 0) 8)).setReg (rLcuSOutw 0) 2)
    ((inb (mirrored 8) (twin 1 id)).fab.inbox = [mirrored 8] ∧ (mirrored 8).mtype = 0x09 ∧ (inb (mirrored 8) (twin 1 id)).twinRole = 1) ∧
      (∀ w ∈ [(8 : Int), 7], (s w).twinRole = 2 ∧ ((s w).recAt 8).2 = 2 ∧ (s w).frm.twinLost = false ∧ ((s w).planeAt 0 0).wLast = some w ∧
        ((s w).gdcAt ((s w).slotPort 0)).st = 2 ∧ (s w).MemWf ∧ (s w).clk.shutdown = false) ∧
      (let l := let s := s 7; { s with frm := { s.frm with twinLost := true } }
       l.frm.twinLost = true ∧ l.peerGone = true ∧ l.twinRole = 2 ∧ (l.recAt 8).2 = 2) ∧
      (signed 64 (fieldAt (mirrored 8).payload 8 8) = 8 ∧ fieldAt (mirrored 8).payload 31 1 = 0 ∧ fieldAt (mirrored 8).payload 30 1 = 0 ∧
        64 ≤ (mirrored 8).payload.length) ∧
      (∀ k ∈ [1, 2], (twin k id).live = true ∧ (twin k id).frm.mode = 2 ∧ (twin k id).frm.twinLost = false ∧ (twin k id).peerGone = true ∧
        (twin k id).twinRole = k ∧ CanReport (twin k id) evTwinPeerLost 0) ∧
      ((twin 2 fun s => { s with
          fab := { s.fab with map := [{ serial := 77, addr := 5, ports := [] }] },
          fport := s.fport.set 0 { FabPort.init with st := 2 } }).setReg (rFabPCtrl 0) 2).peerGone = false := by decide +kernel
theorem witness_TwinMirrorAndWatch_empty : (twin 2 id).frm.due = [] := by decide +kernel

/-! Results and the position sequencer: witnesses -/

def det0 : Det := {
  rule := 0, frame := 5, m := 42, y := 42000, x := 3, xw := 4, len := 2, cls := 5, sev := 7, feat := 0, tagHi := 0, vcol := 0, vrow := 0,
  flags := 0, recipe := 0, mode := 0, fdom := 0, out := true }
def twinOf (d : List Det) (w : Nat) : TwinWait := { frame := 5, dets := d, bands := [], crc := 99, fault := false, at_ := 9999000, wait := w }

/-- The peer's frame check for frame 5. -/
def peerCheck (crc fl : Nat) : FabMsg := {
  src := 3, nosrc := false, tc := 1, mtype := 2, payload := leBytes 8 5 ++ leBytes 4 crc ++ leBytes 1 fl ++ leBytes 3 0 }

theorem witness_FrameRecordsAndTwins_frames :
    let s := { frm (fun x => { x with ended := [run5] }) with res := { Res.init with outq := [outEnt false, outEnt true] } }
    let u := s.setReg rResCtrl 0x00010000
    let det := u.detOf run5 0 0 (outEnt false)
    ((frm fun x => { x with ended := [run5] }).endsIn run5 = false) ∧
      (run0.frm.ended = [] ∧ run0.res.bands = [] ∧ { s with sys := { s.sys with st := .faultStop } }.live = false) ∧
      (u.frm.ended = [run5] ∧ u.endsIn run5 = true ∧ run5.out = true ∧ { run5 with out := false }.out = false ∧ u.live = true ∧ run5.mode ≠ 1 ∧ run5.mode ≠ 2 ∧ run5.tiles = [0] ∧
        run5.halted = [] ∧ u.rcpHeads run5.recipe = [] ∧ u.res.growing = [] ∧ u.res.bands = [] ∧ u.res.outq = [outEnt false, outEnt true] ∧
        u.tileVcol 0 < 16 ∧ (∀ x ∈ [outEnt false, outEnt true], x.frame = unsigned 16 run5.f ∧ x.vcol = u.tileVcol 0 ∧ x.vrow = 0 % 16) ∧
        u.detKeeps run5 (outEnt false) = true ∧ 1 ≤ u.rf rResCtrl 31 16) ∧
      (u.rdomOf det.recipe det.rule det.fdom = det.fdom ∧ u.ruleMkmask det.recipe det.rule = 0 ∧ PlainRule u det ∧ RingBusy u ∧ u.MemWf) := by
  decide +kernel
theorem witness_FrameRecordsAndTwins_pairs :
    let w := fun (n : Nat) => { frm id with res := { Res.init with twin := [twinOf [det0] n] } }
    let c := fun (k crc fl : Nat) => inb (peerCheck crc fl) (twin k fun s => { s with res := { s.res with twin := [twinOf [] 1] }, ts := 9999800 })
    let o := inb (peerCheck 98 0) (twin 1 fun s => { s with
      res := { s.res with twin := [{ twinOf [] 1 with frame := 4 }] }, frm := { s.frm with ended := [run5] } })
    ((w 2000).ts < (twinOf [det0] 2000).at_ + (twinOf [det0] 2000).wait * 800) ∧
      ((w 1).res.twin = [twinOf [det0] 1] ∧ (twinOf [det0] 1).at_ + (twinOf [det0] 1).wait * 800 ≤ (w 1).ts ∧
        (w 1).rdomOf det0.recipe det0.rule det0.fdom = det0.fdom ∧ (w 1).ruleMkmask det0.recipe det0.rule = 0 ∧ PlainRule (w 1) det0 ∧
        RingBusy (w 1) ∧ (w 1).MemWf ∧ CanReport (w 1) evTwinLate 0) ∧
      ((c 2 98 1).twinRole ≠ 1 ∧ (c 1 98 1).fab.inbox = [peerCheck 98 1] ∧ (c 1 98 1).twinRole = 1 ∧ (c 1 98 1).live = true ∧
        (c 1 98 1).ts = (twinOf [] 1).at_ + (twinOf [] 1).wait * 800 ∧
        signed 64 (fieldAt (peerCheck 98 1).payload 0 8) = 5 ∧ fieldAt (peerCheck 98 1).payload 8 4 ≠ 99 ∧ (c 1 98 1).clk.shutdown = false ∧
        (c 1 98 1).MemWf ∧ (twinOf [] 1).fault = false ∧ fieldAt (peerCheck 99 1).payload 8 4 = 99 ∧ bitN (fieldAt (peerCheck 99 1).payload 12 1) 0 = true ∧
        ({ c 1 99 0 with res := { Res.init with twin := [{ twinOf [] 1 with fault := true }] } }).MemWf ∧
        bitN (fieldAt (peerCheck 98 1).payload 12 1) 0 = true ∧ CanReport (c 1 98 1) evTwinPeerFault 0) ∧
      (fieldAt (peerCheck 99 0).payload 8 4 = 99 ∧ bitN (fieldAt (peerCheck 98 0).payload 12 1) 0 = false ∧ CanReport (c 1 98 0) evTwinDisagree 0) ∧
      (let l := { c 1 99 0 with ts := 9999801 }
       l.twinRole = 1 ∧ l.live = true ∧ (twinOf [] 1).at_ + (twinOf [] 1).wait * 800 < l.ts ∧ CanReport l evTwinLate 0) ∧
      (o.twinRole = 1 ∧ o.live = true ∧ o.res.twin = [{ twinOf [] 1 with frame := 4 }] ∧ signed 64 (fieldAt (peerCheck 98 0).payload 0 8) ≠ 4 ∧
        ∃ x ∈ o.frm.ended, x.f = signed 64 (fieldAt (peerCheck 98 0).payload 0 8)) := by
  decide +kernel
theorem witness_FrameRecordsAndTwins_held :
    let h := fun (t : Nat) => { frm id with res := { Res.init with held := [.det { det0 with fdom := 1 } 9999000] }, ts := t }
    ((h 9999000).res.held = [.det { det0 with fdom := 1 } 9999000] ∧ (h 9999000).rdomOf 0 0 1 ≠ 1 ∧
        (h 9999000).translate 1 ((h 9999000).rdomOf 0 0 1) 42000 = .notYet ∧ (h 9999000).ts < 9999000 + 1600000000) ∧
      ((h 1609999000).ts = 9999000 + 1600000000 ∧ (h 1609999000).translate 1 ((h 1609999000).rdomOf 0 0 1) 42000 = .notYet ∧
        PlainRule (h 1609999000) { det0 with fdom := 1 } ∧ RingBusy (h 1609999000) ∧ (h 1609999000).MemWf ∧ CanReport (h 1609999000) evResTrkOor 0) := by
  decide +kernel
/-- The states of these witnesses have the clocks of the processing die running (R576). -/
theorem witness_clocks_frames (f : Machine.Frm → Machine.Frm) (g : Tile → Tile) : (frm f).clk.shutdown = false ∧ (tileOn g).clk.shutdown = false := ⟨rfl, rfl⟩
theorem witness_FrameRecordsAndTwins_general :
    let s := { frm (fun x => { x with ended := [run5, { run5 with f := 6 }] }) with res := { Res.init with outq := [outEnt true] } }
    let msg : FabMsg := { src := 9, nosrc := false, tc := 3, mtype := 0x02, payload := [] }
    (s.frm.ended = run5 :: [{ run5 with f := 6 }] ∧ s.endsIn run5 = true ∧ s.live = true) ∧ (inb msg run0).fab.inbox = [msg] := by decide +kernel

def clip0 (t : Nat) : ClipJob := { seq := 3, m := 40, y := 40000, x := 0, w := 4, h := 2, planes := 1, buf := 0, at_ := t, fdom := 0, recipe := 0, dead := [] }
def res (f : Res → Res) : State := { frm id with res := f Res.init }
def token0 : FabMsg := { src := 3, nosrc := false, tc := 1, mtype := 1, payload := List.replicate 64 7 ++ [0] }

theorem witness_RingsClipsAndTokens :
    let r := (res fun r => { r with waiting := [List.replicate 64 7] }).setReg rResCtrl 1
    let open_ := { r with pcie := { r.pcie with linkUp := true, bme := true } }
    let c := (res fun r => { r with clips := [clip0 8400000] }).setReg rResCtrl 5
    let cw := (((c.setReg (rLcuSOutw 0) 0x00080008).setReg (rPosTgCtrl 0) 1).setReg (rIglLCtrl 0) 1)
    let tk := fun (x : DState) => inb token0 ({ frm id with sys := { run0.sys with st := x } }.setReg rResCtrl 8)
    (r.recRoom = false ∧ run0.res.waiting = [] ∧ open_.clk.shutdown = false ∧ (tk .running).clk.shutdown = false) ∧
      (open_.res.waiting = [List.replicate 64 7] ∧ open_.recRoom = true ∧ open_.rbit rResCtrl 1 = false) ∧
      (cw.res.clips = [clip0 8400000] ∧ cw.clipWaits (clip0 8400000) = true ∧ (clip0 8400001).at_ + 1600000 > cw.ts) ∧
      (c.ringOpen (c.rbit rResCtrl 2) = true ∧ c.clipWaits (clip0 8400000) = false ∧ (clip0 8400000).at_ + 1600000 = c.ts) ∧
      ((tk .armed).sys.st ≠ .running ∧ (tk .running).fab.inbox = [token0] ∧ (tk .running).sys.st = .running ∧ fieldAt token0.payload 64 1 = 0 ∧
        65 ≤ token0.payload.length ∧ (tk .running).rbit rResCtrl 3 = true ∧ RingBusy (tk .running) ∧ (tk .running).MemWf) ∧
      (let i := (res fun r => { r with recR := { r.recR with unsig := 2, firstTs := 9996000 } }).setReg rResRecCfg 0x0500
       i.res.recR.unsig ≠ 0 ∧ i.res.recR.firstTs + i.rf rResRecCfg 15 8 * 800 = i.ts) := by decide +kernel
theorem witness_RingsClipsAndTokens_room :
    let r := (res fun r => { r with waiting := [List.replicate 64 7] }).setReg rResCtrl 1
    let u := { r with pcie := { r.pcie with linkUp := true, bme := true } }
    u.res.waiting = List.replicate 64 7 :: [] ∧ u.recRoom = true := by decide +kernel

/-- C0 running at word `u` of page 0, which holds `w`; `f` changes the context. -/
def cx (w u : Nat) (f : Cx → Cx) : State := { frm id with psq := { Psq.init with
  cs := smPut csDefault [] (pageAddr 0 u) (mwStore w), cx := Psq.init.cx.set 6 (f { Cx.init with st := 1, upc := u }) } }
def seqop (n t : Nat) : Nat := n * 2 ^ 117 + t * 2 ^ 104
/-- Kabrimor context K0 running at word `u` of its region, which holds `w`. -/
def kx (w u : Nat) (f : Cx → Cx) : State := { frm id with psq := { Psq.init with
  cs := [(u, mwStore w)], cx := Psq.init.cx.set 0 (f { Cx.init with st := 1, upc := u }) } }

theorem witness_MicrowordsAndWaits_issue :
    let at_ := fun (w u : Nat) (f : Cx → Cx) =>
      let s := cx w u f
      let v := s.cxWord 6
      (s.psq.cx[6].st, mwParityOk v, mw v 95 92, mw v 119 117)
    (run0.live = true ∧ run0.psq.cx[6].st ≠ 1 ∧ (cx 0 0 id).clk.shutdown = false ∧ (kx 0 0 id).clk.shutdown = false) ∧
      (CanReport (cx 0 0 id) evPsqCsParity 0 ∧ ((cx 0 0 id).slotAt 6).valid = false ∧ ((cx 0 0 id).slotAt 7).valid = false ∧
        CanReport (cx 0 0 id) evPsqCxFault 0) ∧
      (∀ n ∈ [0, 1, 2, 3, 4, 7], at_ (seqop n 5) 1022 id = (1, true, 0, n)) ∧
      (at_ (seqop 1 5 + 3 * 2 ^ 92) 0 id = (1, true, 3, 1) ∧ (cx 0 1023 id).psq.cx[6].upc = 1023) ∧
      ((cx (seqop 2 5) 0 fun x => { x with stack := List.replicate 7 1 }).psq.cx[6].stack.length < 8 ∧
        (cx (seqop 2 5) 0 fun x => { x with stack := List.replicate 8 1 }).psq.cx[6].stack.length = 8 ∧
        (cx (seqop 3 0) 0 fun x => { x with stack := [1023] }).psq.cx[6].stack = [1023]) ∧
      (∀ n ∈ [1, 2, 3, 4, 5], mw ((cx (seqop 1 5 + n * 2 ^ 62 + 7) 0 id).cxWord 6) 64 62 = n) ∧
      (∀ n ∈ [0, 1, 2, 3, 4, 6, 7], ∀ u ∈ [0x17FE, 0x17FF],
        let s := kx (seqop n 0x17FF) u id
        let v := s.cxWord 0
        s.live = true ∧ s.psq.cx[0].st = 1 ∧ mwParityOk v = true ∧ mw v 95 92 = 0 ∧ mw v 119 117 = n ∧ mw v 116 104 = 0x17FF ∧ mw v 69 67 = 0 ∧
          mw v 64 62 = 0 ∧ (s.psq.cx[0].upc + 1 < 0x1800 ↔ u = 0x17FE)) ∧
      (mw ((kx (seqop 1 0x1800) 0 id).cxWord 0) 116 104 = 0x1800 ∧ (kx (seqop 6 0) 0 id).frm.due = [] ∧ (kx (seqop 6 0) 0 id).frm.switches = []) ∧
      ∃ u, exec .frameDispatch (kx (seqop 6 0) 0 id) = .next u :=
  ⟨by decide +kernel, by decide +kernel, by decide +kernel, by decide +kernel, by decide +kernel, by decide +kernel, by decide +kernel,
    by decide +kernel, _, rfl⟩
theorem witness_MicrowordsAndWaits_waits :
    let s := cx (seqop 1 5 + 3 * 2 ^ 92) 0 fun x => { x with st := 2, sawGap := true }
    let n := cx (seqop 1 5 + 3 * 2 ^ 92) 0 fun x => { x with st := 2 }
    let t := cx (seqop 0 5 + 3 * 2 ^ 92 + 2 ^ 86) 0 fun x => { x with st := 2, waitFrom := 0 }
    (s.psq.cx[6].st = 2 ∧ s.waitHolds 6 (s.cxWord 6) = true ∧ mw (s.cxWord 6) 64 62 = 0 ∧ mw (s.cxWord 6) 119 117 = 1 ∧
        (∀ k ∈ [4, 5, 6], mw (s.cxWord 6) 95 92 ≠ k)) ∧
      (n.waitHolds 6 (n.cxWord 6) = false ∧ n.timedOut 6 (n.cxWord 6) = false) ∧
      (t.psq.cx[6].st = 2 ∧ t.timedOut 6 (t.cxWord 6) = true ∧ t.waitHolds 6 (t.cxWord 6) = false) := by decide +kernel
theorem witness_MicrowordsAndWaits_ses : mw ((cx (seqop 0 5) 0 id).cxWord 6) 85 85 = 0 := by decide +kernel

def swapping (c : Bool) (r : Option RunFrame) : State := { frm (fun x => { x with running := r }) with
  psq := { Psq.init with swap := some { seq := 3, checked := c } } }

theorem witness_ControlStoreAndPages :
    let s := frm id
    (CoreMayAccess s ∧ s.live = true ∧ s.psq.swap = none ∧ s.psq.page = 0 ∧ mwReason (mwStore 0) = 0 ∧ smWf csDefault s.psq.cs = true ∧ s.MemWf) ∧
      (0x1800 + 0x400 * 1 = (0x1C00 : BitVec 13).toNat ∧ (0x1FFF : BitVec 13).toNat + 1 = 0x1C00 + 0x400 ∧ (0x17FF : BitVec 13).toNat + 1 = 0x1800) ∧
      fieldsOk s (rPsqCxCtrl 0) = true ∧
      (let u := { s with psq := { s.psq with uevt := [{ cx := 1, code := 255, crd := -3 }] } }
       u.psq.uevt = [{ cx := 1, code := 255, crd := -3 }] ∧ u.MemWf) ∧
      ((swapping false none).psq.swap = some { seq := 3, checked := false } ∧ (swapping false none).fdomGoes = true ∧
        (∀ x ∈ (swapping false none).jnl.wait, x.seq ≠ 3) ∧
        (let u := { swapping false none with jnl := { Jnl.init with wait := [{ seq := 3, req := .host, desc := [], at_ := 5 }] } }
         u.fdomGoes = true ∧ ∃ x ∈ u.jnl.wait, x.seq = 3)) ∧
      ((swapping true (some run5)).frm.running.isSome = true ∧ (swapping true (some run5)).fdomGoes = true) ∧
      ((swapping true none).frm.running = none ∧ (swapping true none).frm.switches = [] ∧ (swapping true none).clk.shutdown = false) := by decide +kernel
theorem witness_ControlStoreAndPages_parity : ∀ i < 1024, mwParityOk ((swapping false none).csWord (pageAddr 1 i)) = true := by
  intro i _
  have h : (swapping false none).csWord (pageAddr 1 i) = 0 := if_neg (by unfold pageAddr; omega)
  rw [h]; decide
theorem witness_ControlStoreAndPages_epoch : (swapping true none).cen.committed.any (swapping true none).epochDue = false := by decide +kernel

/-! The fabric: witnesses -/

/-- A device with address 5 and the fabric enabled; port 0 in use as FABRIC, up unless `f` says otherwise. -/
def fab (f : State → State) : State := f ({ run0 with fab := { FabCore.init with addr := some 5 } }.setReg rFabCtrl 0x00010001)
def port (f : FabPort → FabPort) : State :=
  (fab fun s => { s with fport := s.fport.set 0 (f { FabPort.init with st := 2, mode := 1, lastHello := 9999000, since := 9000000 }) }).setReg (rFabPCtrl 0) 1
def rx (f : FabRxq → FabRxq) : State := port fun p => { p with rx := p.rx.set 0 (f FabRxq.init) }
def tx (f : FabTxq → FabTxq) : State := port fun p => { p with tx := p.tx.set 0 (f FabTxq.init) }
def root (f : FabCore → FabCore) : State := fab fun s => { s with fab := f { s.fab with isRoot := true } }
def leaf (f : FabCore → FabCore) : State := fab fun s => { s with fab := f { s.fab with isRoot := false, rootSerial := 44 } }
def fmsg (t : Nat) (p : List Byte) : FabMsg := { src := 9, nosrc := false, tc := 3, mtype := t, payload := p }
def mapR (a : Nat) : MapRec := { serial := 77, addr := a, ports := [0xFFFF, 0xFFFF, 0xFFFF, 0xFFFF] }
def fblk : FabBlk := {
  tc := 0, mtype := 0x10, down := false, bcast := false, dst := 9, hops := 0, nosrc := false, src := 5, len := 4, msgid := 0, frag := 0, nfrag := 0,
  payload := [1, 2, 3, 4] }
/-- A message to this device in one block, and the words of a block as they arrive after an IDLE word. -/
def inBlk : FabBlk := { fblk with dst := 5, src := 9 }
def fin0 : FabIn := { words := fabIdle :: inBlk.words 0 false, corrected := 2, uncorrectable := 1 }
/-- The bytes of that block that its CRC covers, and all of them. -/
def inBytes : List Byte := [0x10, 0, 0, 0, 5, 0, 9, 0, 4, 0, 0, 0, 0, 0, 0, 0, 1, 2, 3, 4] ++ List.replicate 508 0
def inWire : List Byte := inBytes ++ leBytes 4 1435502468 ++ leBytes 3 0
theorem inBytes_crc : crc32c inBytes = 1435502468 := by rw [crc32c_eq_foldNow]; decide +kernel
theorem inBlk_wire : inBlk.wire 0 false = inWire := by
  have e : ∀ h, h = inBytes → h ++ leBytes 4 (crc32c h) ++ leBytes 3 0 = inWire := by rintro _ rfl; rw [inBytes_crc]; rfl
  exact e _ (by decide +kernel)
theorem witness_FabricBlocks_words : fabBlkOf fin0.words = some (0, inBlk) := by
  have w : wordsBlock 0x78 66 fin0.words = some inWire := by
    rw [show fin0.words = fabIdle :: inBlk.words 0 false from rfl, FabBlk.words, inBlk_wire]; decide +kernel
  have t : inWire.take 528 = inBytes := by decide +kernel
  unfold fabBlkOf
  rw [w]
  simp only []
  rw [t, inBytes_crc]
  decide +kernel
/-- The words of a control block from device 9. -/
def ctl9 (ct : Nat) (body : List Byte) : List FabWord := ctlWords ct (some 9) 1005000 body
def ctlGood (ct : Nat) (body : List Byte) : Bool :=
  fabCtlOf (ctl9 ct body) == some { ctype := ct, src := some 9, txtime := 1005000, body := body }
/-- A port whose peer has said it uses the link as MIRROR. -/
def differs (p : FabPort) : FabPort := { p with peerSerial := some 3, peerUse := 2 }
def lostBlk (r t : Nat) : Missing := { seq := 0, reqs := r, last := t }

theorem witness_FabricLinks :
    let t := port fun p => { p with st := 1 }
    let u := port id
    (run0.fabEn = false ∧ t.fabEn = true ∧ t.fport[0].st = 1 ∧ t.fabUse 0 = 1 ∧ CanReport t evFabLinkUp 0 ∧ t.clk.shutdown = false) ∧
      ({ port (fun p => { p with st := 1, since := 0 }) with ts := 160000000 }.ts = 0 + 160000000) ∧
      ((port fun p => { p with st := 3, since := 2000000 }).fport[0].since + 8000000 = run0.ts) ∧
      (u.fport[0].st = 2 ∧ u.MemWf ∧ CoreMayAccess u ∧ fieldsOk u (rFabPCtrl 0) = true ∧ 16 < 17 ∧ u.ts < u.fport[0].lastHello + 40000) ∧
      ((port fun p => { p with lastHello := 9960000 }).fport[0].lastHello + 40000 = u.ts) ∧
      ((∀ ct ∈ [0x10, 0x11, 0xFF], bodyOk ct (List.replicate 16 0) = true ∧ ctlGood ct (List.replicate 16 0) = true) ∧ fabCtlOf [] = none ∧
        ((511 : Fin 512).val = 511 ∧ (List.replicate 16 (0 : Byte)).length = 16)) ∧
      (u.fabEn = true ∧ (port fun p => { p with helloAt := some 9996000 }).fport[0].helloAt = some 9996000 ∧ 9996000 + 4000 = u.ts ∧
        u.ts < 9996001 + 4000) := by decide +kernel
theorem witness_FabricBlocks_receive :
    let q := (rx id).fport[0].rx[0]
    let r1 := rx fun q => { q with base := 1, top := 1, freed := 1, taken := 1 }
    (run0.fport[0].st ≠ 2 ∧ run0.portUp 0 = false ∧ (rx id).fport[0].st = 2 ∧ (rx id).clk.shutdown = false ∧
        (let d := port fun p => { p with st := 1 }
         d.portUp 0 = false ∧ d.fabEn = true ∧ d.fport[0].st = 1)) ∧
      (fabBlkOf [fabIdle] = none ∧ inBlk.tc < 4 ∧ inBlk.len ≤ 512 ∧ inBlk.payload.length = inBlk.len ∧ (rx id).useDiffers 0 = false ∧
        (rx id).MemWf ∧ (port differs).useDiffers 0 = true ∧ (port differs).portUp 0 = false ∧ (port differs).fport[0].st = 2) ∧
      (0 < r1.fport[0].rx[0].base ∧ 0 = (r1.fport[0].rx[0].base - 1) % 65536 ∧ (0 : Fin 4).val = inBlk.tc) ∧
      (0 = q.base % 65536 ∧ q.got = [] ∧ q.held = [] ∧ q.lost = [] ∧ q.missing = [] ∧ q.top = q.base ∧
        (rx id).fab.addr = some inBlk.dst ∧ inBlk.bcast = false ∧ inBlk.nfrag = 0 ∧ inBlk.frag = 0 ∧ (rx id).fab.reasm = [] ∧
        knownMsg inBlk.tc inBlk.mtype = true ∧ inBlk.mtype ≠ 0x20 ∧ inBlk.mtype ≠ 0x09) ∧
      (∀ tc : Fin 4, (rx id).fport[0].rx[tc].top = (rx id).fport[0].rx[tc].base) ∧
      (let a := rx fun q => { q with ackFirst := some 0, ackCnt := 1, base := 1, top := 1, taken := 1 }
       a.fport[0].rx[0].ackFirst = some 0 ∧ 0 + a.fabAckT 0 ≤ a.ts ∧ a.fport[0].rx[0].freed < a.fport[0].rx[0].taken ∧ a.fport[0].rx[0].lastAck + 800 ≤ a.ts) ∧
      (let m := fun r t => (rx fun q => { q with missing := [lostBlk r t], top := 1 })
       ((m 2 0).fport[0].rx[0].missing = [lostBlk 2 0] ∧ 0 + (m 2 0).fabResendTo 0 ≤ (m 2 0).ts) ∧
         (m 3 0).fport[0].rx[0].missing = [lostBlk 3 0] ∧ (m 3 0).fport[0].rx[0].base = 0 ∧ (m 3 0).fport[0].rx[0].got = [] ∧
         (m 3 0).fport[0].rx[0].held = [] ∧ (m 3 0).fport[0].rx[0].lost = [] ∧ CanReport (m 3 0) evFabBlockLost 0 ∧
         9999999 + ((m 1 9999999).setReg (rFabPSr 0) 0x10101010).fabResendTo 0 > (m 1 9999999).ts) := by decide +kernel
theorem witness_FabricBlocks_transmit :
    let r := tx fun q => { q with resend := [3], next := 5, unsettled := [(3, fblk), (4, fblk)], base := 3, freed := 3 }
    let w := tx fun q => { q with waiting := [{ blk := fblk, inPort := none }] }
    let x := w.fport[0].tx[0]
    let m := fun (t : Nat) => (fab fun s => { s with fab := { s.fab with reasm := [{ src := 9, tc := 3, msgid := 1, mtype := 0x38, nfrag := 2, first := t, parts := [] }] } }).setReg rFabCtrl 0x1101
    (r.portUp 0 = true ∧ r.fport[0].tx[0].resend = 3 :: [] ∧ r.fport[0].tx[0].unsettled.find? (fun u => u.1 == 3) = some (3, fblk) ∧
        r.maySend fblk.mtype = true ∧ w.maySend fblk.mtype = true ∧ fblk.mtype ≠ 0x20 ∧ fblk.mtype ≠ 0x21) ∧
      ({ r with fab := { r.fab with addr := none } }.portUp 0 = true ∧ { r with fab := { r.fab with addr := none } }.fab.addr = none) ∧
      (w.portUp 0 = true ∧ x.resend = [] ∧ x.waiting = [{ blk := fblk, inPort := none }] ∧ 0 < x.credits 0 ∧ x.next - x.base < 16) ∧
      (r.fport[0].tx[0].base + 2 ≤ r.fport[0].tx[0].next ∧ r.fport[0].tx[0].freed + 2 ≤ r.fport[0].tx[0].next ∧ r.fport[0].tx[0].unsettled ≠ []) ∧
      (∀ tc : Fin 4, w.fport[0].tx[tc].unsettled = []) ∧
      (ctlGood 0x18 (ackBody 0 5 5 []) = true ∧ fieldAt (ackBody 0 5 5 []) 2 2 = (r.fport[0].tx[0].base + 2) % 65536 ∧
        fieldAt (ackBody 0 5 5 []) 4 2 = (r.fport[0].tx[0].freed + 2) % 65536 ∧ fieldAt (ackBody 0 5 5 []) 1 1 = 0 ∧ r.useDiffers 0 = false) ∧
      (ctlGood 0x19 (txstateBody fun _ => 0) = true ∧ ctlGood 0x19 (txstateBody fun t => if t = 0 then 1 else 0) = true ∧
        (∀ t : Fin 4, w.fport[0].rx[t].top = w.fport[0].rx[t].base ∧ w.fport[0].rx[t].base = 0)) ∧
      ((port fun p => { p with txstateAt := some 9999200 }).fport[0].txstateAt = some 9999200 ∧ 9999200 + 800 = r.ts ∧ r.ts < 9999201 + 800 ∧
        r.fport[0].txstateAt = none) ∧
      ((m 0).fab.reasm.length = 1 ∧ 0 + (m 0).rf rFabCtrl 15 8 * 800 ≤ (m 0).ts ∧ (m 9999999).ts < 9999999 + (m 9999999).rf rFabCtrl 15 8 * 800) := by
  decide +kernel
theorem witness_FabricBlocks_idle : (tx id).portUp 0 = true ∧ (tx id).fabPick 0 = none := by decide +kernel
theorem witness_FabricMapAndRemote_map :
    let r := root fun f => { f with topoDue := true, mapDue := true }
    let l := { port id with fab := { (port id).fab with topoDue := true, upPort := some 0, rootSerial := 44 } }
    let old := leaf fun f => { f with rootSeqAt := 9920000 }
    let n := fab fun s => { s with fab := { s.fab with mapNew := true, map := [mapR 9, mapR 5] } }
    (run0.fabEn = false ∧ r.clk.shutdown = false ∧ r.fabEn = true ∧ r.fab.topoDue = true ∧ r.fab.isRoot = true ∧ r.fab.mapDue = true) ∧
      (l.fabEn = true ∧ l.fab.topoDue = true ∧ l.fab.isRoot = false ∧ l.fab.upPort = some 0 ∧ l.portUp 0 = true) ∧
      (old.fabEn = true ∧ old.fab.topoDue = false ∧ old.ts < old.fab.lastTopo + 80000000 ∧ old.fab.isRoot = false ∧ old.fab.rootSeqAt + 80000 = old.ts) ∧
      ((leaf fun f => { f with rootSeqAt := 9920001 }).ts < 9920001 + 80000) ∧
      ((root fun f => { f with rootSeqAt := 9992000 }).fab.rootSeqAt + 8000 = r.ts ∧ r.ts < 9992001 + 8000 ∧
        (root id).fab.mapDue = false ∧ (root id).ts < (root id).fab.lastTopo + 80000000 ∧ (leaf id).fab.upPort = none) ∧
      (n.fab.mapNew = true ∧ n.fab.addr = some 5 ∧ (fab fun s => { s with fab := { s.fab with mapNew := true, addr := none } }).fab.addr = none) := by
  decide +kernel
theorem witness_FabricMapAndRemote_messages :
    let map := fmsg 0x21 (leBytes 4 3 ++ leBytes 4 0 ++ leBytes 8 44 ++ List.replicate 16 0)
    let rsp := fmsg 0x29 (leBytes 1 7 ++ leBytes 1 0 ++ leBytes 2 3 ++ leBytes 4 0 ++ leBytes 4 0x55)
    let req := fmsg 0x28 (leBytes 1 3 ++ leBytes 1 0 ++ leBytes 2 77 ++ leBytes 4 rIoxGpoOut ++ leBytes 4 1)
    let far := { fmsg 0x28 (leBytes 4 0 ++ leBytes 4 (2 ^ 25)) with nosrc := true }
    let open_ := fun (t : Nat) => leaf fun f => { f with ra := some { tag := 3, dev := 9, at_ := t, write := false } }
    ((inb (fmsg 0x20 []) (root id)).fab.isRoot = true ∧ (inb (fmsg 0x20 []) (leaf id)).fab.isRoot = false ∧ (leaf id).fab.upPort = none) ∧
      (fieldAt map.payload 8 8 = (leaf id).fab.rootSerial ∧ map.mtype = 0x21 ∧ (leaf id).fab.ra = none) ∧
      ((open_ 9920000).fab.ra = some { tag := 3, dev := 9, at_ := 9920000, write := false } ∧ fieldAt rsp.payload 2 2 = 3 ∧ rsp.src = 9 ∧
        (open_ 9920000).MemWf ∧ 9920000 + 80000 = (open_ 9920000).ts) ∧
      (far.mtype = 0x28 ∧ far.nosrc = true ∧ 2 ^ 25 ≤ fieldAt far.payload 4 4) ∧
      (let s := leaf id
       req.nosrc = false ∧ s.fabEn = true ∧ s.fab.addr = some 5 ∧ req.src ≠ 5 ∧ req.src < 512 ∧ fieldAt req.payload 0 1 = 3 ∧
         fieldAt req.payload 4 4 < 2 ^ 25 ∧ (regSpec (fieldAt req.payload 4 4 / 4 * 4)).isSome = true ∧ openReg (fieldAt req.payload 4 4) = false ∧
         s.sys.st ≠ .hold ∧ s.sys.st ≠ .wiped ∧ s.sessionOpen req.src = false ∧ s.clk.shutdown = false) ∧
      (let rd := fun (op : Nat) => fmsg 0x28 (leBytes 1 op ++ leBytes 1 0 ++ leBytes 2 77 ++ leBytes 4 rIoxGpoOut ++ leBytes 4 0)
       ∀ op ∈ [0, 2], fieldAt (rd op).payload 0 1 = op ∧ fieldAt (rd op).payload 4 4 / 4 * 4 = rIoxGpoOut ∧ rIoxGpoOut < 2 ^ 25 ∧
         csWindow rIoxGpoOut = false ∧ (regSpec rIoxGpoOut).isSome = true ∧ isLo rIoxGpoOut = false ∧ rIoxGpoOut ≠ rPsqUevt ∧
         (∀ n : Fin 32, rIoxGpoOut ≠ rIglLMgRx n) ∧ (leaf id).hiLatch = []) ∧
      (let w := fmsg 0x28 (leBytes 1 3 ++ leBytes 1 0 ++ leBytes 2 77 ++ leBytes 4 rMtxMbxDbInset ++ leBytes 4 6)
       let s := { leaf id with sec := { run0.sec with fabs := [{ req := 9, slot := 0, last := 9999000 }] } }
       fieldAt w.payload 0 1 = 3 ∧ fieldAt w.payload 4 4 / 4 * 4 = rMtxMbxDbInset ∧ s.sessionOpen 9 = true ∧ s.MemWf) ∧
      (let g := (leaf fun f => { f with map := [mapR 9] }).setReg rFabRaCmd 9
       CoreMayAccess g ∧ fieldsOk g rFabRaCmd = true ∧ g.MemWf ∧ g.rf rFabRaCmd 8 0 = 9 ∧ g.fab.ra = none ∧ g.fab.addr = some 5 ∧ mapR 9 ∈ g.fab.map) ∧
      ((leaf id).fab.map = [] ∧ fieldsOk ((leaf id).setReg rFabRaCmd 9) rFabRaCmd = true) :=
  ⟨by decide +kernel, by decide +kernel, by decide +kernel, by decide +kernel, by decide +kernel, by decide +kernel, by decide +kernel,
    by decide +kernel, by decide +kernel⟩

/-! The causeway, fabric time and the census: witnesses -/

/-- Below the root on port 0, fabric time LOCKED. -/
def ftS (f : FabTime → FabTime) : State := { port id with
  fab := { (port id).fab with upPort := some 0, rootSerial := 44 },
  ft := f { FabTime.init with tstate := .locked, ftBase := 1000000, tsBase := 9999000, good := 7, lastRsp := 9999990, sseq := 1 } }

/-- Domain 0 enabled on this device, `c` its causeway state, control word `w`. -/
def cwOn (w : Word) (c : Cw → Cw) (m : Domain → Domain) : State :=
  let s := ({ ftS id with pos := { run0.pos with dom := run0.pos.dom.set 0 (m (domOn .locked)) } }).setReg (rPosDCtrl 0) w
  { s with cw := s.cw.set 0 (c { Cw.init with ever := true, lastAcc := 9999990, lastLocked := 9999990, gen := 2 }) }
def beacon1 : Beacon := { motion := 2, dom := 1, gen := 3, status := 0, hops := 23, root := 9, coord := 5000, age := 32000 }

theorem witness_FabricTimeAndBeacons_time :
    let q := fun (n : Nat) => ftS fun f => { f with t1 := some n }
    let th := fun (t2 t3 : Nat) => (250 * (((t2 : Int) - 1004900) - (((q 1004900).fabricTime : Int) - t3)) - ((q 1004900).reg (rFabPAsym 0)).toInt) / 500
    (run0.fab.upPort = none ∧ (ftS id).clk.shutdown = false ∧ run0.portUp 0 = false ∧ (ftS id).portUp 0 = true ∧ (ftS id).ft.t1 = none) ∧
      ((ftS id).fab.upPort = some 0 ∧ (ftS id).fab.isRoot = false ∧ (ftS id).ft.tstate ≠ .free) ∧
      ((ftS id).ft.reqAt = none ∧ (ftS fun f => { f with reqAt := some 9992000 }).ft.reqAt = some 9992000 ∧ 9992000 + 8000 = run0.ts ∧
        run0.ts < 9992001 + 8000) ∧
      (ctlGood 0x20 (syncReqBody 1) = true ∧ ctlGood 0x21 (syncRspBody 1 1012902 2) = true ∧ ctlGood 0x21 (syncRspBody 1 1004900 2) = true ∧
        fabCtlOf [] = none ∧ fieldAt (syncRspBody 1 1012902 2) 2 8 = 1012902 ∧ (ftS id).fport[0].st = 2 ∧ (ftS id).useDiffers 0 = false ∧
        (ftS id).fab.noAddr = false ∧ run0.fport[0].st ≠ 2 ∧ (port differs).useDiffers 0 = true) ∧
      ((q 1004900).ft.t1 = some 1004900 ∧ fieldAt (syncRspBody 1 1004900 2) 0 2 = (q 1004900).ft.sseq ∧ (q 1004900).fabricTime ≤ 1004900 + 8000 ∧
        (q 1004900).ft.tstate = .locked) ∧
      ((th 1004900 1005000).natAbs ≤ 8 ∧ (th 1012900 1005000).natAbs = 4000 ∧ (th 1012902 1005000).natAbs = 4001 ∧ CanReport (q 1004900) evFtStep 0) ∧
      (let h := ftS fun f => { f with lastRsp := 9960000 }
       h.fab.isRoot = false ∧ h.ft.tstate = .locked ∧ h.ft.lastRsp + 40000 = h.ts ∧ CanReport h evFtHoldover 0) := by decide +kernel
theorem witness_FabricTimeAndBeacons_beacons :
    let s := ftS id
    (s.portUp 0 = true ∧ s.fabUse 0 = 1 ∧ beacon1.status ≠ 3 ∧ beacon1.hops < 24 ∧ beacon1.age ≤ 32000 ∧ (1 : Fin 16).val = beacon1.dom ∧
        ctlGood 0x24 (beaconBody beacon1) = true ∧ beaconOf (beaconBody beacon1) = beacon1 ∧ s.useDiffers 0 = false ∧
        s.fab.addr ≠ some beacon1.root ∧ s.cw[1].active = false ∧ s.cw[1].ever = false ∧ s.dEn 1 = false ∧ s.MemWf) ∧
      (24 < (beaconOf (beaconBody { beacon1 with hops := 25 })).hops ∧ 32000 < (beaconOf (beaconBody { beacon1 with age := 32001 })).age ∧
        (beaconOf (beaconBody { beacon1 with status := 3 })).status = 3 ∧ fabCtlOf [] = none) ∧
      (let o := { s with cw := s.cw.set 1 { Cw.init with ever := true, lastSample := 1005000 - 32000 } }
       o.cw[1].ever = true ∧ ((1005000 : Nat) : Int) - beacon1.age ≤ o.cw[1].lastSample) ∧
      ({ s with fab := { s.fab with noAddr := true, addr := none } }.fab.noAddr = true ∧ s.fab.noAddr = false) ∧
      (let b := cwOn 1 (fun c => { c with active := true, lastSent := 9999240 }) id
       b.fab.addr = some 5 ∧ (b.dom 0).lock = .locked ∧ b.fabEn = true ∧ b.dEn 0 = true ∧ b.dSource 0 = 0 ∧ b.cw[0].active = true ∧
         b.cw[0].lastSent + 760 = b.ts) ∧
      (let o := cwOn 3 (fun c => { c with lastAcc := 9993600 })
       (o id).onBeacons 0 = true ∧ (o id).cw[0].lastAcc + 6400 = (o id).ts ∧ (o id).rootDom 0 = 0 ∧ (o id).pos.dom[0].lock = .locked ∧
         (o fun m => { m with lock := .acquire }).onBeacons 0 = true ∧ (o fun m => { m with lock := .acquire }).pos.dom[0].lock = .acquire) ∧
      (let t := cwOn 9 (fun c => { c with standby := true, lastLocked := 9997600, sofs := 5 }) id
       let t := { t with pos := { t.pos with shadowDom := t.pos.shadowDom.set 0 (domOn .locked) } }
       t.dEn 0 = true ∧ t.dSource 0 = 0 ∧ t.cw[0].standby = true ∧ t.cw[0].active = false ∧ t.cw[0].ever = true ∧
         t.cw[0].lastLocked + 2400 = t.ts ∧ t.pos.shadowDom[0].lock = .locked ∧ t.encFaulty (t.dEncSel 0) = false ∧
         t.rootDom 0 = 0) := by decide +kernel

/-- A device of the census, the root or not, at TS 4,000,000,000, with frames in force. -/
def cen (r : Bool) (f : Census → Census) : State :=
  let s := if r then root id else leaf id
  { s with cen := f s.cen, ts := 4000000000, frm := (frm id).frm, img := (frm id).img, pos := (onDom id).pos, regs := (s.setReg (rPosDCtrl 0) 1).regs }
def prop0 (at_ : Nat) : EpochProp := { epoch := 8, dom := 0, coord := 3000, orig := 9, at_ := at_, late := false }
def result (stop list : Nat) : FabMsg := fmsg 0x32 (leBytes 12 0 ++ [BitVec.ofNat 8 stop, 0, 0, 0] ++ List.replicate 64 (BitVec.ofNat 8 list))
def propose (e d x : Nat) : FabMsg := fmsg 0x33 (leBytes 8 e ++ leBytes 1 d ++ leBytes 3 0 ++ leBytes 8 x)
def reply (t v : Nat) : FabMsg := fmsg t (leBytes 8 8 ++ leBytes 1 v)

theorem witness_CensusAndEpochs_rounds :
    let n := fun (t : Nat) => cen true fun c => { c with lastRound := t }
    let o := fun (t : Nat) => cen true fun c => { c with open_ := some t, cround := 6 }
    let per := (n 0).polPeriod * 800000
    ((cen true fun c => { c with stale := true }).cen.stale = true ∧ (cen false id).fab.isRoot = false) ∧
      ((n 0).fabEn = true ∧ (n 0).fab.isRoot = true ∧ (n 0).fab.addr = some 5 ∧ (n 0).cen.open_ = none ∧ (n (4000000000 - per)).cen.lastRound + per = (n 0).ts) ∧
      ((n 3999999999).ts < 3999999999 + per ∧ (n 0).cen.open_ = none ∧ (fmsg 0x36 []).mtype = 0x36 ∧ (cen false id).fatalStands = false) ∧
      ((o 0).cen.open_ = some 0 ∧ (o 0).fab.isRoot = true ∧ 0 + min (per / 2) 4000000 ≤ (o 0).ts ∧ (o 3999999999).ts < 3999999999 + min (per / 2) 4000000) ∧
      ((leaf id).fabEn = true ∧ (leaf id).fab.addr = some 5 ∧ (5 : Nat) ≠ (fmsg 0x30 []).src) ∧
      (fieldAt (fmsg 0x31 (leBytes 4 6)).payload 0 4 = (o 0).cen.cround ∧ (o 0).cen.open_ ≠ none) ∧
      (bitN (fieldAt (result 1 0xFF).payload 16 64) 5 = true ∧ bitN (fieldAt (result 1 0xFF).payload 12 1) 0 = true ∧
        bitN (fieldAt (result 0 0).payload 16 64) 5 = false ∧ (cen false id).sys.st = .running ∧ (cen false id).cen.listed = false) := by decide +kernel
theorem witness_CensusAndEpochs_epochs :
    let p := fun (b : Bool) (t : Nat) => cen b fun c => { c with prop := some (prop0 t), accepted := [prop0 t], committed := [prop0 t] }
    let a := { p true 0 with fab := { (p true 0).fab with map := [mapR 9, mapR 10] } }
    let s := cen false id
    ((propose 9 0 9000).mtype = 0x33 ∧ s.fab.isRoot = false ∧ s.fabEn = true ∧ s.fab.addr = some 5 ∧ 5 ≠ (propose 9 0 9000).src) ∧
      ((s.dom 0).lock = .locked ∧ (s.dom 3).lock ≠ .locked ∧ (s.dom 3).lock ≠ .coast ∧ signed 64 (fieldAt (propose 9 0 4000).payload 12 8) = (s.dom 0).hwm ∧
        fieldAt (propose 9 0 9000).payload 0 8 > s.cen.epoch ∧ fieldAt (propose 0 0 9000).payload 0 8 = s.cen.epoch) ∧
      ((cen true id).cen.prop = none ∧ a.cen.prop = some (prop0 0) ∧ (prop0 0).epoch = fieldAt (reply 0x34 0).payload 0 8 ∧
        fieldAt (reply 0x34 2).payload 8 1 ≠ 0 ∧ fieldAt (reply 0x34 0).payload 8 1 = 0 ∧ a.cen.acks = [] ∧ mapR 10 ∈ a.fab.map ∧ (mapR 10).addr ≠ (reply 0x34 0).src) ∧
      ((p false 0).cen.accepted = [prop0 0] ∧ fieldAt (reply 0x35 1).payload 8 1 ≠ 0 ∧ CanReport (p false 0) evEpochAbort 0) ∧
      (3992000000 + 8000000 = (p true 3992000000).ts ∧ 3984000000 + 16000000 = (p true 3984000000).ts ∧ (p true 3999999999).ts < 3999999999 + 8000000) ∧
      ((p false 0).epochDue (prop0 0) = true ∧ CanReport (p false 0) evEpochDone 0 ∧ (p false 0).epochDue { prop0 0 with coord := 4001 } = false ∧
        (p false 3984000001).ts < 3984000001 + 16000000) := by
  decide +kernel
theorem witness_CensusAndEpochs_clocks (r : Bool) (f : Census → Census) : (cen r f).clk.shutdown = false := by cases r <;> rfl
theorem witness_CensusAndEpochs_two :
    let p := cen false fun c => { c with committed := [prop0 0, { prop0 0 with epoch := 9 }] }
    p.epochDue (prop0 0) = true ∧ p.epochDue { prop0 0 with epoch := 9 } = true := by decide +kernel
theorem witness_CensusAndEpochs_request :
    (cen true id).cen.open_ = none ∧ (cen true id).fab.isRoot = true ∧ (cen false id).sys.st = .running ∧ (cen false id).fatalStands = false := by decide +kernel

/-! Scratchpad, mailbox, DMA, matrix, GDDR7 and the PCIe endpoint: witnesses -/

def mtxOn (f : Mtx → Mtx) : State := { run0 with mtx := f { Mtx.init with spm := [(0, 1), (64, 9), (0x1C0000, 5), (0x1FFFFF, 6)], mbox := [(0, 3), (5, 9)] } }
def dmaOn (f : DmaCh → DmaCh) : State := mtxOn fun m => { m with dma := m.dma.set 0 (f { DmaCh.init with src := 0, dst := 64, left := 4, busy := true }) }
def stOf (x : DState) : State := { run0 with sys := { run0.sys with st := x, outEn := x == .running } }

/-- A host with its link up and a session. -/
def host (s : State) : State := { s with
  pcie := { s.pcie with linkUp := true, bme := true, speed := 5, width := 8 }, sec := { s.sec with host := some { req := 0x200, slot := 0, last := 9999000 } } }

theorem witness_ScratchpadMailboxAndDma_memory :
    let w := mtxOn fun m => { m with wiping := true }
    let t := fun (f : Mtx → Mtx) => (mtxOn f).setReg rMtxSpmTest 0x80000000
    let b := t fun m => { m with shadow := some (1, List.replicate 64 4), testLine := 32766 }
    ((mtxOn id).mtx.wiping = false ∧ w.mtx.wiping = true ∧ w.MemWf) ∧
      ((mtxOn id).mtx.spmBad = [] ∧ ((mtxOn id).setReg rMtxSpmTest 0).rbit rMtxSpmTest 31 = false) ∧
      ((t id).mtx.wiping = false ∧ (t id).mtx.spmBad = [] ∧ (t id).rbit rMtxSpmTest 31 = true ∧ (t id).mtx.shadow = none) ∧
      (b.mtx.shadow = some (1, List.replicate 64 4) ∧ b.mtx.testLine < 32767 ∧ CanReport b evSpmTestFail 0 ∧ b.MemWf) ∧
      (let m := fun (n at_ : Nat) => t fun m => { m with shadow := some (n, List.replicate 64 4), testLine := n, testAt := at_ }
       (m 32767 14999960).mtx.testLine = 32767 ∧ (m 32767 14999960).mtx.testAt + 40 * 2 ^ (m 0 0).rf rMtxSpmTest 27 24 = (m 0 0).cclk ∧
         (m 0 0).cclk < 14999961 + 40 * 2 ^ (m 0 0).rf rMtxSpmTest 27 24 ∧ 14999995 + 5 * 2 ^ (m 0 0).rf rMtxSpmTest 27 24 = (m 0 0).cclk ∧
         (m 32767 14999960).MemWf) ∧
      CanReport (mtxOn id) evMbxCollide 0 := by decide +kernel
theorem witness_ScratchpadMailboxAndDma_channels :
    let i := ((dmaOn fun c => { c with busy := false }).setReg (rMtxDmaLen 0) 0x00FFFFFC)
    let d := dmaOn fun c => { c with src := 0x1BFFFC, dst := 0x1BFFFC }
    let e := fun (a : Nat) => dmaOn fun c => { c with src := a }
    (CoreMayAccess i ∧ i.mtx.dma[0].busy = false ∧ i.rf (rMtxDmaLen 0) 23 0 ≠ 0) ∧
      (CoreMayAccess d ∧ d.mtx.dma[0].busy = true ∧ CanReport d evMtxMasterReset 0 ∧ d.owes 7 = false ∧ d.clk.shutdown = false ∧
        (let o := { d with mtx := { d.mtx with owed := [(7, 3, 9999999)] } }
         o.owes 7 = true)) ∧
      (d.mtx.wiping = false ∧ d.mtx.spmBad = [] ∧ d.mtx.shadow = none ∧ d.mtx.late = [] ∧ d.mtx.dma[0].left = 4 ∧ d.mtx.dma[0].src % 4 = 0 ∧
        d.mtx.dma[0].dst % 4 = 0 ∧ d.mtx.dma[0].src + 4 = 0x1C0000 ∧ d.mtx.dma[0].dst < 0x1C0000) ∧
      ((∀ c : Fin 4, c ≠ 0 → d.mtx.dma[c].busy = false) ∧ d.dmaNext = some (0 : Fin 4).val ∧ d.dmaNext ≠ some (1 : Fin 4).val ∧
        (e 0x1FFFFC).dmaNext = some (0 : Fin 4).val) ∧
      ((e 0x1C0000).mtx.dma[0].src = 0x1C0000 ∧ (e 0x1FFFFC).mtx.dma[0].src + 4 = 0x200000 ∧ (e 0x1FFFFC).mtx.dma[0].src % 4 = 0 ∧
        4 ≤ (e 0x1FFFFC).mtx.dma[0].left ∧ (e 0x1FFFFC).mtx.dma[0].busy = true) := by decide +kernel
theorem witness_ScratchpadMailboxAndDma_core :
    let c := { mtxOn id with core := { Core.init with st := 1, pc := 0x100 } }
    let p := fun (u : Nat) => { c with peat := { Peat.init with fwLast := some u } }
    let r := { mtxOn id with core := { Core.init with st := 3, entry := some 0x400 } }
    (c.mtx.late = [] ∧ c.peat.queue.length < 1024 ∧ c.core.st = 1 ∧ c.priv = true ∧ (mtxOn id).core.st ≠ 1) ∧
      ((p 9920000).peat.fwLast = some 9920000 ∧ 9920000 + 80000 = (p 9920000).ts ∧ (p 9920001).ts < 9920001 + 80000) ∧
      (CoreMayAccess r ∧ r.core.entry = some 0x400 ∧ r.core.st ≠ 0 ∧ run0.core.entry = none ∧ CoreMayAccess run0) := by decide +kernel
theorem witness_ScratchpadMailboxAndDma_tiles :
    let d := fun (a : Nat) (x : Tile → Tile) => (dmaOn fun c => { c with src := a }).updTile 0 fun _ => x { Tile.init with st := .run, done := false }
    (d 0x60000000 id).tileWaits 2 0x60000000 = true ∧ (d 0x1C0000 id).tileWaits 2 64 = false ∧
      (mtxOn fun m => { m with late := [(0, 1), (2, 5)] }).mtx.late = [(0, 1), (2, 5)] := by decide +kernel

def gdc (st : Nat) : State := { run0 with gdc := run0.gdc.set 0 { GdcPort.init with st := st } }

theorem witness_MatrixErrorsAndGddr7 :
    let t := fun (ok : Bool) => ({ port := 0, passed := ok, attempts := 1, step := 5, ms := 3, eyes := [] } : GddrTrain)
    let done := fun (b : Nat) (q : GddrReq) => ({ port := 0, write := true, bad := b, corrected := false, uncorrectable := false, addr := 0x1234, req := q } : GddrDone)
    let g := (gdc 2).setReg (rGdcPCtrl 0) 0x00100300
    (run0.rbit rMtxErrInfo 31 = false ∧ run0.MemWf ∧ CanReport run0 evMtxTimeout 0 ∧ CanReport run0 evMtxLockBreak 0) ∧
      ((gdc 0).gdc[(t true).port].st ≠ 1 ∧ (gdc 1).gdc[(t true).port].st = 1 ∧ (t true).passed = true ∧ (t false).passed = false ∧
        (gdc 1).MemWf ∧ CanReport (gdc 1) evGdcTrainFail 0) ∧
      (g.gdc[0].st = 2 ∧ g.MemWf ∧ (gdc 1).gdc[0].st ≠ 2) ∧
      ((done 3 .own).bad = g.rf (rGdcPCtrl 0) 11 8 ∧ CanReport g evGdcRetry 0 ∧ (done 3 .own).corrected = false ∧ (done 3 .own).uncorrectable = false) ∧
      (g.rf (rGdcPCtrl 0) 11 8 < (done 4 .own).bad ∧ g.gdc[0].fails = [] ∧ 2 ≤ g.rf (rGdcPCtrl 0) 23 16 ∧ CanReport g evGdcRetryFail 0 ∧
        (done 4 .own).req = .own ∧ (done 4 (.slot 0 0 3)).req = .slot 0 0 3) := by decide +kernel
theorem witness_MatrixErrorsAndGddr7_lost :
    let l := gdc 3
    l.clk.shutdown = false ∧ l.mtx.owed = [] ∧ l.gdc[0].st = 3 ∧ l.MemWf ∧ l.owes 0 = false ∧ l.owes 3 = false ∧ (gdc 1).gdc[0].st ≠ 2 ∧ (gdc 1).gdc[0].st ≠ 3 := by decide +kernel

theorem witness_PcieEndpoint_interrupts :
    let due := run0.setReg rMtxMbxDbOut 1
    let h := fun (m : BitVec 64) (c : BitVec 64) => let s := host due; { s with pcie := { s.pcie with msixEn := true, mask := m, cond := c } }
    (run0.vecCond 6 = false) ∧
      ((h 0 0).vecCond 6 = true ∧ (h 0 0).pcie.cond.getLsbD 6 = false ∧ (h 0 0).busMaster = true ∧ (h 0 0).pcie.msixEn = true ∧ (h 0 0).pcie.mask.getLsbD 6 = false) ∧
      ((h (-1) 0).vecCond 6 = true ∧ (h (-1) 0).pcie.mask.getLsbD 6 = true) ∧
      ((h 0 (-1)).vecCond 6 = true ∧ (h 0 (-1)).pcie.cond.getLsbD 6 = true ∧ (h 0 (-1)).pcie.pend.getLsbD 6 = false) ∧
      (run0.pcie.linkUp = false ∧ (host (stOf .verify)).pcie.linkUp = true ∧ (stOf .verify).sys.st.code < 2 ∧ (stOf .load).sys.st.code = 2 ∧
        cfgBar4 (.busMaster true) = false) ∧
      (State.reset.sys.pdReleased = false ∧ run0.sys.pdReleased = true ∧ run0.MemWf) := by decide +kernel
theorem witness_PcieEndpoint_memory :
    let h := host (mtxOn id)
    let off := fun (n : Nat) => (BitVec.ofNat 29 n).toNat
    let r := { host run0 with res := { run0.res with recR := { run0.res.recR with pi := 5, ci := 3 }, clipR := { run0.res.clipR with pi := 2, ci := 1 } } }
    let far := fun (ci pi old : Nat) => decide ((pi + 2 ^ 32 - old) % 2 ^ 32 < (ci + 2 ^ 32 - old) % 2 ^ 32)
    (h.pcie.linkUp = true ∧ 2 ≤ h.sys.st.code ∧ h.MemWf ∧ h.sec.host.isSome ∧ { h with sec := { h.sec with host := none } }.sec.host = none) ∧
      (off 0x10000 % 8 = 0 ∧ off 0x10FF8 + 8 = 0x11000 ∧ off 0x10FF8 % 8 = 0 ∧ off 0x10FFC + 4 = 0x11000 ∧ off 0x10002 % 4 ≠ 0) ∧
      (off 0x200000 % 8 = 0 ∧ off 0x3BFFF8 + 8 = 0x3C0000 ∧ off 0x3BFFF8 % 8 = 0 ∧ h.mtx.spmBad = [] ∧ h.mtx.wiping = false ∧ h.mtx.shadow = none) ∧
      (off 0xFFFC < 0x10000 ∧ off 0x11000 = 0x11000 ∧ off 0x1FFFFC + 4 = 0x200000 ∧ off 0x3C0000 = 0x3C0000) ∧
      (far 5 r.res.recR.pi r.res.recR.ci = false ∧ far 6 r.res.recR.pi r.res.recR.ci = true ∧ far 2 r.res.clipR.pi r.res.clipR.ci = false ∧
        far 3 r.res.clipR.pi r.res.clipR.ci = true ∧ r.MemWf ∧ CoreMayAccess r) := by decide +kernel

/-- A host with its session and the GDDR7 aperture on `n` times 256 MiB of port 0, which is in state `st`. -/
def aperture (n st : Nat) : State :=
  let s := host (mtxOn id)
  ({ s with gdc := s.gdc.set 0 { GdcPort.init with st := st } }.setReg rPcieGwinCtrl 0x80000000).setReg rPcieGwinBaseLo (w32 (n * 0x10000000))
theorem witness_PcieEndpoint_bar4 :
    let off := fun (n : Nat) => (BitVec.ofNat 29 n).toNat
    let p := fun (s : State) => s.rf rPcieGwinCtrl 2 0
    let g := fun (s : State) (o : Nat) => s.reg64 rPcieGwinBaseLo + (o - 0x10000000)
    let shown := fun (s : State) (o : Nat) => s.rbit rPcieGwinCtrl 31 = true ∧ (s.gdcAt (p s)).st = 2 ∧ g s o + 4 ≤ s.gdcBytes (p s)
    let s := aperture 0 2
    (s.pcie.linkUp = true ∧ s.MemWf ∧ 2 ≤ s.sys.st.code ∧ s.sec.host.isSome ∧ s.mtx.spmBad = [] ∧ s.mtx.wiping = false ∧ s.mtx.shadow = none) ∧
      (off 0x200000 % 4 = 0 ∧ off 0x3BFFFC + 4 = 0x3C0000 ∧ off 0x3BFFFC % 4 = 0 ∧ off 0x3C0000 = 0x3C0000 ∧ off 0x3FFFFFC < 0x4000000 ∧
        off 0xC800000 = 0xC800000 ∧ off 0xFFFFFFC < 0x10000000 ∧ off 0x1FFFFFFC = 0x1FFFFFFC ∧ (host (stOf .verify)).sys.st.code < 2) ∧
      (shown s 0x10000000 ∧ shown s 0x1FFFFFFC ∧ ¬ shown (aperture 0 1) 0x10000000 ∧ ¬ shown (aperture 8 2) 0x10000000 ∧
        ¬ shown (s.setReg rPcieGwinCtrl 0) 0x10000000 ∧ shown (aperture 7 2) 0x10000000) ∧
      (s.inSysArea 0 (g s 0x10000000 + 3) = false ∧ (aperture 7 2).inSysArea 0 (g (aperture 7 2) 0x10000000 + 3) = true) := by decide +kernel

theorem witness_PcieEndpoint_configuration :
    let s := aperture 0 2
    let c := { s with pcie := { s.pcie with crs := false } }
    let d := { s with sec := { s.sec with debugOpened := true, scope := 1 }, core := { Core.init with st := 1 } }
    let o := { s with mtx := { s.mtx with owed := [(3, 2, 9999999)] } }
    (s.pcie.linkUp = true ∧ s.pcie.crs = true ∧ c.pcie.crs = false ∧ c.pcie.cfg = [] ∧ smWf cfgInit c.pcie.cfg = true ∧ s.debugGate 0 = false ∧
        d.debugGate 0 = true ∧ d.core.st = 1 ∧ { d with core := { d.core with st := 4 } }.core.st = 4) ∧
      (s.owes 3 = false ∧ o.owes 3 = true ∧ s.sys.st.code = 5 ∧ CanReport s evMtxDecerr 0 ∧ s.rbit rMtxErrInfo 31 = false ∧
        (BitVec.ofNat 29 0x3C0000).toNat = 0x3C0000 ∧ (BitVec.ofNat 29 0x3FFFFC).toNat + 4 = 0x400000) ∧
      (s.pcie.fnMask = false ∧ { s.pcie with fnMask := true }.fnMask = true ∧ s.mtx.late = [] ∧ (0x1BFFFC : Word).toNat + 4 = 0x1C0000) :=
  ⟨by decide +kernel, by decide +kernel, by decide +kernel⟩

/-- R548, R549: through BAR4 a read of the aperture and of the secure window, and a write without a session. -/
theorem test_bar4 :
    let s := { aperture 0 2 with gddr := [(gddrKey 0 0x100, 0x5A)] }
    let n := { s with sec := { s.sec with host := none } }
    (s.bar4Read 0x10000100).rdData = 0x5A ∧ (s.bar4Read 0x3C0000).rdResp = "UR" ∧ (n.bar4Write 0x200000 [1]).mtx.spm = s.mtx.spm ∧
      (s.bar4Write 0x200001 [7, 8]).mtx.spm.take 3 = [(0, 1), (1, 7), (2, 8)] ∧
      (s.bar4Write 0x202C [1]).pcie.mask.getLsbD 2 = true ∧ (s.bar4Write 0x202C [0]).pcie.mask.getLsbD 2 = false := by decide +kernel

/-! Clocks, supplies, power, reset, start-up and the image: witnesses -/

def entry0 (n c : Nat) : JEntry := {
  seq := n, intent := 5, code := c, dom := 0, state := 5, req := 0x200, ft := 0, coord := 0, argdig := argDigest (descOf c 5 []), ostat := 1, ocode := 0,
  dur := 0, odata := 0, at_ := 0, acrcOk := true, ocrcOk := true, doneAt := 0, made := false }
def qcmd (code n : Nat) : QCmd := { seq := n, req := .host, desc := descOf code 7 [], at_ := 5 }

def clk (f : Clk → Clk) : State := { run0 with clk := f Clk.init }
def rail (a b r m : Nat) : RailUp := { start := a, inRange := b, rise := r, mv := m }
/-- A power-up inside every rating. -/
def goodPower : PowerUp := {
  ld33 := rail 0 200 200 3300, mram := rail 300 500 200 1800, ld := rail 600 800 200 900, sram := rail 900 1100 200 800, core := rail 1200 1400 200 750,
  arr := rail 1500 1700 200 750, sdsL := rail 1800 2000 200 850, sdsH := rail 2100 2300 200 1200, gdq := rail 2400 2600 200 1200,
  io18 := rail 2700 2900 200 1800 }
def hotAt (n : Nat) : Vector (BitVec 16) 8 := (Vector.replicate 8 200).set 3 (BitVec.ofNat 16 n)

theorem witness_ClocksSuppliesAndPeat_thermal :
    let s := clk id
    let cool := { clk (fun c => { c with coolFrom := some 0 }) with ts := 80000000, frm := { Machine.Frm.init with step := 2 } }
    (s.clk.thermAt = none ∧ (clk fun c => { c with thermAt := some 9200000 }).clk.thermAt = some 9200000 ∧ 9200000 + 800000 = s.ts ∧
        s.ts < 9200001 + 800000) ∧
    (∀ n ∈ [949, 950, 999, 1000, 1149, 1150], (∀ i : Fin 8, (hotAt n)[i].toInt ≤ n) ∧ ∃ i : Fin 8, (hotAt n)[i].toInt = n) ∧
      (s.sys.powered = true ∧ s.sys.resetN = true ∧ s.clk.shutdown = false ∧ s.clk.hotReq = none ∧ s.frm.step < 4 ∧ CanReport s evThermHigh 0 ∧ s.MemWf ∧
        s.sys.st = .running) ∧
      (let h := fun (st : DState) => { stOf st with clk := { Clk.init with shutdown := true }, sec := { Sec.init with selftest := 0x1FF } }
       (h .boot).clk.shutdown = true ∧ (h .boot).sys.st = .boot ∧ (h .boot).sec.env = false ∧ (h .boot).testsPassed = true ∧ (h .boot).sys.powered = true ∧
         (h .boot).sys.resetN = true ∧ (h .boot).clk.thermAt = none ∧ (stOf .boot).clk.shutdown = false ∧ onPdClocks .wfiWake = true ∧
         onPdClocks (.thermalSample (hotAt 1) 1) = false) ∧
      ((clk fun c => { c with hotReq := some 9999000 }).ts < 9999000 + 8000000) ∧
      (cool.clk.coolFrom = some 0 ∧ 0 + 80000000 = cool.ts ∧ 0 < cool.frm.step ∧ cool.fastest ≤ cool.frm.step - 1 ∧ cool.rbit rClkAvsCtrl 7 = false) := by
  decide +kernel
theorem witness_ClocksSuppliesAndPeat_supplies :
    let a := fun (t : Nat) => (clk fun c => { c with avsStep := some 1, target := 700, avsAt := t }).setReg rClkAvsCtrl 0xC0
    let r := { (clk fun c => { c with avsRetry := some (1, 10000000) }) with frm := { Machine.Frm.init with step := 3 } }.setReg rClkAvsCtrl 0xC0
    let pm := (run0.setReg rClkAvsCtrl 0x21).setReg rClkPmbAddr 0x00002221
    ((a 9600000).clk.avsStep = some 1 ∧ (a 0).clk.target ≤ (690 : BitVec 16).toNat + 10 ∧ (710 : BitVec 16).toNat ≤ (a 0).clk.target + 10 ∧
        (a 9600000).ts = (a 9600000).clk.avsAt + 400000 ∧ (a 9599999).clk.avsAt + 400000 < (a 9599999).ts ∧ (a 0).rbit rClkAvsCtrl 7 = true ∧
        run0.rbit rClkAvsCtrl 7 = false ∧ run0.clk.avsStep = none) ∧
      ((a 9600000).clk.avsAt + 400000 = (a 9600000).ts ∧ CanReport (a 9600000) evAvsFault 0 ∧ (a 9600000).MemWf ∧ (a 9600001).ts < 9600001 + 400000) ∧
      (r.clk.avsRetry = some (1, 10000000) ∧ 10000000 ≤ r.ts ∧ 1 < r.frm.step ∧ r.fastest ≤ 1 ∧ r.rbit rClkAvsCtrl 7 = true ∧ run0.clk.avsRetry = none ∧
        (r.setReg rClkCtrl 2).fastest = 2) ∧
      (run0.railRange 0 = (785, 815) ∧ (stOf .boot).railRange 0 = (735, 815) ∧ (a 0).railRange 0 = (685, 715)) ∧
      (CanReport run0 evPmbAlert 0 ∧ run0.MemWf ∧ CanReport run0 evSupplyWarn 0 ∧ bitN run0.clk.warn 0 = false ∧ bitN (clk fun c => { c with warn := 15 }).clk.warn 3 = true) ∧
      (0 < pm.pmbAddrs.length ∧ pm.pmbAddrs.length ≤ 4 ∧ CanReport pm evAvsFault 0 ∧ pm.sys.powered = true ∧ pm.sys.resetN = true ∧
        pm.clk.powerAt = none ∧ pm.clk.healthAt = none ∧ pm.peat.queue.length < 1024) ∧
      (let p := { clk (fun c => { c with powerAt := some 10000000, healthAt := some 10000000 }) with ts := 90000000 }
       (∀ u, p.clk.powerAt = some u → u + 80000000 ≤ p.ts) ∧ (∀ u, p.clk.healthAt = some u → u + 80000000 ≤ p.ts) ∧ 89999999 < 10000000 + 80000000) :=
  ⟨by decide +kernel, by decide +kernel, by decide +kernel, by decide +kernel, by decide +kernel, by decide +kernel, by decide +kernel⟩
theorem witness_ClocksSuppliesAndPeat_peat :
    let q := { run0 with peat := { Peat.init with queue := [{ type := 7, sub := 1, time := 3, body := [1, 2] }], next := 4, head := some 262143 } }
    let f := fun (d : Nat) => { run0 with eru := { Eru.init with fatalActive := true, fatalDue := d } }
    (State.reset.peat.queue = [] ∧ { State.reset with sys := { SysState.init with powered := false } }.sys.powered = false ∧ run0.sys.powered = true) ∧
      (q.sys.powered = true ∧ q.sys.resetN = true ∧ q.peat.wroteAt = none ∧ { q.peat with wroteAt := some 9996000 }.wroteAt = some 9996000 ∧
        9996000 + 4000 = q.ts ∧ q.ts < 9996001 + 4000) ∧
      (q.peat.queue = { type := 7, sub := 1, time := 3, body := [1, 2] } :: [] ∧ smWf peatDefault q.peat.ring = true ∧ ∀ k : Fin 4, q.peat.regions[k] = none) ∧
      ((f 10000000).eru.fatalActive = true ∧ (f 10000000).eru.fatalDue ≤ (f 10000000).ts ∧ (f 10000000).sys.st = .running ∧ (f 10000001).ts < 10000001) := by
  decide +kernel
theorem witness_ClocksSuppliesAndPeat_undo :
    let s := { run0 with jnl := { Jnl.init with entries := [entry0 1 2] } }
    s.sec.undo = none ∧ (∀ e ∈ s.jnl.entries, e.doneAt + 8000 ≤ s.ts) ∧ s.sys.powered = true ∧ State.reset.sys.powered = true ∧
      { State.reset with sys := { SysState.init with resetN := false } }.sys.resetN = false ∧ (stOf .verify).sys.st = .verify ∧
      (stOf .load).sys.st = .load := by decide +kernel

def bootS (f : Sec → Sec) : State := { stOf .boot with sec := f Sec.init }

theorem witness_PowerResetAndRelease_power :
    let off := { State.reset with sys := { SysState.init with powered := false, resetN := false } }
    let r := fun (t : Nat) => { State.reset with ts := t, sys := { SysState.init with resetN := false } }
    (run0.sys.powered = true ∧ off.sys.powered = false ∧ powerOk goodPower = true) ∧
      ((rail 600 800 200 854).mv < 855 ∧ 945 < (rail 600 800 200 946).mv ∧ (rail 1500 1700 99 750).rise < 100 ∧
        goodPower.core.start < { goodPower with ld := rail 600 1201 200 900 }.ld.inRange) ∧
      (run0.sys.resetN = true ∧ 999 < 1000 ∧ 10000 ≤ 10000) ∧
      ((r 8000000).sys.powered = true ∧ (r 8000000).sys.resetN = false ∧ (r 7999999).sys.resetCause = 0 ∧ (r 7999999).ts < (r 7999999).sys.resetFall + 8000000 ∧
        (r 8000000).sys.resetFall + 8000000 = (r 8000000).ts ∧ (r 8000000).sys.st = .boot ∧ (r 8000000).sys.outEn = false ∧
        (r 8000000).sys.laggLost = false) := by decide +kernel
theorem witness_PowerResetAndRelease_boot :
    let o := bootS fun c => { c with lc := .owned }
    let ready := fun (s : State) => decide (s.sys.st = .boot ∧ s.sys.resetN = true ∧ s.sys.powered = true ∧ s.sec.selftest = 0 ∧ s.sec.env = false ∧
      s.clk.shutdown = false ∧ s.sec.pendMark = false ∧ s.sec.debugOpened = false ∧ s.sec.testFail = false)
    let e := bootS fun c => { c with lc := .owned, env := true, selftest := 0x1FF }
    (run0.sys.st ≠ .boot ∧ ready o ∧ o.peat.queue.length < 1024 ∧ o.otp.scrapped = false ∧ o.sec.lc = .owned ∧ o.sys.restartHold = false) ∧
      (ready (bootS fun c => { c with lc := .returned }) ∧ ready (bootS id) ∧ (bootS id).sec.lc = .blank ∧ ready { o with otp := { Otp.init with scrapped := true } } ∧
        ready { o with sys := { o.sys with restartHold := true } } ∧ (bootS fun c => { c with env := true }).sec.env = true) ∧
      ((bootS fun c => { c with testFail := true }).sec.testFail = true ∧ (bootS fun c => { c with testFail := true }).sys.st = .boot) ∧
      (e.sys.st = .boot ∧ e.sec.selftest = 0x1FF ∧ e.clk.shutdown = false ∧ e.otp.scrapped = false ∧ e.sec.lc = .owned ∧ e.sec.debugOpened = false ∧
        e.sys.restartHold = false) ∧
      (State.reset.sys.pdReleased = false ∧ run0.sys.pdReleased = true ∧ run0.sys.dieLink = true ∧ (run0.slotAt 6).valid = false ∧ (run0.slotAt 7).valid = false) := by
  decide +kernel
theorem witness_PowerResetAndRelease_keys :
    let b := bootS id
    let f := bootS fun c => { c with entropyFail := true }
    let k := bootS fun c => { c with idKey := some 3 }
    b.sec.pendMark = false ∧ (f.sec.entropyFail = true ∧ f.sec.idKey = none) ∧ (k.sec.idKey = some 3 ∧ k.sec.transient = false) ∧
      b.sec.idKey = none ∧ b.sec.entropyFail = false := by decide +kernel

/-- Image header of three sections (a schedule set, a table set, the recipes) in flash slot 0; its key is owner slot 0's. -/
def imgFlash (magic ver n svn mask : Nat) (fin : Nat) : Flash :=
  let ent := fun (t o l : Nat) => leBytes 1 t ++ [0, 0, 0] ++ leBytes 4 o ++ leBytes 4 l ++ List.replicate 20 0 ++ List.replicate 32 0xAA
  let top := leBytes 4 magic ++ leBytes 2 ver ++ leBytes 2 1 ++ leBytes 4 0x200000 ++ leBytes 4 svn ++ leBytes 8 7 ++ [0, BitVec.ofNat 8 n, 0, 0, BitVec.ofNat 8 mask]
  let b := top ++ List.replicate (128 - top.length) 0 ++ ent 3 0x9000 64 ++ ent 4 0xA000 64 ++ ent 5 0xB000 40960
  { Flash.init with mem := (b.zipIdx.filter fun x => x.1 != 0xFF).map (fun x => (x.2, x.1)) ++
      ((leBytes 8 fin).zipIdx.map fun x => (4088 + x.2, x.1)) }
def verifyS (f : Flash) (i : Img → Img) : State := { stOf .verify with
  flash := f, img := i Img.init, sec := { Sec.init with lc := .owned, kwrap := some [], slots := Sec.init.slots.set 0 (OwnerSlot.active [1, 2]) } }
def sect (t i o l : Nat) (dig : List Byte) : Sect := { type := t, index := i, offset := o, length := l, digest := dig }

theorem witness_LoadingTheImage_verify :
    let f := imgFlash 0x4943544B 1 3 5 3
    let s := verifyS (f 0x454E4F444943544B) id
    let ok := fun (s : State) => decide (s.MemWf ∧ s.img.slot ≤ 1 ∧ s.img.sects.length ≤ 30 ∧ s.sys.st = .verify ∧ s.flash.density ≤ 1)
    (ok s ∧ s.hdr 0 4 = 0x4943544B ∧ s.hdr 4 2 = 1 ∧ s.hdr 4088 8 = 0x454E4F444943544B ∧ s.hdr 12 4 = 5 ∧ s.headerCheck.isRight = true ∧
        s.sec.imgFloor ≤ 5 ∧ bitN (s.hdr 28 1) s.otp.grade = true ∧ s.img.slot = s.img.sel) ∧
      (1 < { s with flash := { s.flash with density := 2 } }.flash.density ∧ (verifyS (f 0) id).hdr 4088 8 ≠ 0x454E4F444943544B ∧
        (let b := verifyS (imgFlash 0x4943544C 2 3 5 3 0x454E4F444943544B) id
         b.hdr 4088 8 = 0x454E4F444943544B ∧ b.hdr 0 4 ≠ 0x4943544B) ∧
        (let v := verifyS (imgFlash 0x4943544B 2 3 5 3 0x454E4F444943544B) id
         v.hdr 4088 8 = 0x454E4F444943544B ∧ v.hdr 0 4 = 0x4943544B ∧ v.hdr 4 2 ≠ 1)) ∧
      ((verifyS (imgFlash 0x4943544B 1 0 5 3 0x454E4F444943544B) id).headerCheck = .inl (4, 0xFF) ∧
        (verifyS (imgFlash 0x4943544B 1 2 5 3 0x454E4F444943544B) id).headerCheck = .inl (0x0A, 0xFF) ∧
        { s with sec := { s.sec with slots := Sec.init.slots } }.headerCheck = .inl (5, 0xFF)) ∧
      (s.hdr 12 4 < { s with sec := { s.sec with imgFloor := 6 } }.sec.imgFloor ∧
        bitN ((verifyS (imgFlash 0x4943544B 1 3 5 0 0x454E4F444943544B) id).hdr 28 1) s.otp.grade = false ∧ bitN (s.hdr 6 2) 0 = true) ∧
      ((verifyS (f 0) fun i => { i with slot := 1, aCode := 3 }).img.slot = 1) ∧
      (run0.sys.st ≠ .verify ∧ run0.sys.st ≠ .load ∧ run0.sys.st ≠ .train) := by decide +kernel

def loadS (e : Sect) (m : Memory) : State := { stOf .load with img := { Img.init with sects := [e] }, flash := { Flash.init with mem := m } }
/-- Nine bytes of firmware for address 0x100, entry 0x104. -/
def fwBytes : List Byte := leBytes 4 0x100 ++ leBytes 4 0x104 ++ leBytes 4 16 ++ leBytes 20 0 ++ [1, 2, 3, 4, 5, 6, 7, 8, 9] ++ List.replicate 23 0
def fwSect : Memory := fwBytes.zipIdx.map fun (x : Byte × Nat) => (0x9000 + x.2, x.1)
def secDigest (m : Memory) : List Byte := fitBytes 32 (Config.shake256 (memGetBytes flashDefault m 0x9000 64))

/-- A section of type `t` with the digest of its own bytes, in a flash that holds `m`. -/
def ownDigest (t : Nat) (m : Memory) : State := loadS (sect t 0 0x9000 64 (secDigest m)) m

theorem witness_LoadingTheImage_sections :
    (∀ m ∈ [fwSect, []], (ownDigest 7 m).sys.st = .load ∧ (ownDigest 7 m).img.done < (ownDigest 7 m).img.sects.length ∧
        (ownDigest 7 m).slotBytesAt 0x9000 64 = memGetBytes flashDefault m 0x9000 64 ∧ Memory.wf flashDefault m = true) ∧
      (ownDigest 7 fwSect).sectRules (sect 7 0 0x9000 64 []) (memGetBytes flashDefault fwSect 0x9000 64) = none ∧
      ((ownDigest 7 []).sectRules (sect 7 0 0x9000 64 []) (memGetBytes flashDefault [] 0x9000 64)).isSome = true := by decide +kernel
theorem witness_LoadingTheImage_digest (m : Memory) : fitBytes 32 (Config.shake256 (memGetBytes flashDefault m 0x9000 64)) = secDigest m := rfl

/-- Every section read: the set, no tables, the recipes of `frm`. -/
def loadedS (f : Img → Img) : State := { stOf .load with img := f { Img.init with
  sects := [sect 3 0 0x9000 64 [], sect 4 0 0xA000 64 [], sect 5 0 0xB000 40960 []], done := 3,
  staged := [{ type := 3, index := 0, data := set0 }, { type := 4, index := 0, data := [] }, { type := 5, index := 0, data := rcp 0 0 0 0 0 }] } }

theorem witness_LoadingTheImage_load :
    (loadedS id).img.done = (loadedS id).img.sects.length ∧ (loadedS id).applied.loadChecks = none ∧ (loadedS id).sys.fatalPend = false ∧
      (loadedS fun i => { i with staged := [{ type := 3, index := 0, data := set0.set 7 0 }, { type := 4, index := 0, data := [] }, { type := 5, index := 0, data := rcp 0 0 0 0 0 }] }).applied.loadChecks.isSome = true := by decide +kernel
theorem witness_LoadingTheImage_train :
    let t := fun (f : Img → Img) => { stOf .train with img := f { Img.init with recipes := rcp 0 0 0 0 0, sets := [{ type := 3, index := 0, data := set0 }] } }
    let e := { (t fun i => { i with reread := true }) with fab := { FabCore.init with discDone := true } }
    ((t id).sys.st = .train ∧ (t id).img.reread = false ∧ (∀ p : Fin 8, (t id).gdc[p].st ≠ 1) ∧ (t id).rereadBad = none) ∧
      { t id with gdc := (t id).gdc.set 0 { GdcPort.init with st := 2 } }.gdc[0].st = 2 ∧
      (e.sys.st = .train ∧ e.trainOver = true ∧ e.img.fallback = false ∧ e.rcpAuto e.startRecipe = false) ∧
      (let a := { e with img := { e.img with recipes := (rcp 0 0 0 0 0).set 0 3 } }
       a.trainOver = true ∧ a.rcpAuto a.startRecipe = true ∧ a.sys.dieLink = true) ∧
      ({ t (fun i => { i with sects := [sect 3 0 0x9000 64 []] }) with gdc := (t id).gdc.set 0 { GdcPort.init with st := 2 } }.gdc[0].st = 2) := by decide +kernel
theorem witness_LoadingTheImage_stands :
    let t := { stOf .train with img := { Img.init with sects := [sect 3 0 0x9000 64 []] } }
    let f := { t with eru := { Eru.init with fatalActive := true } }
    (t.fatalStands = false ∧ t.img.reread = false ∧ f.fatalStands = true ∧ t.sys.cenStop = false ∧ t.img.fallback = false) ∧
      ((loadS (sect 7 0 0x9000 64 []) fwSect).mtx.wiping = false ∧ (loadS (sect 7 0 0x9000 64 []) fwSect).mtx.shadow = none) ∧ t.MemWf := by decide +kernel

/-! Security, registers and the journal: witnesses -/

def chal : List Byte := (List.range 32).map fun i => BitVec.ofNat 8 (i + 1)
def pubKey : List Byte := List.replicate 64 0x64
def payKey : List Byte := List.replicate 64 7

/-- A token: type, signer, argument, payload, requester. -/
def token (t g a : Nat) (pay : List Byte) (req : Nat) : List Byte :=
  leBytes 4 0x4B4F544B ++ leBytes 1 t ++ leBytes 1 g ++ leBytes 1 a ++ [0] ++ leBytes 8 Otp.init.serial ++ chal ++ pubKey ++ fitBytes 64 pay ++
    leBytes 2 req ++ List.replicate 14 0

/-- The host holds the claim, and SEC_BUF holds the token; owner slots 0 and 1 are ACTIVE; root key 0 has the hash of the signer's key. -/
def tokS (st : DState) (lc : LifeCycle) (b : List Byte) : State :=
  let s := host (stOf st)
  { s with
    otp := { Otp.init with rootHash := Otp.init.rootHash.set 0 (fitBytes 32 (Config.shake256 pubKey)) },
    sec := { s.sec with
      lc := lc, slots := (Sec.init.slots.set 0 (OwnerSlot.active pubKey)).set 1 (OwnerSlot.active payKey), idKey := some 3, kwrap := some [],
      claim := some { holder := 0x200, chal := some chal, last := 9999000 },
      buf := (b.zipIdx.filter fun (x : Byte × Nat) => x.1 != 0).map fun (x : Byte × Nat) => (x.2, x.1) } }

/-- Everything of the token's check but the signature and the hash of a root key, which are opaque. -/
def tokBut (s : State) (path : TokPath) : Bool :=
  s.tokFormat && decide (s.tok 8 8 = s.otp.serial) && s.sec.claim.any (fun c => decide (c.holder = 0x200 ∧ c.chal = some (s.tokBytes 16 32))) &&
    s.tokAllowed path && s.tokConditions 0x200

theorem witness_SecurityAndLifeCycle_services :
    let s := fun (b : List Byte) => tokS .running .owned b
    let svc := fun (s : State) (t : Nat) => decide (s.tokType = t) && tokBut s .svc && s.tokSignerOk && s.tokRandom
    svc (s (token 7 0 0 [] 0x200)) 7 = true ∧ svc (s (token 8 0 3 payKey 0)) 8 = true ∧ (s (token 8 0 3 payKey 0)).tokArg = 3 ∧
      svc (s (token 9 0 1 [] 0)) 9 = true ∧ (s (token 9 0 1 [] 0)).tokArg = 1 ∧
      ((s (token 7 0 0 payKey 0x200)).tokenCheck 0x200 .svc = 2 ∧ (s (token 8 0 1 payKey 0)).tokType = 8 ∧
        CanReport (s (token 7 0 0 payKey 0x200)) evSecTokenFail 0) := by decide +kernel
/-- With the signature's verdict `v`, the check of the SESSION token passes exactly when `v` does. -/
theorem witness_SecurityAndLifeCycle_signature :
    let s := tokS .running .owned (token 7 0 0 [] 0x200)
    ∀ v, Config.slhVerify s.tokPub (s.tokBytes 0 192) (s.tokBytes 192 29792) = v → s.tokenCheck 0x200 .svc = if v then 0 else 7 := by
  intro s v hv
  have h1 : s.sec.claim = some { holder := 0x200, chal := some (s.tokBytes 16 32), last := 9999000 } := by decide +kernel
  have h2 : s.tokFormat = true := by decide +kernel
  have h3 : s.tok 8 8 = s.otp.serial := by decide +kernel
  have h4 : s.tokAllowed .svc = true := by decide +kernel
  have h5 : s.tokSignerOk = true := by decide +kernel
  have h6 : s.tokConditions 0x200 = true := by decide +kernel
  have h7 : s.tokRandom = true := by decide +kernel
  cases v <;> simp [State.tokenCheck, h1, h2, h3, h4, h5, h6, h7, hv]
theorem witness_SecurityAndLifeCycle_claims :
    let c := fun (t : Nat) => { host run0 with sec := { (host run0).sec with claim := some { holder := 3, chal := none, last := 10 } }, ts := t }
    (Reaches run0 .core ∧ Reaches (host run0) .host ∧ (host run0).sec.claim = none ∧ (host run0).sec.entropyFail = false) ∧
      ((c 800000010).sec.claim = some { holder := 3, chal := none, last := 10 } ∧ (3 : Nat) ≠ reqId .host ∧ 10 + 800000000 = (c 800000010).ts ∧
        (c 800000009).ts < 10 + 800000000) ∧
      ((tokS .running .owned []).sec.claim = some { holder := reqId .host, chal := some chal, last := 9999000 }) := by decide +kernel
theorem witness_SecurityAndLifeCycle_tamper :
    let t := fun (x : DState) (m : Nat) => { host (stOf x) with sec := { (host (stOf x)).sec with tmpEn := m } }
    let e := { host run0 with sec := { (host run0).sec with entropyFail := true } }
    let z := { host (stOf .faultStop) with sec := { (host (stOf .faultStop)).sec with pendMark := true, zeroising := true } }
    (¬ ((9 : Fin 10).val < 6 ∨ bitN (t .running 7).sec.tmpEn (9 - 6) = true)) ∧
      (bitN (t .running 8).sec.tmpEn (9 - 6) = true ∧ (t .running 8).sys.st = .running ∧ (t .faultStop 8).sys.st = .faultStop ∧ (t .boot 8).sys.st ≠ .faultStop) ∧
      ((3 : Fin 10).val ≤ 3 ∧ (3 : Fin 10).val < 6 ∧ 4 ≤ (4 : Fin 10).val) ∧
      (run0.sec.pendMark = false ∧ z.sec.pendMark = true ∧ z.otp.scrapped = false) ∧
      (e.sec.entropyFail = true ∧ CanReport (host run0) evSecEntropyFail 0) := by decide +kernel
/-- A transition that began 1 TS unit ago and may take 2: a tamper cuts it exactly when the free bit is 1. -/
theorem witness_SecurityAndLifeCycle_cut :
    let l : LcRec := { lc := .owned, transitions := 2, tampers := 0, debugOpened := false, scope := 0 }
    let s := { host run0 with sec := { (host run0).sec with
      undo := some { seq := 1, since := 9999999, span := 2, old := l, tmpEn := 0, scrapped := false, idKey := none, st := .running } } }
    s.sec.answered = false ∧ s.sys.powered = true ∧ (s.sec.undo.map (·.st)) = some .running ∧ CanReport s evSecTokenFail 0 ∧ run0.transitionCut = false ∧ ∀ b, s.freeNat 1 = b → s.sec.undo.any (fun _ => s.transitionCut) = (b == 1) :=
  ⟨by decide +kernel, by decide +kernel, by decide +kernel, by decide +kernel, by decide +kernel, fun b h => by subst h; rfl⟩
theorem witness_SecurityAndLifeCycle_transitions :
    let acc := fun (s : State) (c : Nat) => decide (s.jnl.queue = [] ∧ s.cmdFree = true ∧ s.fatalStands = false ∧ s.sec.goWait = none ∧ s.submitGate .host (descOf c 0 []) = 0 ∧
      s.tagged (descOf c 0 []) = none ∧ s.recent.length < 10000 ∧ s.bufOpen .host = true ∧ s.jnl.entries = [] ∧ s.jnl.wait = [])
    let root := fun (t : Nat) (pay : List Byte) => token t 0x10 0 pay 0
    let own := fun (t a : Nat) => token t 0 a [] 0
    (acc (tokS .running .owned []) 0x0F ∧ acc (tokS .running .owned []) 0x0E) ∧
      (tokBut (tokS .hold .blank (root 1 [])) .advance ∧ tokBut (tokS .hold .provisioned (root 2 payKey)) .advance ∧
        tokBut (tokS .running .owned (own 3 0)) .advance ∧ tokBut (tokS .running .owned (own 4 0)) .advance ∧
        tokBut (tokS .running .owned (own 5 3)) .debug ∧ tokBut (tokS .wiped .returned (root 6 [])) .advance) ∧
      (acc (tokS .hold .blank (root 1 [])) 0x0F ∧ acc (tokS .wiped .returned (root 6 [])) 0x0F ∧ acc (tokS .faultStop .owned (own 5 3)) 0x0E) ∧
      ((tokS .running .owned (own 3 1)).tokenCheck 0x200 .advance = 2) := by decide +kernel
/-- The root key's hash is that of the signer's public key. -/
theorem witness_SecurityAndLifeCycle_root (b : List Byte) :
    atV (tokS .hold .blank b).otp.rootHash 0 [] = fitBytes 32 (Config.shake256 pubKey) := rfl
theorem witness_SecurityAndLifeCycle_waits :
    let s := tokS .running .owned (token 7 0 0 [] 0x200)
    let q := { s with jnl := { Jnl.init with queue := [qcmd 0x0F 4, qcmd 0x02 5, qcmd 0x0E 6] } }
    s.tokenQueue = [] ∧ q.tokenQueue = [4, 6] ∧ q.tokType = 7 ∧ q.sec.claim = some { holder := reqId .host, chal := some chal, last := 9999000 } := by decide +kernel
theorem witness_SecurityAndLifeCycle_answered :
    let t := fun (x : DState) (f : Sec → Sec) => { host (stOf x) with sec := f (host (stOf x)).sec }
    let u := fun (x : DState) => t x fun c => { c with tmpEn := 8, undo := none, answered := false, envAt := none }
    ((t .faultStop fun c => { c with answered := true, envAt := none }).sec.answered = true ∧ (t .faultStop id).sys.powered = true) ∧
      ((t .faultStop fun c => { c with answered := true, envAt := some 9920000 }).sec.envAt = some 9920000 ∧ 9920000 + 80000 ≤ (t .faultStop id).ts) ∧
      (∀ x ∈ [DState.running, .faultStop, .boot, .load], (u x).sec.undo = none ∧ (u x).sec.answered = false) ∧
      ((u .running).sys.st ≠ .wiped ∧ (u .boot).sys.resetN = true) := by decide +kernel

theorem witness_RegisterWritesReadsAndSlots_access :
    let n := { host run0 with sec := { (host run0).sec with host := none } }
    (run0.pcie.linkUp = false ∧ (host run0).pcie.linkUp = true ∧ (host run0).MemWf) ∧
      ((host (stOf .boot)).sys.st = .boot ∧ (host (stOf .load)).sys.st = .load ∧ earlyBlock (rResCtrl / 4 * 4) = false ∧ (stOf .train).sys.st.code < 4) ∧
      (n.sys.st = .running ∧ n.sec.host = none ∧ n.MemWf ∧ CanReport n evSecWriteRefused 0 ∧ (regSpec rResCtrl).isSome ∧ openReg rResCtrl = false) ∧
      (CoreMayAccess run0 ∧ csWindow 0x1FFFFFC = false ∧ regSpec 0x1FFFFFC = none ∧ isLo 0x1FFFFFC = false ∧ csWindow 0x100000 = true) ∧
      ((regSpec rSysState).isSome = true ∧ (∀ r, regSpec rSysState = some r → r.pOnly = false)) :=
  ⟨by decide +kernel, by decide +kernel, by decide +kernel, by decide +kernel, by decide +kernel, fun r h => by
    have : (regSpec rSysState).all (fun r => !r.pOnly) = true := by decide +kernel
    rw [h] at this; simpa using this⟩
theorem witness_RegisterWritesReadsAndSlots_fields :
    let e := { run0 with img := { Img.init with ended := true } }
    let sh := { frm id with img := { (frm id).img with recipes := rcp 0 0 0 0 0xFFFFFFFF } }
    ((7 : Word).toNat < 8 ∧ 5 ≤ (5 : Word).toNat ∧ CanReport run0 evCfgReservedEnc 0 ∧ run0.frm.step ≥ run0.rf rClkCtrl 2 0) ∧
      (run0.img.ended = false ∧ 10 ≤ (10 : Word).toNat % 65536 ∧ 10 ≤ (0xFFFF : Word).toNat % 65536) ∧
      (e.img.ended = true ∧ (10 : Word).toNat % 65536 ≠ e.rf rEruCtrl 15 0 ∧ CanReport e evCfgStaticWrite 0 ∧ e.MemWf ∧ CoreMayAccess e) ∧
      ((stOf .train).sys.st ≠ .armed ∧ (stOf .train).sys.st ≠ .running ∧ sh.shadowNow (rLcuSPhofs01 0) = false ∧ sh.MemWf ∧
        sh.lcuRole 0 ≠ 2 ∧ (stOf .train).lcuRole 0 ≠ 2 ∧ (((stOf .train).setReg (rIglLCtrl 1) 1).setReg (rIglLHead 1) (2 ^ 18 + 2 ^ 21)).lcuRole 1 = 2) := by
  decide +kernel
theorem witness_RegisterWritesReadsAndSlots_slots :
    let e := fun (a : Bool) (l : List Nat) => { run0 with eru := { Eru.init with
      fatalActive := a, slots := Vector.ofFn fun (i : Fin 8) => { EruSlot.init with valid := l.contains i.val } } }
    (∀ j : Fin 8, 6 ≤ j.val → j ≠ 6 → ((e true [6]).slotAt j).valid = false) ∧ (e true [6]).eru.fatalActive = true ∧ (e true [6]).sys.st = .running ∧
      ((e true [6, 7]).slotAt 7).valid = true ∧ (e false [7]).eru.fatalActive = false := by decide +kernel
theorem witness_RegisterWritesReadsAndSlots_stands :
    let e := { run0 with eru := { Eru.init with fatalActive := true, slots := Vector.ofFn fun (i : Fin 8) => { EruSlot.init with valid := decide (i.val = 6) } } }
    e.fatalStands = true ∧ (∀ j : Fin 8, 6 ≤ j.val → j ≠ 6 → (e.slotAt j).valid = false) ∧ run0.fatalStands = false ∧
      (run0.rbit rMtxErrInfo 31 = false ∧ run0.MemWf ∧ (run0.setReg rMtxErrInfo 0x80000000).rbit rMtxErrInfo 31 = true) ∧ run0.shadow = [] := by decide +kernel

/-! The journal and the commands: witnesses -/

/-- A host session in state `x`; the recipes of `frm`; the journal as `f` makes it. -/
def jn (x : DState) (f : Jnl → Jnl) : State :=
  let s := host (stOf x)
  { s with jnl := f Jnl.init, core := { s.core with st := 1 }, frm := (frm id).frm, img := { (frm id).img with reread := true } }
def locked (l : Lock) (s : State) : State := { s with pos := { s.pos with dom := s.pos.dom.set 0 (domOn l) } }

/-- `Accepts`, for the host, as a check that runs. -/
def accepts (s : State) (d : List Byte) : Bool :=
  decide (s.busHeld .host = false ∧ s.jnl.queue = [] ∧ s.cmdFree = true ∧ s.fatalStands = false ∧ s.sec.goWait = none ∧ s.submitGate .host d = 0 ∧ s.tagged d = none ∧ s.recent.length < 10000 ∧ s.bufOpen .host = true) &&
    (s.jnl.entries.all fun e => decide (e.seq ≤ s.jnlHead)) && s.jnl.wait.all fun q => decide (q.seq ≤ s.jnlHead)
theorem accepts_of_check {s : State} {d : List Byte} (h : accepts s d = true) : Accepts s .host d := by
  simp only [accepts, Bool.and_eq_true, decide_eq_true_eq, List.all_eq_true] at h
  obtain ⟨⟨⟨h0, h1, h2, h3, h4, h5, h6, h7, h8⟩, h9⟩, h10⟩ := h
  exact ⟨h0, h1, h2, h3, h4, h5, h6, h7, h8, h9, h10⟩
def args (l : List Byte) : List Byte := l ++ List.replicate (48 - l.length) 0
def nvmArgs (op a n : Nat) : List Byte := args (leBytes 1 op ++ [0, 0, 0] ++ leBytes 4 a ++ leBytes 4 n ++ leBytes 8 0x1000)

theorem witness_CommandsAndJournal_submission :
    let d := descOf 0x07 5 []
    let dup := fun (c : Nat) => jn .running fun j => { j with entries := [entry0 1 c] }
    let q := fun (n : Nat) => jn .running fun j => { j with queue := List.replicate n (qcmd 2 2) }
    ((jn .load id).submitGate .host d = 1 ∧ (jn .running id).submitGate .host (descOf 0x10 5 []) = 2 ∧
        (jn .running id).submitGate (.fabric 9) d = 3 ∧ (jn .running id).bufOpen .host = true) ∧
      ((dup 7).submitGate .host d = 0 ∧ ((dup 7).tagged d).map (·.code) = some 7 ∧ (entry0 1 7).code = fieldAt d 0 1 ∧ ((dup 6).tagged d).map (·.code) = some 6 ∧
        (entry0 1 6).code ≠ fieldAt d 0 1) ∧
      ((q 31).jnl.queue.length < 32 ∧ (q 32).jnl.queue.length = 32 ∧ (q 32).recent.length < 10000 ∧ (q 32).submitGate .host d = 0 ∧ (q 32).tagged d = none) ∧
      (let s := jn .running fun j => { j with accepts := List.replicate 10000 9999999 }
       s.submitGate .host d = 0 ∧ s.tagged d = none ∧ 10000 ≤ s.recent.length) ∧
      (let s := jn .running fun j => { j with fab := (List.range 8).map fun i => (i + 10, j.host) }
       s.bufOpen (.fabric 9) = false) := by decide +kernel
theorem witness_CommandsAndJournal_digest : (entry0 1 7).argdig = argDigest (descOf 0x07 5 []) := rfl
theorem witness_CommandsAndJournal_acceptance :
    let a := fun (x : DState) (c : Nat) (l : List Byte) => accepts (jn x id) (descOf c 5 l)
    (a .armed 0x01 [] ∧ a .running 0x02 [] ∧ a .running 0x03 (args [1, 15]) ∧ a .running 0x03 (args [0, 16]) ∧ a .running 0x04 (args [3]) ∧
        a .running 0x04 (args [5]) ∧ a .running 0x05 [] ∧ a .running 0x06 [] ∧ a .faultStop 0x06 [] ∧ a .running 0x07 [] ∧ a .hold 0x08 (args [2, 1]) ∧ a .hold 0x08 (args [3])) ∧
      (a .hold 0x09 (nvmArgs 0 65536 65536) ∧ a .hold 0x09 (nvmArgs 1 256 256) ∧ a .hold 0x09 (nvmArgs 1 256 255) ∧ a .running 0x0A (args (List.replicate 32 7 ++ leBytes 8 0x1040)) ∧
        a .running 0x0A (args (List.replicate 32 7 ++ leBytes 8 0x1041)) ∧ a .running 0x0B [] ∧ a .running 0x0C (args [255]) ∧ a .running 0x0D (args [0, 15]) ∧
        a .running 0x0D (args [0, 16]) ∧ a .running 0x0E [] ∧ a .running 0x0F [] ∧ a .running 0x80 [] ∧ a .running 0xFF []) ∧
      (a .hold 0x01 [] ∧ stateAllows 0x01 .hold = false) := by decide +kernel
theorem witness_CommandsAndJournal_recipes :
    let s := jn .running id
    let lk := fun (l : Lock) => ((locked l (jn .armed id)).dom ((jn .armed id).fdom.getD 0)).lock
    ((jn .armed id).sys.cenStop = false ∧ (jn .armed id).sys.dieLink = true ∧ lk .locked = .locked ∧ lk .acquire = .acquire) ∧
      (s.rcpValid 1 = true ∧ (1 : Nat) < 16 ∧ bitN (ssModes (s.setBytes (s.rcpSS 1))) (s.rcpMode 1) = true ∧ s.rcpValid 3 = false) ∧
      ({ s with img := { s.img with sets := [{ type := 1, index := 0, data := set0.set 7 0 }] } }.rcpValid 0 = true ∧
        (let t := { s with img := { s.img with sets := [{ type := 1, index := 0, data := set0.set 7 0 }] } }
         bitN (ssModes (t.setBytes (t.rcpSS 0))) (t.rcpMode 0) = false ∧ t.modeRefused (t.frm.recipe.getD 0) 0 = true)) ∧
      (s.modeRefused (s.frm.recipe.getD 0) 3 = false ∧ s.psq.swap = none ∧ { s.psq with swap := some { seq := 9, checked := false } }.swap = some { seq := 9, checked := false } ∧
        9 ≠ s.jnlHead + 1 ∧ s.jnl.wait.length < 16 ∧
        16 ≤ (jn .running fun j => { j with wait := List.replicate 16 (qcmd 3 0) }).jnl.wait.length) ∧
      (s.peat.regions[0] = none ∧ s.fab.isRoot = false ∧ (∀ r ∈ s.fab.map, r.serial ≠ s.fab.rootSerial) ∧ s.core.st ≠ 0 ∧ s.MemWf ∧ s.busMaster = true ∧
        s.sec.entropyFail = false) := by decide +kernel
theorem witness_CommandsAndJournal_execution :
    let q := fun (c : Nat) => jn .running fun j => { j with queue := [qcmd c 2] }
    let fw := fun (t : Nat) => { jn .running (fun j => { j with fw := some (qcmd 0x80 2, 5) }) with ts := t }
    ((q 2).jnl.queue = qcmd 2 2 :: [] ∧ (q 2).cmdFree = true ∧ (qcmd 2 2).code = 0x02 ∧ (q 2).sys.st = .running ∧ stateAllows (qcmd 1 2).code .running = false) ∧
      (jn .running id).jnl.queue = [] ∧ (jn .running fun j => { j with run := some (qcmd 0x0B 1) }).cmdFree = false ∧
      ((fw 5).jnl.fw = some (qcmd 0x80 2, 5) ∧ (fw 5).MemWf ∧ 5 + 800000000 = (fw 800000005).ts ∧ (fw 800000004).ts < 5 + 800000000 ∧
        CanReport (fw 800000005) evJnlFwTimeout 0) ∧
      ((jn .running id).jnl.fw = none) := by decide +kernel
theorem witness_CommandsAndJournal_nvm :
    let n := fun (i k : Nat) (l : List Byte) => fieldAt l i k
    (n 4 4 (nvmArgs 0 65536 65536) % 65536 = 0 ∧ n 8 4 (nvmArgs 0 0 134217728) = 134217728 ∧ n 8 4 (nvmArgs 1 256 255) % 256 ≠ 0 ∧ n 8 4 (nvmArgs 1 0 1048576) = 1048576) ∧
      (∀ i, memGet flashDefault (jn .hold id).flash.mem i = 0xFF) ∧ (jn .hold id).MemWf ∧ (jn .hold id).busMaster = true ∧
      { jn .hold id with pcie := { (jn .hold id).pcie with bme := false } }.busMaster = false :=
  ⟨by decide +kernel, fun _ => rfl, by decide +kernel, by decide +kernel, by decide +kernel⟩
theorem witness_CommandsAndJournal_stands :
    let s := jn .running fun j => { j with queue := [qcmd 2 2] }
    let f := { s with eru := { Eru.init with fatalActive := true } }
    (f.fatalStands = true ∧ f.jnl.queue = qcmd 2 2 :: [] ∧ (qcmd 2 2).code ∈ [0x01, 0x02, 0x08, 0x0E, 0x0F]) ∧
      (s.fatalStands = false ∧ s.sec.goWait = none ∧ s.psq.swapTwice.contains (s.jnlHead + 1) = false) := by decide +kernel

/-! The step: witnesses -/

theorem witness_StepRunsTheFrontCommand :
    let off := { State.reset with sys := { SysState.init with powered := false, resetN := false } }
    let r := fun (t : Nat) => { State.reset with ts := t, sys := { SysState.init with resetN := false } }
    State.reset.pending = [] ∧ (off.sys.powered = false ∧ powerOk goodPower = true ∧ State.reset.sys.powered = true) ∧
      (State.reset.sys.resetN = true ∧ (r 8000000).sys.powered = true ∧ (r 8000000).sys.resetN = false ∧
        (r 8000000).sys.resetFall + 8000000 = (r 8000000).ts) := by decide +kernel
theorem witness_StepRunsTheFrontCommand_tick :
    let n := fun (s : State) => ({ s with ts := s.ts + 1 } : State)
    (State.reset.pending = [] ∧ (n State.reset).coreAwake = false) ∧
      (∀ s ∈ [onCore fun c => { c with nmi := true }], s.pending = [] ∧ (n s).coreAwake = true ∧ (n s).nmiReady = true) ∧
      (let s := onCore fun c => { c with status := 0x101, swi := true, irqEn := -1, prio := Vector.replicate 8 0x33333333 }
       (n s).coreAwake = true ∧ (n s).nmiReady = false ∧ (n s).irqReady = true) ∧
      (let s := coreWfi fun c => { c with irqEn := 0 }
       (n s).coreAwake = true ∧ (n s).nmiReady = false ∧ (n s).irqReady = false ∧ (n s).core.st = 2) ∧
      ((n coreS).coreAwake = true ∧ (n coreS).nmiReady = false ∧ (n coreS).irqReady = false ∧ (n coreS).core.st ≠ 2) := by decide +kernel
theorem witness_QueueIsFirstInFirstOut :
    let s := { State.reset with pending := [.nop 0 0, .wfiWake] }
    s.QueueWf ∧ ∃ t, step s = .next t ∧ t.pending = [.wfiWake] :=
  ⟨by intro c hc; simp only [List.mem_cons, List.not_mem_nil, or_false] at hc; rcases hc with rfl | rfl <;> rfl, _, rfl, rfl⟩
theorem witness_MemoriesStayCanonical : State.reset.MemWf ∧ State.reset.StoresWf ∧ ∃ t, step { State.reset with pending := [.wfiWake] } = .next t :=
  ⟨by decide, by decide +kernel, _, rfl⟩

/-! Ill-formed commands, one for each check -/

theorem test_power_on_refused_before_rise : WellFormed (.powerOn { goodPower with core := rail 1200 1199 200 750 }) = false ∧ WellFormed (.powerOn goodPower) = true := by
  decide
theorem test_ksl_payload_at_most_256_words :
    WellFormed (.kslBlockReceive 0 [] (word0 1 0) (word0 1 0) (List.replicate 257 (word0 1 0)) (word0 1 0) 0) = false ∧
      WellFormed (.kslBlockReceive 0 [] (word0 1 0) (word0 1 0) (List.replicate 256 (word0 1 0)) (word0 1 0) 0) = true := by decide +kernel
theorem test_cxp_pixel_width :
    WellFormed (.cxpPacketReceive 0 (.stream 0 0 true true [65536] true true)) = false ∧
      WellFormed (.cxpPacketReceive 0 (.stream 0 0 true true [65535] true true)) = true := by decide
theorem test_tile_space_lengths :
    let p : TilePort := { tile := 0, upset := .clean }
    WellFormed (.tileSpaceAccess .core p 0 (some []) 0) = false ∧ WellFormed (.tileSpaceAccess .core p 0 (some (List.replicate 65 0)) 0) = false ∧
      WellFormed (.tileSpaceAccess .core p 0 none 0) = false ∧ WellFormed (.tileSpaceAccess .core p 0 none 64) = true := by decide
theorem test_bar4_within_a_word :
    WellFormed (.configurationRequest (.bar4Read 2)) = false ∧ WellFormed (.configurationRequest (.bar4Write 2 [1, 2, 3])) = false ∧
      WellFormed (.configurationRequest (.bar4Write 2 [])) = false ∧ WellFormed (.configurationRequest (.bar4Write 2 [1, 2])) = true := by decide
theorem test_lagg_within_a_word :
    WellFormed (.configurationRequest (.laggRead 2)) = false ∧ WellFormed (.configurationRequest (.laggWrite 2 [1, 2, 3])) = false ∧
      WellFormed (.configurationRequest (.laggWrite 0 [])) = false ∧ WellFormed (.configurationRequest (.laggWrite 2 [1, 2])) = true := by decide
theorem test_debug_memory_within_a_word :
    WellFormed (.configurationRequest (.debug (.readMem 2))) = false ∧ WellFormed (.configurationRequest (.debug (.writeMem 2 [1, 2, 3]))) = false ∧
      WellFormed (.configurationRequest (.debug (.writeMem 0 []))) = false ∧ WellFormed (.configurationRequest (.debug (.writeMem 2 [1, 2]))) = true := by
  decide
/-- A payload block of 513 bytes, or an ACK of five requests, is a bad block (R297, R302). -/
theorem test_fabric_lengths :
    fabCtlOf (ctl9 0x18 (leBytes 1 0 ++ leBytes 1 5 ++ leBytes 14 0)) = none ∧ ctlGood 0x18 (ackBody 0 0 0 [1, 2, 3, 4]) = true := by decide +kernel
theorem test_gddr_eyes_at_most_24 :
    WellFormed (.gddr7TrainDone { port := 0, passed := true, attempts := 1, step := 0, ms := 5, eyes := List.replicate 25 0 }) = false := by decide
theorem test_tamper_code_0 : WellFormed (.tamperDetect 0) = false ∧ WellFormed (.tamperDetect 9) = true := by decide
theorem test_pcie_link_values :
    WellFormed (.perstNRelease 0 1) = false ∧ WellFormed (.perstNRelease 5 3) = false ∧ WellFormed (.endpointReset 0 0 (some (5, 0))) = false ∧
      WellFormed (.perstNRelease 5 8) = true := by decide
theorem test_register_offsets_are_aligned :
    WellFormed (.registerWrite .core .p 2 0 15) = false ∧ WellFormed (.loRegisterRead .core .p 0x10001) = false := by decide

/-! Worked examples and check values of the spec, expected results as it states them -/

def digits : List Byte := [0x31, 0x32, 0x33, 0x34, 0x35, 0x36, 0x37, 0x38, 0x39]

/-- R92, chapter 3. -/
theorem test_crc16_check_value : crc16 digits = 0x29B1 := by decide +kernel
theorem test_crc32c_check_value : crc32c digits = 0xE3069283 := by decide +kernel

/-- Chapter 11, the exchange of R326. -/
theorem test_theta_example : thetaOf 1000000 1000520 1004520 1004968 0 = 36 ∧ ((1000520 - 1000000 + (1004968 - 1004520)) / 2 : Int) = 484 := by decide

/-- Chapter 10, four devices in a ring. -/
def ring4 : List MapRec := [
  { serial := 10, addr := 0, ports := [1, 3, 0xFFFF, 0xFFFF] }, { serial := 11, addr := 1, ports := [0, 2, 0xFFFF, 0xFFFF] },
  { serial := 12, addr := 2, ports := [1, 3, 0xFFFF, 0xFFFF] }, { serial := 13, addr := 3, ports := [2, 0, 0xFFFF, 0xFFFF] }]
def ringEntry (me a : Nat) : Word :=
  let up := { run0 with fport := run0.fport.map fun p => { p with st := 2 } }
  match (routeTable ring4 10 me).find? fun r => r.addr == a with
  | some r => Route.word up r
  | none => 0
theorem test_ring_routes : ringEntry 2 0 = 0x82008900 ∧ ringEntry 0 2 = 0x82008989 ∧ ringEntry 1 3 = 0x82008000 := by decide +kernel

/-- Chapter 8: word 0x002 of the flying-shear example, its four window words. -/
def shear : BitVec 128 := BitVec.ofNat 128 (0x005B8D80 + 0x10000008 * 2 ^ 64 + 0x00800134 * 2 ^ 96)
theorem test_shear_microword :
    [mw shear 119 117, mw shear 116 104, mw shear 103 100, mw shear 99 96, mw shear 95 92, mw shear 69 67, mw shear 31 0] = [4, 1, 3, 4, 1, 1, 6000000] ∧
      mwReason shear = 0 := by decide +kernel

/-- Chapter 5: word L of the threshold band, slots 0 to 5 as kind, destination, source. -/
def wordL : Nat := 0x7B000000 + 0x0C042375 * 2 ^ 32 + 0xEC587016 * 2 ^ 64 + 0x066B6163 * 2 ^ 96
theorem test_threshold_band_word :
    (List.range 7).map (mvSlot wordL) =
      [(1, 0x7B, 0), (1, 0x08, 0xDD), (1, 0x60, 0xC0), (1, 0x61, 0xC0), (1, 0x63, 0xEC), (1, 0x9A, 0xD8), (0, 0, 0)] ∧ mvWordOk wordL = true := by
  decide +kernel

/-- Chapter 12: ACCR of 3 * 2^32 + 2^31. -/
def accEx : State := onCore fun c => { c with acc := c.acc.set 0 (3 * 2 ^ 32 + 2 ^ 31) }
theorem test_accr_rounds : ((after (.accr 1 0 0 16) accEx).dr 1, (after (.accr 1 0 0 16) accEx).core.accst) = (0x00038000, 0) := by decide +kernel
theorem test_accr_saturates : ((after (.accr 1 0 0 0) accEx).dr 1, (after (.accr 1 0 0 0) accEx).core.accst) = (0x7FFFFFFF, 2) := by decide +kernel

/-- Chapter 12: the pair 0x92288618 adds and shifts; the pair that writes D4 twice takes the illegal-instruction exception. -/
theorem test_pair_example :
    let s := onCore fun c => { c with d := ((Vector.replicate 16 0).set 4 10 |>.set 5 20).set 6 7 }
    let t := after (.pairedWord (BitVec.ofNat 31 0x92288618)) s
    t.dr 4 = 30 ∧ t.dr 6 = 56 ∧ (match shortOf 0x1228, shortOf 0x420C with
      | some x, some y => pairLegal x y
      | _, _ => true) = false := by decide +kernel
/-- Chapter 12, the words of the worked example: 0x0231FFFB is ADDI D3, D1, -5, and so on. -/
theorem test_core_words :
    coreDecode 0x0231FFFB 0 = some (exec (.addImm 3 1 0xFFFB)) ∧ coreDecode 0x14200008 0 = some (exec (.ldW 2 0 0 8)) ∧
      coreDecode 0x13218002 0 = some (exec (.ldHu 2 1 2 2)) ∧ coreDecode 0x92288618 0 = some (exec (.pairedWord 0x12288618)) :=
  ⟨rfl, rfl, rfl, rfl⟩

/-- Chapter 2: the scale of 30,002.20985 nm per count, and the coordinate of 11,200 counts. -/
def scaleEx : State := (run0.setReg (rPosDScaleHi 0) 0x00007532).setReg (rPosDScaleLo 0) 0x35B8BAC7
theorem test_scale_example : 11200 * scaleEx.dScale 0 / 2 ^ 32 = 336024750 := by decide +kernel

/-- Chapter 6: the cold-mill recipe, B = 32, 280,000 nm, 20 m/s, THR_FLOOR 1.4 GHz, head 0, with a program of `l` cycles. -/
def millOf (l : Nat) : State :=
  { frm id with img := { Img.init with
      sets := [{ type := 1, index := 0, data := List.replicate 16 0 ++ leBytes 4 l ++ List.replicate 28 0 }],
      recipes := [1, 0, 0, 0, 0, 32, 0, 0, 0, 2, 0, 0] ++ List.replicate 12 0 ++ leBytes 4 20000000 ++ leBytes 4 1 ++ List.replicate 608 0 } }.setReg (rPosDPitch 0) 280000
theorem test_cycle_limit : (millOf 624144).budgetOk 0 = true ∧ (millOf 624145).budgetOk 0 = false := by decide +kernel

/-- Chapter 19: the doorbell of the record ring. -/
def ringEx : State := { run0 with
  res := { Res.init with recR := { Res.init.recR with pi := 0x00010F80, ci := 0x00010000 } }, pcie := { run0.pcie with linkUp := true } }
theorem test_record_ring_doorbell :
    (after (.recordCiDoorbell true .host 0x00010F80) ringEx).res.recR.ci = 0x00010F80 ∧
      (after (.recordCiDoorbell true .host 0x00011000) ringEx).res.recR.ci = 0x00010000 := by decide +kernel
theorem test_igl_status_address : rIglLStatus 7 = 0x00407014 := by decide

/-- Chapter 19: FATAL_TO below 10 is reserved; OVL may hold its reset value 0, and 2,000 is reserved. -/
theorem test_reserved_encodings :
    (presetOk rEruCtrl 9, presetOk rEruCtrl 10, presetOk (rLcuSStitchL 4) 0, presetOk (rLcuSStitchL 4) 2000, presetOk (rLcuSStitchL 4) 1024) =
      (false, true, true, false, true) := by decide +kernel

/-- Chapter 9: XREL 100 of a head whose Y0 is 8,968,960,000 nm lies in line 5 at Y 8,970,360,000 nm. -/
def millRun : RunFrame := { run5 with f := 1001, line := 32032 }
theorem test_detection_position : let s := millOf 600000
    (s.rcpLineY 0 millRun.line, s.rcpLineY 0 (millRun.line + 5)) = (8968960000, 8970360000) := by decide +kernel

end Sys2Proof.Tests
end

section
/-! PROOFS of O29 and O30, both refuted. On a lane with TTS a back-channel message waits while the one before it is still going out for more
than 20 bits (log 122), whether a trigger is committed or not. `LaneFree` does not ask that the transmitter be idle, so the clauses that let
a message leave at once under it fail on such a lane: the ACK repeat of O29 and the SEND of O30. -/
namespace Sys2Proof.Machine

/-! When a message waits -/

/-- A change of lane `n`, read back. -/
theorem State.laneAt_updLane (s : State) (n : Fin 32) (f : Lane → Lane) : (s.updLane n f).laneAt n = f (s.laneAt n) :=
  atV_updV_same s.lane f Lane.init n.isLt

/-- While a symbol is still going out, the next message starts at its end. -/
theorem State.bcStart_busy {s : State} {n : Nat} (h : s.nowBit ≤ (s.laneAt n).bcEnd) : s.bcStart n = (s.laneAt n).bcEnd :=
  if_pos h

/-- On a lane with TTS no message starts more than 20 bits ahead (log 122). -/
theorem State.mayStart_early {s : State} {n : Nat} {t : Int} (syms : Nat) (hs : s.ttsLane n = true) (ht : s.nowBit + 20 < t) :
    s.mayStart n t syms = false := by
  have hfar : decide (t ≤ s.nowBit + 20) = false := decide_eq_false (by omega)
  rw [State.mayStart, hs, hfar]
  rfl

/-- All messages of a lane wait behind an oldest one that may not start. -/
theorem State.flushBack_waits {s : State} {n mtype : Nat} {p : List Byte} {r : List (Nat × List Byte)}
    (hq : (s.laneAt n).bcq = (mtype, p) :: r) (h : s.mayStart n (s.bcStart n) (bcMessage mtype p).length = false) : s.flushBack n = s := by
  simp only [State.flushBack, hq, List.length_cons, State.flushBackN, h, Bool.false_eq_true, if_false]

section
variable {s : State} {n : Fin 32} (hp : s.lPers n = 1) (hq : (s.laneAt n).bcq = []) (hs : s.ttsLane n = true)
  (hb : s.nowBit + 20 < (s.laneAt n).bcEnd)
include hp hq hs hb

/-- On a lane with TTS a message waits while the one before it has more than 20 bits to go: it is queued, and nothing is sent. -/
theorem State.backChannel_waits (mtype : Nat) (p : List Byte) :
    s.backChannel n mtype p = s.updLane n fun l => { l with bcq := l.bcq ++ [(mtype, p)] } := by
  have hbusy : ∀ u : State, u.nowBit = s.nowBit → (u.laneAt n).bcEnd = (s.laneAt n).bcEnd → u.ttsLane n = s.ttsLane n →
      u.mayStart n (u.bcStart n) (bcMessage mtype p).length = false := by
    intro u hnow hend htts
    rw [State.bcStart_busy (by omega)]
    exact State.mayStart_early _ (htts.trans hs) (by omega)
  rw [State.backChannel, if_pos hp]
  have hqueue : ((s.updLane n fun l => { l with bcq := l.bcq ++ [(mtype, p)] }).laneAt n).bcq = [(mtype, p)] := by
    rw [State.laneAt_updLane, hq, List.nil_append]
  refine State.flushBack_waits hqueue (hbusy _ rfl (by rw [State.laneAt_updLane]) ?_)
  unfold State.ttsLane State.laneUp
  rw [State.laneAt_updLane]
  rfl

/-- A repeated ACK is not sent there. -/
theorem State.repeatAck_waits : (s.repeatAck n).sent = s.sent := by
  rw [State.repeatAck, State.backChannel_waits hp hq hs hb]
  rfl

/-- Nor does SEND send anything there: TX_BUSY holds it off, or its message waits. -/
theorem State.mgSend_waits : (s.mgSend n).sent = s.sent := by
  have hwait : ∀ k p, ((s.tick k).backChannel n 0x30 p).sent = s.sent := fun k p => by
    rw [State.backChannel_waits (s := s.tick k) hp hq hs hb]
    rfl
  unfold State.mgSend
  dsimp only
  split
  · rfl
  · rw [if_pos (show (s.tick _).lPers n = 1 from hp)]
    exact hwait _ _

end

/-- What went out on a lane is in the record of what was sent. -/
theorem SentOn.sent_ne {n : Nat} {before after : List Sent} {m : List Sym} (h : SentOn n before [m] after) : after ≠ before := by
  obtain ⟨at_, codes, -, rfl⟩ := h
  exact List.cons_ne_self _ _

/-! The counterexample -/

/-- Lane 0 UP with the KSL personality. The generator of its head fires by KSL, so that TTS go out on the lane (R106), and has no committed
trigger. A RESEND of one SEQ has just begun: its 9 symbols end 90 bits from now. Four bytes have been written to MG_TX, and the last ACK went
out long ago. -/
def resendGoesOut : State :=
  let s := (State.reset.setReg (rIglLCtrl 0) 1).setReg (rPosTgCtrl 0) 0x100
  { s with
    ts := 10000000
    sys := { s.sys with st := .running }
    lane := s.lane.set 0 { Lane.init with phase := .up, bcEnd := 19531250 + 90, mgTx := [1, 2, 3, 4] } }

theorem resendGoesOut_laneFree : LaneFree resendGoesOut (0 : Fin 32) := by decide +kernel
theorem resendGoesOut_ttsLane : resendGoesOut.ttsLane 0 = true := by decide +kernel
theorem resendGoesOut_busy : resendGoesOut.nowBit + 20 < (resendGoesOut.laneAt 0).bcEnd := by decide +kernel

/-- The ACK repeat that is due sends nothing. -/
theorem resendGoesOut_kslAckRepeat {t : State} (h : exec (.kslAckRepeat 0) resendGoesOut = .next t) : t.sent = resendGoesOut.sent := by
  have hdue : resendGoesOut.laneUp 0 = true ∧ (resendGoesOut.laneAt 0).lastAck + 10 * usTs ≤ resendGoesOut.ts := by decide +kernel
  have hrun : exec (.kslAckRepeat 0) resendGoesOut = .next (resendGoesOut.repeatAck (0 : Fin 32)) := by
    show execKslAckRepeat 0 resendGoesOut = _
    rw [execKslAckRepeat, State.clocked_run _ (by decide +kernel)]
    exact congrArg _ (if_pos hdue)
  obtain rfl : resendGoesOut.repeatAck (0 : Fin 32) = t := Host.Outcome.next.inj (hrun.symm.trans h)
  obtain ⟨hp, hq, -⟩ := resendGoesOut_laneFree
  exact State.repeatAck_waits hp hq resendGoesOut_ttsLane resendGoesOut_busy

/-- The write of MG_CTRL sets TX_LEN to 4 and starts SEND. -/
theorem resendGoesOut_wr : resendGoesOut.wr .core .p (rIglLMgCtrl 0) (2 ^ 31 + 4) =
    ((resendGoesOut.setRf (rIglLMgCtrl 0) 6 0 4).mgSend (0 : Fin 32)).answer "OK" 0 := by decide +kernel

/-- SEND of the four bytes sends nothing. -/
theorem resendGoesOut_mgSend {t : State} (h : exec (.mgSend .core .p 0 4) resendGoesOut = .next t) : t.sent = resendGoesOut.sent := by
  obtain rfl : resendGoesOut.wr .core .p (rIglLMgCtrl 0) (2 ^ 31 + 4) = t := Host.Outcome.next.inj h
  rw [resendGoesOut_wr, State.answer_sent]
  exact State.mgSend_waits (by decide +kernel) (by decide +kernel) (by decide +kernel) (by decide +kernel)

/-- Refutes O29: on `resendGoesOut` the ACK repeat is due, and its ACK waits for the RESEND before it instead of leaving at once. -/
theorem not_selectiveRepeat : ¬ Obligations.SelectiveRepeat := by
  unfold Obligations.SelectiveRepeat
  rintro ⟨-, h⟩
  obtain ⟨-, -, -, -, -, -, htimers, -⟩ := h resendGoesOut 0 (by decide +kernel)
  obtain ⟨-, -, -, hrepeat⟩ := htimers (by decide +kernel) resendGoesOut_laneFree
  obtain ⟨t, ht, -, hsent⟩ := hrepeat (by decide +kernel)
  exact hsent.sent_ne (resendGoesOut_kslAckRepeat ht)

/-- Refutes O30: on `resendGoesOut` TX_BUSY is clear, and the MGMT message of SEND waits for the RESEND before it instead of leaving at once. -/
theorem not_managementMessages : ¬ Obligations.ManagementMessages := by
  unfold Obligations.ManagementMessages
  intro h
  obtain ⟨hcore, -⟩ := h resendGoesOut 0 (by decide +kernel)
  obtain ⟨-, -, hsend, -⟩ := hcore (by decide +kernel)
  obtain ⟨-, hup, -⟩ := hsend 4 (by decide) (by decide +kernel) (by decide) (by decide +kernel) (by decide +kernel)
  obtain ⟨t, ht, -, -, hsent, -⟩ := hup (by decide +kernel) resendGoesOut_laneFree
  exact hsent.sent_ne (resendGoesOut_mgSend ht)

end Sys2Proof.Machine
end

section
/-! PROOFS of O57. That a step runs the front command is its definition, and so is the tick on an empty queue; the content is that no command
stops in any state. A command's outcome is built from next states by questions about the state and by the clocks of the processing die, so it
is enough that every branch ends in a next state; the words of the core, which the debug gate can step, are found through the decoder. -/
namespace Sys2Proof.Machine

/-- The outcome is a next state. -/
def Completes (o : Host.Outcome State Fault Refusal) : Prop := ∃ t, o = .next t

theorem completes_next (t : State) : Completes (.next t) := ⟨t, rfl⟩

/-- An engine of the processing die completes with stopped clocks too, as it then does nothing (R576). -/
theorem State.clocked_completes {s : State} {f : State → Host.Outcome State Fault Refusal} (h : ∀ s, Completes (f s)) :
    Completes (s.clocked f) := by
  unfold State.clocked
  split
  · exact completes_next s
  · exact h s

/-- A power-up inside the ratings, or of a device that is on already (R566). -/
theorem execPowerOn_completes {p : PowerUp} {s : State} (h : s.sys.powered = true ∨ powerOk p = true) : Completes (execPowerOn p s) := by
  unfold execPowerOn
  split
  · exact completes_next s
  next hoff =>
    rw [if_pos (h.resolve_left hoff)]
    exact completes_next _

/-- A release of RESET_N that R567 allows, and one that is none. -/
theorem execResetNRelease_completes {s : State}
    (h : s.sys.powered = false ∨ s.sys.resetN = true ∨ s.sys.resetCause ≠ 0 ∨ s.sys.resetFall + 8000000 ≤ s.ts) :
    Completes (execResetNRelease s) := by
  unfold execResetNRelease
  split
  · exact completes_next s
  next hlow =>
    have hallowed : ¬ (s.sys.resetCause = 0 ∧ s.ts < s.sys.resetFall + 10 * msTs) := by
      rintro ⟨hcause, hearly⟩
      rcases h with hoff | hhigh | hother | hlate
      · exact hlow (.inl (by simp [hoff]))
      · exact hlow (.inr hhigh)
      · exact hother hcause
      · exact absurd hearly (Nat.not_lt.mpr hlate)
    rw [if_neg hallowed]
    exact completes_next _

/-! The words of the control core -/

/-- The meaning that a word decodes to, if it has one, completes in every state. -/
def MeaningCompletes (o : Option CoreMeaning) : Prop := ∀ f ∈ o, ∀ s, Completes (f s)

theorem meaningCompletes_none : MeaningCompletes none := fun _ h => nomatch h

theorem meaningCompletes_some (g : State → State) : MeaningCompletes (some fun s => .next (g s)) := by
  rintro _ ⟨⟩ s
  exact completes_next (g s)

theorem decodeRrr_completes (w : Word) : MeaningCompletes (decodeRrr w) := by
  unfold decodeRrr
  dsimp only
  split
  case h_15 => exact meaningCompletes_none
  all_goals exact meaningCompletes_some _

theorem decodeDiv_completes (w : Word) : MeaningCompletes (decodeDiv w) := by
  unfold decodeDiv
  dsimp only
  split
  case h_5 => exact meaningCompletes_none
  all_goals exact meaningCompletes_some _

theorem decodeShi_completes (w : Word) : MeaningCompletes (decodeShi w) := by
  unfold decodeShi
  dsimp only
  split
  all_goals exact meaningCompletes_some _

theorem decodeMul_completes (w : Word) : MeaningCompletes (decodeMul w) := by
  unfold decodeMul
  dsimp only
  split
  case h_8 => exact meaningCompletes_none
  all_goals exact meaningCompletes_some _

theorem decodeCbz_completes (w : Word) : MeaningCompletes (decodeCbz w) := by
  unfold decodeCbz
  split
  case h_7 => exact meaningCompletes_none
  all_goals exact meaningCompletes_some _

theorem decodeSys_completes (w : Word) : MeaningCompletes (decodeSys w) := by
  unfold decodeSys
  dsimp only
  split
  case h_9 => exact meaningCompletes_none
  all_goals exact meaningCompletes_some _

theorem decodeLong_completes (w next : Word) : MeaningCompletes (decodeLong w next) := by
  unfold decodeLong
  dsimp only
  split
  case h_1 => exact decodeRrr_completes w
  case h_6 => exact decodeShi_completes w
  case h_22 => exact decodeMul_completes w
  case h_23 => exact decodeDiv_completes w
  case h_30 => exact decodeCbz_completes w
  case h_39 => exact decodeSys_completes w
  case h_44 => exact meaningCompletes_none
  all_goals exact meaningCompletes_some _

theorem coreDecode_completes (w next : Word) : MeaningCompletes (coreDecode w next) := by
  unfold coreDecode
  split
  · exact meaningCompletes_some _
  · exact decodeLong_completes w next

theorem State.coreStep_completes (s : State) : Completes s.coreStep := by
  unfold State.coreStep
  split
  · exact completes_next _
  · split
    · rename_i f hf
      exact coreDecode_completes _ _ f hf s
    · exact completes_next _

/-- An instruction boundary completes: the entries and the wake-up are engines of the processing die, a word has its meaning. -/
theorem State.coreTick_completes (s : State) : Completes s.coreTick := by
  unfold State.coreTick
  split
  · exact State.clocked_completes fun s => completes_next _
  split
  · exact State.clocked_completes fun s => completes_next _
  split
  · exact State.clocked_completes fun s => completes_next _
  · exact s.coreStep_completes

theorem State.debugStep_completes (s : State) : Completes s.debugStep := by
  unfold State.debugStep
  split
  · exact completes_next s
  · obtain ⟨t, ht⟩ := State.coreTick_completes { s with core.st := 1 }
    rw [ht]
    exact completes_next _

theorem State.debugServe_completes (s : State) (r : DebugReq) : Completes (s.debugServe r) := by
  cases r with
  | step => exact s.debugStep_completes
  | halt | readReg | writeReg | readCsr | writeCsr | readMem | writeMem => exact completes_next _

theorem execConfigurationRequest_completes (r : CfgReq) (s : State) : Completes (execConfigurationRequest r s) := by
  unfold execConfigurationRequest
  split
  · split
    · exact s.debugServe_completes _
    · exact completes_next s
  repeat' first | with_reducible exact completes_next _ | split

/-! Every command -/

/-- Every row of the table answers a next state, but for a power-up or a release of RESET_N outside the ratings (log 65). The first rows are
those the model may stop on and the one that can run a word of the core. Of the others some answer whatever the state, some are engines of the
processing die, and where the meaning of a row asks about the state, each of its branches answers. -/
theorem exec_completes (c : Instr) (s : State) (hon : ∀ p, c = .powerOn p → s.sys.powered = true ∨ powerOk p = true)
    (hrel : c = .resetNRelease → s.sys.powered = false ∨ s.sys.resetN = true ∨ s.sys.resetCause ≠ 0 ∨ s.sys.resetFall + 8000000 ≤ s.ts) :
    Completes (exec c s) := by
  cases c with
  | powerOn p => exact execPowerOn_completes (hon p rfl)
  | resetNRelease => exact execResetNRelease_completes (hrel rfl)
  | configurationRequest r => exact execConfigurationRequest_completes r s
  | startOutputs | stopOutputs | selectRecipe | setMode | swapCustomerPage | clearFault | freezeRecord | restartFromNvm |
    nvmWrite | attest | censusNow | setMarkerEnable | epochSwitch | openDebug | lifecycleAdvance | firmwareCommand |
    commandExecute | jnlFwDone | jnlBufferRelease | laneRetrainWrite | mgSend | mgTxWrite | mgRxRead | mgRxDone |
    tileRestartWrite | tileHwmClear | frameDispatch | frameSlip | streamLineStage | psqCxRestart | csHoldingWrite | csWordCommit
    | psqUevtRead | fabRetrainWrite | remoteAccessGo | add | sub | and | or | xor | shl | shr | sar | rol | neg | abs | min |
    max | clz | addImm | andImm | orImm | xorImm | shlImm | shrImm | sarImm | rolImm | movi | movhi | mov | ldB | ldBu | ldH |
    ldHu | ldW | stB | stH | stW | lda | sta | adda | lea | mul | mulu | mac | macs | accr | accz | acczLong | div | divu | rem
    | remu | cbEq | cbNe | cbLt | cbGe | cbLtu | cbGeu | cbzEq | cbzNe | cbzLt | cbzGe | cbzGt | cbzLe | j | call | ja | calla |
    ret | rete | push | pop | nop | wfi | fenceI | pflush | pbar | sync | bkpt | trap | mfc | mtc | rep | repi | pairedWord |
    nmiRequest | timerCompare | coreResetWrite | secureWindowWipe | matrixTimeout | dmaGo | dmaAbort | mbxDoorbellInSet |
    mbxDoorbellOutSet | secClaim | secRelease | session | enrol | revoke | provision | own | returnToken | scrap | reprovision |
    debug | sessionClose | tamperArm | freezeRelease | eruSlotFree | msixSend | registerWrite | loRegisterRead | envConditionEnd
    | perstNRelease =>
    exact completes_next _
  | triggerCommit | capWordReceive | trainMessageRepeat | laneSyncLoss | laneIdleTimeout | kslIdleWord | kslStrayWord |
    kslAckRepeat | tableBankLoadDone | trackedHoldTimeout | markerCommit | fabBlockLockLoss | fabAckReceive | txstateReceive |
    fabMsgTimeout | addrReserveExpiry | syncReqReceive | syncRspReceive | beaconReceive | epochApply | divComplete | wfiWake |
    interruptEntry | nmiEntry | storeBufferDrain =>
    apply State.clocked_completes
    exact fun s => completes_next _
  | posCheckCompare | edgeReportReceive | motionCreepTimeout | motionStopTimeout | coastCoordUpdate | coastLostTimeout |
    trackSampleReceive | laneBcLockDone | laneEqualiseDone | laneBlockLockDone | laneTrainStepTimeout | kslBlockReceive |
    kslResendTimeout | kslAckTimer | lineTimeout | cxpPacketReceive | sliceSlotWrite | edgeStripReceive | edgeStripTimeout |
    moveWordExecute | tileBudgetEnd | outqDrain | streamPortWrite | scrubRead | scrubWriteback | aclkStepApply |
    recipeSwitchEffect | reloadSwitchDone | fallbackRecipeSelect | resultFrameForm | frameCheckReceive | twinWaitTimeout |
    mirrorSlotReceive | twinPeerLoss | clipCut | clipLineTimeout | recordRingWrite | ringIrqTimer | tokenReceive |
    markerSpanLostEnd | microwordIssue | psqWaitEnd | psqWaitTimeout | pageSwapCheckDone | pageSwapEffect | fabLinkUp |
    fabRateAlternate | fabFecBurst | fabHelloTimeout | fabHolddownEnd | helloSend | helloReceive | fabPayloadBlockReceive |
    fabBlockTransmit | fabAckTimer | fabAckRepeat | fabTxstateSend | fabResendTimeout | topoSend | topoReceive | mapBroadcast |
    mapReceive | routeTableSwitch | rootSeqTick | rootSeqTimeout | discoveryTimeout | regRspReceive | regReqTimeout |
    fwMsgReceive | syncExchangeStart | timeHoldoverTimeout | beaconSend | beaconTimeout | standbyTakeover | digestRecomputeDone
    | censusRoundStart | cenPollReceive | cenReportReceive | censusRoundDecide | cenResultReceive | cenResultTimeout |
    cenReqReceive | epochProposeReceive | epochAckReceive | epochAckTimeout | epochCommitReceive | epochCommitTimeout |
    mulProductWrite | spmTestStep | dmaBurstDone | cdcTransferEnd | gddr7TrainDone | gddr7Tracking | gddr7Refresh |
    gddr7RequestDone | firmwarePeatCommit =>
    apply State.clocked_completes
    intro s
    repeat' first | with_reducible exact completes_next _ | extract_lets | split
  | resetNAssert | bootSelftestDone | imageVerifyDone | loadSectionDone | loadDone | flashReadTimeout | trainRereadDone |
    trainEnd | fwCommandTimeout | ucieLinkTimeout | outputEventArrive | outputCancelArrive | outputEventFire | trgPulseEnd |
    markerPulseEnd | encoderEdge | zEdge | encRxFault | encRxFaultClear | edgeReportSend | gpiEdge | tileSpaceAccess |
    regReqReceive | mailboxAccess | matrixLockBreak | secClaimTimeout | sessionTimeout | tamperDetect | zeroiseScrubDone |
    noiseSample | randomRead | peatEntryWrite | healthSample | fatalTimeout | endpointReset | recordCiDoorbell | clipCiDoorbell
    | atomicOp | outboundCplTimeout | thermalSample | avsVoutSettled | avsTimeout | avsRetry | pmbAlertInput | supplyWarnTimer |
    powerSample | powerLoss =>
    dsimp only [exec, execResetNAssert, execBootSelftestDone, execImageVerifyDone, execLoadSectionDone, execLoadDone,
      execFlashReadTimeout, execTrainRereadDone, execTrainEnd, execFwCommandTimeout, execUcieLinkTimeout, execOutputEventArrive,
      execOutputCancelArrive, execOutputEventFire, execTrgPulseEnd, execMarkerPulseEnd, execEncoderEdge, execZEdge,
      execEncRxFault, execEncRxFaultClear, execEdgeReportSend, execGpiEdge, execTileSpaceAccess, execRegReqReceive,
      execMailboxAccess, execMatrixLockBreak, execSecClaimTimeout, execSessionTimeout, execTamperDetect, execZeroiseScrubDone,
      execNoiseSample, execRandomRead, execPeatEntryWrite, execHealthSample, execFatalTimeout, execEndpointReset,
      execRecordCiDoorbell, execClipCiDoorbell, execAtomicOp, execOutboundCplTimeout, execThermalSample, execAvsVoutSettled,
      execAvsTimeout, execAvsRetry, execPmbAlertInput, execSupplyWarnTimer, execPowerSample, execPowerLoss]
    repeat' first | with_reducible exact completes_next _ | split

/-! The step -/

/-- A lane with no message waiting stays as it is. -/
theorem State.flushBack_idle {s : State} {n : Nat} (h : (s.laneAt n).bcq = []) : s.flushBack n = s := by
  rw [State.flushBack, h]
  rfl

/-- A change that leaves `s` as it is for every number below `n`. -/
theorem State.each_id {s : State} {f : Nat → State → State} {n : Nat} (h : ∀ i < n, f i s = s) : s.each n f = s := by
  induction n with
  | zero => rfl
  | succ n ih =>
    rw [State.each, List.range_succ, List.foldl_append]
    rw [State.each] at ih
    rw [ih fun i hi => h i (by omega)]
    exact h n (by omega)

/-- With no message waiting on any lane a TS unit moves the counter alone. -/
theorem State.passTs_idle {s : State} (h : ∀ l : Fin 32, s.lane[l].bcq = []) : s.passTs = { s with ts := s.ts + 1 } := by
  refine State.each_id fun i hi => State.flushBack_idle ?_
  rw [State.laneAt, atV_fin _ (⟨i, hi⟩ : Fin 32)]
  exact h ⟨i, hi⟩

theorem step_empty {s : State} (h : s.pending = []) : step s = if s.passTs.coreAwake then s.passTs.coreTick else .next s.passTs := by
  rw [step, h]

/-- Settles O57: the front command by the definition of `step`, the tick by `coreTick`, completion by `exec_completes`. -/
theorem stepRunsTheFrontCommand : Obligations.StepRunsTheFrontCommand := by
  unfold Obligations.StepRunsTheFrontCommand
  intro c s
  refine ⟨rfl, fun hq => ?_, exec_completes c s⟩
  dsimp only
  refine ⟨State.passTs_idle, fun hasleep => ?_, fun hawake => ?_⟩
  · rw [step_empty hq, if_neg (by simp [hasleep])]
  · have htick : step s = s.passTs.coreTick := by rw [step_empty hq, if_pos hawake]
    rw [htick, State.coreTick]
    refine ⟨fun hn => by rw [if_pos hn]; rfl, fun hn hi => ?_, fun hn hi => ⟨fun hw => ?_, fun hw => ?_⟩⟩
    · rw [if_neg (by simp [hn]), if_pos hi]; rfl
    · rw [if_neg (by simp [hn]), if_neg (by simp [hi]), if_pos hw]; rfl
    · rw [if_neg (by simp [hn]), if_neg (by simp [hi]), if_neg hw]

end Sys2Proof.Machine
end

section
/-! SUPPORT. What leaves the outputs alone: the relation `OutputsKept`, and the operations of the processing die beside an output event that
stand in it, frames that fall due at a raised high-water mark (R46, R185) and back-channel messages that leave (R90). -/
namespace Sys2Proof.Machine

/-- From `s` to `t` no output moves: the balls and the marker outputs, what is on the way to the Lagg die or held there, the pulses and, but for
the lines passed while gated off, the generators are as before, and what was sent stays sent. -/
structure OutputsKept (s t : State) : Prop where
  balls : t.balls = s.balls
  mrk : t.mrk = s.mrk
  held : t.pos.held = s.pos.held
  toLd : t.pos.toLd = s.pos.toLd
  trgEnd : t.pos.trgEnd = s.pos.trgEnd
  trigs : ∀ g, (t.gen g).trigs = (s.gen g).trigs
  lastK : ∀ g, (t.gen g).lastK = (s.gen g).lastK
  fired : ∀ g, (t.gen g).fired = (s.gen g).fired
  sent : ∀ m ∈ s.sent, m ∈ t.sent

/-- What a change of one entry keeps of every entry, it keeps. -/
theorem atV_updV_kept {α β : Type} {n : Nat} (v : Vector α n) (i : Nat) {f : α → α} {p : α → β} (d : α) (h : ∀ x, p (f x) = p x)
    (j : Nat) : p (atV (updV v i f) j d) = p (atV v j d) := by
  by_cases hj : j = i
  · subst hj
    by_cases hn : j < n
    · rw [atV_updV_same v f d hn, h]
    · rw [updV, dif_neg hn]
  · rw [atV_updV_ne v f d hj]

namespace OutputsKept
variable {s t u : State}

theorem of_eq (hpos : t.pos = s.pos) (hballs : t.balls = s.balls) (hmrk : t.mrk = s.mrk) (hsent : t.sent = s.sent) : OutputsKept s t where
  balls := hballs
  mrk := hmrk
  held := by rw [hpos]
  toLd := by rw [hpos]
  trgEnd := by rw [hpos]
  trigs g := by rw [State.gen, State.gen, hpos]
  lastK g := by rw [State.gen, State.gen, hpos]
  fired g := by rw [State.gen, State.gen, hpos]
  sent _ h := hsent ▸ h

theorem refl (s : State) : OutputsKept s s := of_eq rfl rfl rfl rfl

theorem trans (h : OutputsKept s t) (k : OutputsKept t u) : OutputsKept s u where
  balls := k.balls.trans h.balls
  mrk := k.mrk.trans h.mrk
  held := k.held.trans h.held
  toLd := k.toLd.trans h.toLd
  trgEnd := k.trgEnd.trans h.trgEnd
  trigs g := (k.trigs g).trans (h.trigs g)
  lastK g := (k.lastK g).trans (h.lastK g)
  fired g := (k.fired g).trans (h.fired g)
  sent m hm := k.sent m (h.sent m hm)

theorem foldl {α : Type} {f : State → α → State} (h : ∀ s a, OutputsKept s (f s a)) (l : List α) (s : State) :
    OutputsKept s (l.foldl f s) := by
  induction l generalizing s with
  | nil => exact refl s
  | cons a l ih => exact (h s a).trans (ih (f s a))

theorem when {c : Bool} {f : State → State} (h : OutputsKept s (f s)) : OutputsKept s (s.when c f) := by
  unfold State.when
  split
  · exact h
  · exact refl s

theorem ite {c : Prop} [Decidable c] (h : OutputsKept s t) (k : OutputsKept s u) : OutputsKept s (if c then t else u) := by
  split
  · exact h
  · exact k

theorem raise {ev : Ev} (i d a : Nat) (h : ev.cls ≠ 3) : OutputsKept s (s.raise ev i d a) :=
  of_eq (s.raise_pos i d a h) (s.raise_balls i d a h) (s.raise_mrk i d a h) (s.raise_sent i d a h)

theorem orReg (o m : Nat) : OutputsKept s (s.orReg o m) := of_eq rfl rfl rfl rfl
theorem addSat (o hi lo n : Nat) : OutputsKept s (s.addSat o hi lo n) := of_eq rfl rfl rfl rfl
theorem addWrap (o n : Nat) : OutputsKept s (s.addWrap o n) := of_eq rfl rfl rfl rfl

end OutputsKept

/-! Frames that fall due -/

theorem State.bandAdd_kept (s : State) (b : Band) : OutputsKept s (s.bandAdd b) := by
  unfold State.bandAdd
  dsimp only
  split
  · exact .refl s
  split
  · exact .of_eq rfl rfl rfl rfl
  · exact .of_eq rfl rfl rfl rfl

theorem State.peatFrame_kept (s : State) (cause dom head : Nat) (f : Int) (n : Nat) : OutputsKept s (s.peatFrame cause dom head f n) := by
  unfold State.peatFrame
  exact .of_eq (State.peatPush_pos ..) (State.peatPush_balls ..) (State.peatPush_mrk ..) (State.peatPush_sent ..)

/-- A dropped frame is counted, reported and entered in the records; no output moves (R199 to R201). -/
theorem State.frameDrop_kept (s : State) (e : DueFrame) (cause : Nat) : OutputsKept s (s.frameDrop e cause) := by
  unfold State.frameDrop
  extract_lets unstaged frm taken counted flagged raised noted banded
  have hunstaged : OutputsKept s unstaged := .when (.of_eq rfl rfl rfl rfl)
  have htaken : OutputsKept unstaged taken := .of_eq rfl rfl rfl rfl
  have hcounted : OutputsKept taken counted := .ite (.addSat ..) (.ite (.addSat ..) (.ite (.addWrap ..) (.addSat ..)))
  have hflagged : OutputsKept counted flagged := .ite (.orReg ..) (.when (.orReg ..))
  have hraised : OutputsKept flagged raised := .when (.raise _ _ _ (by decide))
  have hnoted : OutputsKept raised noted := .when (.of_eq rfl rfl rfl rfl)
  have hbanded : OutputsKept noted banded := State.bandAdd_kept ..
  have hentered : OutputsKept banded (banded.peatFrame cause (banded.rcpFdom e.recipe) 0xFF e.f 1) := State.peatFrame_kept ..
  have hnext : ∀ u : State, OutputsKept u u.refreshNext := fun _ => .of_eq rfl rfl rfl rfl
  exact hunstaged.trans <| htaken.trans <| hcounted.trans <| hflagged.trans <| hraised.trans <| hnoted.trans <| hbanded.trans <|
    hentered.trans (hnext _)

theorem State.lateLimit_kept (s : State) : OutputsKept s s.lateLimit :=
  .foldl (fun s _ => s.frameDrop_kept _ _) _ s

theorem State.fallDue_kept (s : State) (r mode : Nat) (m : Int) : OutputsKept s (s.fallDue r mode m) := by
  unfold State.fallDue
  extract_lets f v band warned entry frm joined due listed
  have hwarned : OutputsKept s warned := .when (.raise _ _ _ (by decide))
  have hjoined : OutputsKept warned joined := .of_eq rfl rfl rfl rfl
  have hlisted : OutputsKept joined listed := .ite (.of_eq rfl rfl rfl rfl) (State.frameDrop_kept ..)
  exact hwarned.trans <| hjoined.trans <| hlisted.trans (State.lateLimit_kept _)

theorem State.framesDueN_kept (s : State) (k : Nat) : OutputsKept s (s.framesDueN k) := by
  induction k generalizing s with
  | zero => exact .refl s
  | succ k ih =>
    unfold State.framesDueN
    split
    · exact .refl s
    · exact .ite ((s.fallDue_kept _ _ _).trans (ih _)) (.refl s)

theorem State.framesDue_kept (s : State) (d : Nat) : OutputsKept s (s.framesDue d) := by
  unfold State.framesDue
  split
  · split
    · exact .refl s
    · exact s.framesDueN_kept _
  · exact .refl s

/-- A change of a generator that keeps its triggers, its last line and its count. -/
theorem State.updGen_kept (s : State) (g : Nat) {f : Gen → Gen} (htrigs : ∀ x, (f x).trigs = x.trigs) (hlast : ∀ x, (f x).lastK = x.lastK)
    (hfired : ∀ x, (f x).fired = x.fired) : OutputsKept s (s.updGen g f) where
  balls := rfl
  mrk := rfl
  held := rfl
  toLd := rfl
  trgEnd := rfl
  trigs := atV_updV_kept _ _ _ htrigs
  lastK := atV_updV_kept _ _ _ hlast
  fired := atV_updV_kept _ _ _ hfired
  sent _ h := h

theorem State.noteGated_kept (s : State) (d : Nat) (old x : Int) : OutputsKept s (s.noteGated d old x) := by
  unfold State.noteGated State.each
  refine .foldl (fun s g => ?_) _ s
  exact .ite (s.updGen_kept g (fun _ => rfl) (fun _ => rfl) fun _ => rfl) (.refl s)

theorem State.updDom_kept (s : State) (d : Nat) (f : Domain → Domain) : OutputsKept s (s.updDom d f) where
  balls := rfl
  mrk := rfl
  held := rfl
  toLd := rfl
  trgEnd := rfl
  trigs _ := rfl
  lastK _ := rfl
  fired _ := rfl
  sent _ h := h

theorem State.raiseHwm_kept (s : State) (d : Nat) (x : Int) : OutputsKept s (s.raiseHwm d x) := by
  unfold State.raiseHwm
  exact .ite (((s.updDom_kept _ _).trans (State.noteGated_kept ..)).trans (State.framesDue_kept ..)) (.refl s)

/-! Messages that leave -/

theorem State.updLane_kept (s : State) (n : Nat) (f : Lane → Lane) : OutputsKept s (s.updLane n f) := .of_eq rfl rfl rfl rfl

theorem State.send_kept (s : State) (m : Sent) : OutputsKept s (s.send m) where
  balls := rfl
  mrk := rfl
  held := rfl
  toLd := rfl
  trgEnd := rfl
  trigs _ := rfl
  lastK _ := rfl
  fired _ := rfl
  sent _ h := List.mem_cons_of_mem m h

theorem State.putSyms_kept (s : State) (n : Nat) (t : Int) (syms : List Sym) : OutputsKept s (s.putSyms n t syms) :=
  (s.send_kept _).trans (State.updLane_kept ..)

theorem State.flushBackN_kept (s : State) (n k : Nat) : OutputsKept s (State.flushBackN n k s) := by
  induction k generalizing s with
  | zero => exact .refl s
  | succ k ih =>
    unfold State.flushBackN
    split
    · exact .refl s
    · exact .ite (((s.putSyms_kept _ _ _).trans (State.updLane_kept ..)).trans (ih _)) (.refl s)

theorem State.flushBack_kept (s : State) (n : Nat) : OutputsKept s (s.flushBack n) := s.flushBackN_kept n _

theorem State.backChannel_kept (s : State) (n mtype : Nat) (p : List Byte) : OutputsKept s (s.backChannel n mtype p) := by
  unfold State.backChannel
  exact .ite ((s.updLane_kept _ _).trans (State.flushBack_kept ..)) (.refl s)

end Sys2Proof.Machine
end

section
/-! PROOFS of O25. An event is taken from the die link, held, withdrawn or fired by one operation each; their lemmas say what it does to the
balls, the marker outputs and the generators. All that a fire does beside, to records, frames and lanes, stands in `OutputsKept`. -/
namespace Sys2Proof.Machine

/-! A trigger fires -/

theorem State.setRecord_kept (s : State) (g : Nat) (l : List TrigRec) : OutputsKept s (s.setRecord g l) := .of_eq rfl rfl rfl rfl

theorem State.laneTrigger_kept (s : State) (g : Nat) (t : Trig) (ball : Bool) : OutputsKept s (s.laneTrigger g t ball).1 := by
  unfold State.laneTrigger
  extract_lets out n line recorded p unsent
  have hrec : OutputsKept s recorded := .ite (.refl s) (State.setRecord_kept ..)
  refine hrec.trans ?_
  split
  · split
    · split
      · exact State.putSyms_kept ..
      · exact .addSat ..
    · split
      · exact .trans (State.send_kept ..) (.of_eq rfl rfl rfl rfl)
      · exact .refl _
  · split
    · split
      · exact State.backChannel_kept ..
      · exact .addSat ..
    · exact .refl _

/-- The trigger message of R89. -/
def Trig.message (t : Trig) : List Sym :=
  bcTrigger (leBytes 1 (t.phase + 4 * b2n t.coast + 8 * b2n t.creep) ++ leBytes 1 0 ++ leBytes 4 (unsigned 32 t.k) ++
    leBytes 8 (unsigned 64 t.x))

/-- The message of trigger `t` went out on lane `n` at its TTS. -/
def TtsSent (n : Nat) (t : Trig) (sent : List Sent) : Prop := ∃ fill codes, Sent.lane n (ttsBit t.fire) fill t.message codes ∈ sent

/-- On a lane that is up with the KSL personality the trigger goes out at the bit boundary of its time (R89). -/
theorem State.laneTrigger_lane {s : State} {g : Nat} (t : Trig) (ball : Bool) (hout : 2 ≤ s.gOut g) (hp : s.lPers (s.genLead g) = 1)
    (hup : s.laneUp (s.genLead g) = true) :
    (s.laneTrigger g t ball).2 = true ∧ TtsSent (s.genLead g) t (s.laneTrigger g t ball).1.sent := by
  have hrecorded : ∀ l, (s.setRecord g l).lPers (s.genLead g) = 1 ∧ (s.setRecord g l).laneUp (s.genLead g) = true := fun _ => ⟨hp, hup⟩
  unfold State.laneTrigger
  simp only [if_neg (show s.gOut g ≠ 0 by omega), if_pos hout, if_pos (hrecorded _).1, if_pos (hrecorded _).2]
  exact ⟨trivial, _, _, List.mem_cons_self⟩

/-- A trigger that has fired leaves the list and moves the last line on; nothing else of the outputs changes. -/
theorem State.trigDone_kept (s : State) (g : Nat) (t : Trig) : OutputsKept (s.updGen g fun x => { x with
      trigs := x.trigs.filter (fun u => u.id != t.id), lastK := some (max (x.lastK.getD t.k) t.k) }) (s.trigDone g t) :=
  (State.raiseHwm_kept ..).trans (State.flushBack_kept ..)

/-- The trigger pulse of generator `g` goes out at its ball (R14). -/
def State.ballFires (s : State) (g : Nat) : Bool := decide (s.gOut g % 2 = 1) && s.sys.outEn && s.rbit rIoxTrgEn (s.gBall g)

/-- A fire that could not be cancelled any more is noted (R49). -/
def State.cancelNoted (s : State) (t : Trig) : State := s.when t.cancelled fun s => s.orReg rPosEvt 2

/-- Ball `b` begins the pulse of generator `g` at `time`. -/
def State.pulseBegun (s : State) (b g : Nat) (time : Int) : State :=
  { s with balls.trg := setV s.balls.trg b (s.trgActive b), pos.trgEnd := setV s.pos.trgEnd b (some (time + 16 * (s.gWidth g : Int))) }

/-- The state of a fire before it goes to the lane. -/
def State.atBall (s : State) (g : Nat) (t : Trig) (time : Int) : State :=
  if s.ballFires g then (s.cancelNoted t).pulseBegun (s.gBall g) g time else s.cancelNoted t

theorem State.cancelNoted_kept (s : State) (t : Trig) : OutputsKept s (s.cancelNoted t) := .when (.orReg ..)

/-- Nothing but the registers changes. -/
theorem State.cancelNoted_eq (s : State) (t : Trig) : s.cancelNoted t = { s with regs := (s.cancelNoted t).regs } := by
  unfold State.cancelNoted State.when
  split <;> rfl

theorem State.cancelNoted_sys (s : State) (t : Trig) : (s.cancelNoted t).sys = s.sys := by rw [s.cancelNoted_eq t]
theorem State.cancelNoted_pos (s : State) (t : Trig) : (s.cancelNoted t).pos = s.pos := by rw [s.cancelNoted_eq t]
theorem State.cancelNoted_lane (s : State) (t : Trig) : (s.cancelNoted t).lane = s.lane := by rw [s.cancelNoted_eq t]

/-- POS_EVT is the only register that the note changes. -/
theorem State.cancelNoted_reg (s : State) (t : Trig) {o : Nat} (h : o ≠ rPosEvt) : (s.cancelNoted t).reg o = s.reg o := by
  unfold State.cancelNoted State.when
  split
  · exact reg_orReg_ne s 2 h
  · rfl

theorem rPosTgCtrl_ne_rPosEvt (g : Nat) : rPosTgCtrl g ≠ rPosEvt := by unfold rPosTgCtrl rPosEvt; omega
theorem rPosTgPulse_ne_rPosEvt (g : Nat) : rPosTgPulse g ≠ rPosEvt := by unfold rPosTgPulse rPosEvt; omega
theorem rIglLCtrl_ne_rPosEvt (n : Nat) : rIglLCtrl n ≠ rPosEvt := by unfold rIglLCtrl rPosEvt; omega

section
variable (s : State) (g : Nat) (t : Trig) (time : Int)

theorem State.atBall_reg {o : Nat} (h : o ≠ rPosEvt) : (s.atBall g t time).reg o = s.reg o := by
  unfold State.atBall
  split
  · exact s.cancelNoted_reg t h
  · exact s.cancelNoted_reg t h

theorem State.atBall_lane : (s.atBall g t time).lane = s.lane := by
  unfold State.atBall
  split
  · exact s.cancelNoted_lane t
  · exact s.cancelNoted_lane t

theorem State.atBall_gOut : (s.atBall g t time).gOut g = s.gOut g := by
  unfold State.gOut State.rf
  rw [s.atBall_reg g t time (rPosTgCtrl_ne_rPosEvt g)]

theorem State.atBall_genLead : (s.atBall g t time).genLead g = s.genLead g := by
  unfold State.genLead State.gLane State.rf
  rw [s.atBall_reg g t time (rPosTgCtrl_ne_rPosEvt g)]

theorem State.atBall_lPers (n : Nat) : (s.atBall g t time).lPers n = s.lPers n := by
  unfold State.lPers State.rf
  rw [s.atBall_reg g t time (rIglLCtrl_ne_rPosEvt n)]

theorem State.atBall_laneUp (n : Nat) : (s.atBall g t time).laneUp n = s.laneUp n := by
  unfold State.laneUp State.laneAt
  rw [s.atBall_lane g t time]

theorem State.atBall_held : (s.atBall g t time).pos.held = s.pos.held := by
  unfold State.atBall
  split
  · exact (s.cancelNoted_kept t).held
  · exact (s.cancelNoted_kept t).held

theorem State.atBall_gen : (s.atBall g t time).pos.gen = s.pos.gen := by
  have hgen : (s.cancelNoted t).pos.gen = s.pos.gen := congrArg Pos.gen (s.cancelNoted_pos t)
  unfold State.atBall
  split
  · exact hgen
  · exact hgen

/-- A pulse that goes out: the ball at its active level until the end of the pulse (R56). -/
theorem State.atBall_fires (h : s.ballFires g = true) :
    (s.atBall g t time).balls = { s.balls with trg := setV s.balls.trg (s.gBall g) (if s.rbit rIoxTrgPol (s.gBall g) then .low else .high) } ∧
      (s.atBall g t time).pos.trgEnd = setV s.pos.trgEnd (s.gBall g) (some (time + 16 * (s.gWidth g : Int))) := by
  have hwidth : (s.cancelNoted t).gWidth g = s.gWidth g := by
    unfold State.gWidth State.rf
    rw [s.cancelNoted_reg t (rPosTgPulse_ne_rPosEvt g)]
  have hlevel : (s.cancelNoted t).trgActive (s.gBall g) = if s.rbit rIoxTrgPol (s.gBall g) then .low else .high := by
    simp only [State.ballFires, Bool.and_eq_true, decide_eq_true_eq] at h
    obtain ⟨⟨-, hout⟩, hen⟩ := h
    unfold State.trgActive State.rbit at *
    rw [s.cancelNoted_sys, s.cancelNoted_reg t (by decide), s.cancelNoted_reg t (by decide), hout, hen]
    cases bitN (s.reg rIoxTrgPol).toNat (s.gBall g) <;> rfl
  rw [State.atBall, if_pos h, State.pulseBegun, hwidth, hlevel, (s.cancelNoted_kept t).balls, (s.cancelNoted_kept t).trgEnd]
  exact ⟨rfl, rfl⟩

theorem State.atBall_silent (h : s.ballFires g = false) :
    (s.atBall g t time).balls = s.balls ∧ (s.atBall g t time).pos.trgEnd = s.pos.trgEnd := by
  rw [State.atBall, h]
  exact ⟨(s.cancelNoted_kept t).balls, (s.cancelNoted_kept t).trgEnd⟩

/-- No other ball moves. -/
theorem State.atBall_others : (s.atBall g t time).balls.mrk = s.balls.mrk ∧ (s.atBall g t time).balls.gpo = s.balls.gpo := by
  have hmrk : (s.cancelNoted t).balls.mrk = s.balls.mrk := congrArg Balls.mrk (s.cancelNoted_kept t).balls
  have hgpo : (s.cancelNoted t).balls.gpo = s.balls.gpo := congrArg Balls.gpo (s.cancelNoted_kept t).balls
  unfold State.atBall
  split
  · exact ⟨hmrk, hgpo⟩
  · exact ⟨hmrk, hgpo⟩

end

/-- A fire in ARMED or RUNNING: the ball, the lane, the count of what went out, the end of the trigger. -/
theorem State.fireTrigger_live {s : State} {g id : Nat} {t : Trig} (time : Int) (ht : s.trigOf g id = some t) (hl : s.live = true) :
    s.fireTrigger g id time =
      ((((s.atBall g t time).laneTrigger g t (s.ballFires g)).1.when
        (s.ballFires g || ((s.atBall g t time).laneTrigger g t (s.ballFires g)).2)
          fun s => s.updGen g fun x => { x with fired := (x.fired + 1) % 2 ^ 32 }).trigDone g t) := by
  rw [State.fireTrigger, ht]
  simp only [hl, Bool.not_true, Bool.false_eq_true, if_false]
  rfl

theorem State.fireTrigger_idle {s : State} {g id : Nat} {t : Trig} (time : Int) (ht : s.trigOf g id = some t) (hl : s.live = false) :
    s.fireTrigger g id time = s.trigDone g t := by
  rw [State.fireTrigger, ht]
  simp only [hl, Bool.not_false, if_true]

theorem State.gen_updGen_same (s : State) {g : Nat} (f : Gen → Gen) (hg : g < 32) : (s.updGen g f).gen g = f (s.gen g) :=
  atV_updV_same _ f _ hg

/-- What a fire leaves, going out or not: the trigger is off the list, its line counts as fired, and of the balls only TRG ones may move. -/
theorem State.trigDone_leaves {s : State} {g : Nat} {t : Trig} (hg : g < 32) :
    ((s.trigDone g t).gen g).trigs = (s.gen g).trigs.filter (fun u => u.id != t.id) ∧
      ((s.trigDone g t).gen g).lastK = some (max ((s.gen g).lastK.getD t.k) t.k) ∧ ((s.trigDone g t).gen g).fired = (s.gen g).fired ∧
      (s.trigDone g t).balls = s.balls ∧ (s.trigDone g t).pos.trgEnd = s.pos.trgEnd ∧ (s.trigDone g t).pos.held = s.pos.held ∧
      ∀ m ∈ s.sent, m ∈ (s.trigDone g t).sent := by
  have hkept := s.trigDone_kept g t
  refine ⟨?_, ?_, ?_, hkept.balls, hkept.trgEnd, hkept.held, hkept.sent⟩
  · rw [hkept.trigs, s.gen_updGen_same _ hg]
  · rw [hkept.lastK, s.gen_updGen_same _ hg]
  · rw [hkept.fired, s.gen_updGen_same _ hg]

/-- The count of what went out. -/
def Gen.counted (x : Gen) : Gen := { x with fired := (x.fired + 1) % 2 ^ 32 }

theorem State.when_counted (s : State) {g : Nat} (c : Bool) (hg : g < 32) :
    (s.when c fun s => s.updGen g Gen.counted).gen g = (if c then (s.gen g).counted else s.gen g) ∧
      (s.when c fun s => s.updGen g Gen.counted).balls = s.balls ∧
      (s.when c fun s => s.updGen g Gen.counted).pos.trgEnd = s.pos.trgEnd ∧
      (s.when c fun s => s.updGen g Gen.counted).pos.held = s.pos.held ∧
      (s.when c fun s => s.updGen g Gen.counted).sent = s.sent := by
  cases c with
  | false => exact ⟨rfl, rfl, rfl, rfl, rfl⟩
  | true => exact ⟨s.gen_updGen_same _ hg, rfl, rfl, rfl, rfl⟩

/-- A fire in ARMED or RUNNING; `lane` says whether the trigger went out on its lane. -/
theorem State.fireTrigger_live_leaves {s : State} {g id : Nat} {t : Trig} (time : Int) (hg : g < 32) (ht : s.trigOf g id = some t)
    (hl : s.live = true) : ∃ lane : Bool,
    ((s.fireTrigger g id time).gen g).trigs = (s.gen g).trigs.filter (fun u => u.id != t.id) ∧
      ((s.fireTrigger g id time).gen g).lastK = some (max ((s.gen g).lastK.getD t.k) t.k) ∧
      ((s.fireTrigger g id time).gen g).fired = (if s.ballFires g || lane then ((s.gen g).fired + 1) % 2 ^ 32 else (s.gen g).fired) ∧
      (s.fireTrigger g id time).balls = (s.atBall g t time).balls ∧
      (s.fireTrigger g id time).pos.trgEnd = (s.atBall g t time).pos.trgEnd ∧
      (s.fireTrigger g id time).pos.held = s.pos.held ∧
      (2 ≤ s.gOut g → s.lPers (s.genLead g) = 1 → s.laneUp (s.genLead g) = true → lane = true ∧
        TtsSent (s.genLead g) t (s.fireTrigger g id time).sent) := by
  rw [State.fireTrigger_live time ht hl]
  have hlane := (s.atBall g t time).laneTrigger_kept g t (s.ballFires g)
  have htts := State.laneTrigger_lane (s := s.atBall g t time) (g := g) t (s.ballFires g)
  rw [s.atBall_gOut, s.atBall_genLead, s.atBall_lPers, s.atBall_laneUp] at htts
  have hgen : (s.atBall g t time).gen g = s.gen g := by rw [State.gen, State.gen, s.atBall_gen]
  generalize (s.atBall g t time).laneTrigger g t (s.ballFires g) = sent at *
  obtain ⟨u, lane⟩ := sent
  dsimp only at *
  obtain ⟨hgenv, hballs, hend, hheld, hsent⟩ := u.when_counted (s.ballFires g || lane) hg
  obtain ⟨htrigs, hlast, hfired, hdballs, hdend, hdheld, hdsent⟩ :=
    State.trigDone_leaves (s := u.when (s.ballFires g || lane) fun s => s.updGen g Gen.counted) (t := t) hg
  have hsame : ∀ {β : Type} (p : Gen → β), (∀ x, p x.counted = p x) →
      p ((u.when (s.ballFires g || lane) fun s => s.updGen g Gen.counted).gen g) = p (u.gen g) := by
    intro β p hp
    rw [hgenv]
    split
    · exact hp _
    · rfl
  refine ⟨lane, ?_, ?_, ?_, ?_, ?_, ?_, ?_⟩
  · exact htrigs.trans (by rw [hsame Gen.trigs fun _ => rfl, hlane.trigs, hgen])
  · exact hlast.trans (by rw [hsame Gen.lastK fun _ => rfl, hlane.lastK, hgen])
  · refine hfired.trans ?_
    rw [hgenv, ← hgen, ← hlane.fired]
    split <;> rfl
  · exact hdballs.trans (hballs.trans hlane.balls)
  · exact hdend.trans (hend.trans hlane.trgEnd)
  · exact hdheld.trans (hheld.trans (hlane.held.trans (s.atBall_held g t time)))
  · intro hout hp hup
    obtain ⟨hwent, fill, codes, hmem⟩ := htts hout hp hup
    exact ⟨hwent, fill, codes, hdsent _ (hsent ▸ hmem)⟩

/-! Messages that arrive at the Lagg die -/

/-- The oldest message has been taken from the die link. -/
def State.ldTaken (s : State) (r : List LdMsg) : State := { s with pos := { s.pos with toLd := r } }

theorem outputEventArrive_lost {s : State} {e : OutEvent} {r : List LdMsg} (hlink : s.sys.dieLink = false) (h : s.pos.toLd = .event e :: r) :
    exec .outputEventArrive s = .next (s.ldTaken r) := by
  show execOutputEventArrive s = _
  rw [execOutputEventArrive, h]
  exact if_pos (by simp [hlink])

theorem outputEventArrive_up {s : State} {e : OutEvent} {r : List LdMsg} (hlink : s.sys.dieLink = true) (h : s.pos.toLd = .event e :: r) :
    exec .outputEventArrive s = .next (if e.time < s.now16 then (s.ldTaken r).lateEvent e
      else { s with pos := { s.pos with toLd := r, held := s.pos.held ++ [e] } }) := by
  show execOutputEventArrive s = _
  rw [execOutputEventArrive, h]
  exact if_neg (by simp [hlink])

/-- A trigger, or a phase code, of generator `g` is late: counted and reported (R13; log 121). -/
def State.lateNoted (s : State) (g detail : Nat) : State :=
  ((s.updGen g fun x => { x with lateCnt := x.lateCnt + 1 }).orReg rPosEvt 1).raise evPosTrgLate 0 detail 0

theorem State.lateNoted_leaves (s : State) (g : Fin 32) (detail : Nat) :
    (s.lateNoted g detail).pos = { s.pos with gen := s.pos.gen.set g { s.pos.gen[g] with lateCnt := s.pos.gen[g].lateCnt + 1 } } ∧
      (s.lateNoted g detail).balls = s.balls ∧ (s.lateNoted g detail).mrk = s.mrk := by
  have hcls : evPosTrgLate.cls ≠ 3 := by decide
  refine ⟨?_, State.raise_balls _ _ _ _ hcls, State.raise_mrk _ _ _ _ hcls⟩
  rw [State.lateNoted, State.raise_pos _ _ _ _ hcls, State.orReg_pos, State.updGen, updV_fin]

theorem State.lateEvent_phase (s : State) {e : OutEvent} {g b c : Nat} (h : e.kind = .phase g b c) :
    s.lateEvent e = s.lateNoted g (2 ^ 16 + b) := by
  rw [State.lateEvent, h]
  rfl

/-- The late event of a trigger that the generator no longer lists. -/
theorem State.lateEvent_trg {s : State} {e : OutEvent} {g : Fin 32} (h : e.kind = .trg g) (hgone : ∀ t ∈ s.pos.gen[g].trigs, t.id ≠ e.id) :
    s.lateEvent e = s.lateNoted g g := by
  have hnone : (s.lateNoted g g).trigOf g e.id = none := by
    rw [State.trigOf, State.gen_fin, (s.lateNoted_leaves g g).1]
    simpa using hgone
  rw [State.lateEvent, h]
  show (match (s.lateNoted g g).trigOf g e.id with
    | some t => (s.lateNoted g g).trigDone g t
    | none => s.lateNoted g g) = s.lateNoted g g
  rw [hnone]

theorem outputCancelArrive_lost {s : State} {id : Nat} {r : List LdMsg} (hlink : s.sys.dieLink = false) (h : s.pos.toLd = .cancel id :: r) :
    exec .outputCancelArrive s = .next (s.ldTaken r) := by
  show execOutputCancelArrive s = _
  rw [execOutputCancelArrive, h]
  exact if_pos (by simp [hlink])

/-- The event `id` of kind `k` is withdrawn (R13). -/
def State.withdraw (s : State) (id : Nat) (k : OutKind) : State :=
  let s := { s with pos.held := s.pos.held.filter fun x => x.id != id }
  match k with
  | .trg g => (s.updGen g fun x => { x with trigs := x.trigs.filter fun t => t.id != id }).flushBack (s.genLead g)
  | .mrkOn n => s.mkCancelled n id
  | _ => s

theorem outputCancelArrive_held {s : State} {id : Nat} {e : OutEvent} {r : List LdMsg} (hlink : s.sys.dieLink = true)
    (h : s.pos.toLd = .cancel id :: r) (hheld : s.pos.held.find? (fun x => x.id == id) = some e) :
    exec .outputCancelArrive s = .next (if s.now16 < e.time then (s.ldTaken r).withdraw id e.kind else s.ldTaken r) := by
  show execOutputCancelArrive s = _
  rw [execOutputCancelArrive, h]
  refine (if_neg (by simp [hlink])).trans ?_
  dsimp only
  rw [hheld, apply_ite Host.Outcome.next]
  rfl

theorem State.withdraw_leaves (s : State) (id : Nat) (k : OutKind) :
    (s.withdraw id k).pos.toLd = s.pos.toLd ∧ (s.withdraw id k).pos.held = s.pos.held.filter (fun x => x.id != id) ∧
      (s.withdraw id k).balls = s.balls := by
  cases k with
  | trg g =>
    have hkept := State.flushBack_kept (({ s with pos.held := s.pos.held.filter fun x => x.id != id } : State).updGen g
      fun x => { x with trigs := x.trigs.filter fun t => t.id != id }) (s.genLead g)
    exact ⟨hkept.toLd, hkept.held, hkept.balls⟩
  | mrkOn n => exact ⟨rfl, rfl, rfl⟩
  | mrkOff n => exact ⟨rfl, rfl, rfl⟩
  | phase g b c => exact ⟨rfl, rfl, rfl⟩

/-- The marker outputs that the withdrawn event does not start stay as they are. -/
theorem State.withdraw_mkr (s : State) (id : Nat) {k : OutKind} {n : Nat} (h : k ≠ .mrkOn n) : (s.withdraw id k).mkr n = s.mkr n := by
  cases k with
  | trg g =>
    have hkept := State.flushBack_kept (({ s with pos.held := s.pos.held.filter fun x => x.id != id } : State).updGen g
      fun x => { x with trigs := x.trigs.filter fun t => t.id != id }) (s.genLead g)
    exact congrArg (fun m => atV m n MarkOut.init) hkept.mrk
  | mrkOn k => exact atV_updV_ne _ _ _ fun hn => h (by rw [hn])
  | mrkOff k => rfl
  | phase g b c => rfl

/-- A marking that waited for the cancel of event `id` waits for its place again. -/
def Marking.waitsAgain (id : Nat) (m : Marking) : Marking := if m.start = .recalled id then { m with start := .pending } else m

theorem Marking.waitsAgain_place (id : Nat) (m : Marking) : (m.waitsAgain id).t = m.t ∧ (m.waitsAgain id).tEnd = m.tEnd := by
  unfold Marking.waitsAgain
  split <;> exact ⟨rfl, rfl⟩

theorem Marking.waitsAgain_start (id : Nat) (m : Marking) : (m.waitsAgain id).start ≠ .recalled id := by
  unfold Marking.waitsAgain
  split
  · exact nofun
  next h => exact h

theorem State.withdraw_queue (s : State) (id : Nat) {n : Nat} (hn : n < 8) :
    ((s.withdraw id (.mrkOn n)).mkr n).queue = (s.mkr n).queue.map (Marking.waitsAgain id) :=
  congrArg MarkOut.queue (atV_updV_same s.mrk _ MarkOut.init hn)

/-! The one event held -/

/-- No event is held any more. -/
def State.released (s : State) : State := { s with pos := { s.pos with held := [] } }

theorem getElem_set_same {α : Type} {n : Nat} (v : Vector α n) (i : Fin n) (x : α) : (v.set i x)[i] = x := by simp

theorem setV_lt {α : Type} {n : Nat} (v : Vector α n) {i : Nat} (x : α) (h : i < n) : setV v i x = v.set i x := dif_pos h

section
variable {s : State} {e : OutEvent} (hheld : s.pos.held = [e])
include hheld

theorem outputEventFire_waits (h : s.now16 < e.time) : exec .outputEventFire s = .next s := by
  show execOutputEventFire s = _
  have hnone : s.dueEvent = none := by
    rw [State.dueEvent, hheld, List.filter_cons_of_neg (by simpa using h)]
    rfl
  rw [execOutputEventFire, hnone]

theorem outputEventFire_due (h : e.time ≤ s.now16) : exec .outputEventFire s = .next (s.fireEvent e) := by
  show execOutputEventFire s = _
  have hdue : s.dueEvent = some e := by
    rw [State.dueEvent, hheld, List.filter_cons_of_pos (by simpa using h)]
    rfl
  rw [execOutputEventFire, hdue]

theorem State.fire_releases : { s with pos.held := s.pos.held.filter fun x => x.id != e.id } = s.released := by
  rw [hheld, List.filter_cons_of_neg (by simp)]
  rfl

theorem State.fireEvent_phase {g b c : Nat} (hk : e.kind = .phase g b c) (hb : b + 1 < 16) :
    s.fireEvent e = { s.released with
      balls := if s.sys.outEn then { s.balls with gpo := (s.balls.gpo.set b (lvl (bitN c 0))).set (b + 1) (lvl (bitN c 1)) } else s.balls } := by
  have hgpo (x y : Level) : setV (setV s.balls.gpo b x) (b + 1) y = (s.balls.gpo.set b x).set (b + 1) y := by
    rw [setV_lt _ y hb, setV_lt _ x (by omega)]
  rw [State.fireEvent, s.fire_releases hheld, hk, ← hgpo]
  show State.when s.released s.sys.outEn _ = _
  cases s.sys.outEn <;> rfl

theorem State.fireEvent_trg {g : Nat} (hk : e.kind = .trg g) : s.fireEvent e = s.released.fireTrigger g e.id e.time := by
  rw [State.fireEvent, s.fire_releases hheld, hk]

theorem State.fireEvent_mrkOn {n : Nat} (hk : e.kind = .mrkOn n) :
    s.fireEvent e = if s.sys.outEn then s.released.mkFireOn n e.id e.time else s.released := by
  rw [State.fireEvent, s.fire_releases hheld, hk]
  rfl

theorem State.fireEvent_mrkOff {n : Nat} (hk : e.kind = .mrkOff n) :
    s.fireEvent e = if s.sys.outEn then s.released.mkFireOff n (some e.id) else s.released := by
  rw [State.fireEvent, s.fire_releases hheld, hk]
  rfl

end

theorem State.ballFires_iff (s : State) (g : Nat) :
    s.ballFires g = true ↔ s.gOut g % 2 = 1 ∧ s.sys.outEn = true ∧ s.rbit rIoxTrgEn (s.gBall g) = true := by
  rw [State.ballFires, Bool.and_eq_true, Bool.and_eq_true, decide_eq_true_eq, and_assoc]

/-- The trigger of generator `g` fires (R14, R46, R52, R56): it leaves the list, its line counts as fired, and in ARMED and RUNNING the ball begins
its pulse and the trigger message goes out on the lane, where they are among the outputs. -/
theorem outputEventFire_trigger {s : State} {e : OutEvent} {g : Fin 32} {tr : Trig} (hheld : s.pos.held = [e]) (hk : e.kind = .trg g)
    (hdue : e.time ≤ s.now16) (htrigs : s.pos.gen[g].trigs = [tr]) (hid : tr.id = e.id) :
    let b := s.gBall g
    let ball := s.gOut g % 2 = 1 ∧ s.sys.outEn = true ∧ s.rbit rIoxTrgEn b = true
    ∃ t, exec .outputEventFire s = .next t ∧ t.pos.held = [] ∧ t.pos.gen[g].trigs = [] ∧
      t.pos.gen[g].lastK = some (max (s.pos.gen[g].lastK.getD tr.k) tr.k) ∧ t.balls.mrk = s.balls.mrk ∧ t.balls.gpo = s.balls.gpo ∧
      (s.live = true → ball → t.balls.trg = setV s.balls.trg b (if s.rbit rIoxTrgPol b then .low else .high) ∧
        t.pos.trgEnd = setV s.pos.trgEnd b (some (e.time + 16 * (s.gWidth g : Int))) ∧ t.pos.gen[g].fired = (s.pos.gen[g].fired + 1) % 2 ^ 32) ∧
      (s.live = false ∨ ¬ ball → t.balls.trg = s.balls.trg ∧ t.pos.trgEnd = s.pos.trgEnd) ∧
      (s.live = true → 2 ≤ s.gOut g → s.lPers (s.genLead g) = 1 → s.laneUp (s.genLead g) = true →
        t.pos.gen[g].fired = (s.pos.gen[g].fired + 1) % 2 ^ 32 ∧ TtsSent (s.genLead g) tr t.sent) := by
  intro b ball
  rw [outputEventFire_due hheld hdue, State.fireEvent_trg hheld hk]
  refine ⟨_, rfl, ?_⟩
  have hgen : s.released.gen g = s.pos.gen[g] := s.released.gen_fin g
  have hown : s.released.trigOf g e.id = some tr := by
    rw [State.trigOf, hgen, htrigs, List.find?_cons_of_pos (by simpa using hid)]
  have hgone : s.pos.gen[g].trigs.filter (fun u => u.id != tr.id) = [] := by
    rw [htrigs, List.filter_cons_of_neg (by simp)]
    rfl
  rw [← State.gen_fin]
  cases hlive : s.live with
  | false =>
    rw [State.fireTrigger_idle e.time hown hlive]
    obtain ⟨htrigs', hlast, -, hballs, hend, hheld', -⟩ := State.trigDone_leaves (s := s.released) (t := tr) g.isLt
    rw [hgen] at htrigs' hlast
    refine ⟨hheld', htrigs'.trans hgone, hlast, congrArg Balls.mrk hballs, congrArg Balls.gpo hballs, nofun, fun _ => ?_, nofun⟩
    exact ⟨congrArg Balls.trg hballs, hend⟩
  | true =>
    obtain ⟨lane, htrigs', hlast, hfired, hballs, hend, hheld', htts⟩ :=
      State.fireTrigger_live_leaves (s := s.released) e.time g.isLt hown hlive
    rw [hgen] at htrigs' hlast hfired
    have hball : s.released.ballFires g = true ↔ ball := s.ballFires_iff g
    obtain ⟨hmrk, hgpo⟩ := s.released.atBall_others g tr e.time
    refine ⟨hheld', htrigs'.trans hgone, hlast, (congrArg Balls.mrk hballs).trans hmrk, (congrArg Balls.gpo hballs).trans hgpo,
      fun _ hb => ?_, fun hno => ?_, fun _ hout hp hup => ?_⟩
    · obtain ⟨htrg, htrgEnd⟩ := s.released.atBall_fires g tr e.time (hball.mpr hb)
      exact ⟨congrArg Balls.trg (hballs.trans htrg), hend.trans htrgEnd, hfired.trans (if_pos (by rw [hball.mpr hb, Bool.true_or]))⟩
    · have hsilent : s.released.ballFires g = false := Bool.eq_false_iff.mpr (mt hball.mp (hno.resolve_left nofun))
      obtain ⟨htrg, htrgEnd⟩ := s.released.atBall_silent g tr e.time hsilent
      exact ⟨congrArg Balls.trg (hballs.trans htrg), hend.trans htrgEnd⟩
    · obtain ⟨hwent, hsent⟩ := htts hout hp hup
      exact ⟨hfired.trans (if_pos (by rw [hwent, Bool.or_true])), hsent⟩

/-! Marker outputs -/

/-- A SPOT output goes active until the end of its pulse (R283). -/
theorem State.mkFireOn_spot {s : State} {n : Fin 8} {id : Nat} (f : Int) (hmode : s.mkSpan n = false)
    (hspot : ∀ m ∈ (s.mkr n).queue, m.span = false) :
    (s.mkFireOn n id f).balls = { s.balls with mrk := s.balls.mrk.set n (s.mrkOn n) } ∧
      (s.mkFireOn n id f).pos = s.pos ∧
      ((s.mkFireOn n id f).mkr n).pulseEnd = some (f + s.mkWidth16 n) ∧
      ((s.mkFireOn n id f).mkr n).fired = ((s.mkr n).fired + 1) % 2 ^ 32 := by
  have hspan : (((s.mkr n).queue.find? fun m => m.start.isEv id).map (·.span)).getD (s.mkSpan n) = false := by
    cases hm : (s.mkr n).queue.find? fun m => m.start.isEv id with
    | none => exact hmode
    | some m => exact hspot m (List.mem_of_find?_eq_some hm)
  unfold State.mkFireOn
  simp only [hspan, Bool.and_false, Bool.false_and, Bool.false_eq_true, if_false, Bool.not_false, if_true]
  refine ⟨?_, rfl, ?_, ?_⟩
  · rw [setV_fin]; rfl
  · exact congrArg MarkOut.pulseEnd (atV_updV_same _ _ MarkOut.init n.isLt)
  · refine (congrArg MarkOut.fired (atV_updV_same _ _ MarkOut.init n.isLt)).trans ?_
    exact congrArg (fun k => (k.fired + 1) % 2 ^ 32) (atV_updV_same s.mrk _ MarkOut.init n.isLt)

/-- The end of the span is the event `id`. -/
def Marking.endsBy (id : Option Nat) (m : Marking) : Bool :=
  match m.stop, id with
  | .committed i _, some j => i == j
  | _, _ => false

theorem Marking.endsBy_none (m : Marking) : m.endsBy none = false := by
  unfold Marking.endsBy
  cases m.stop <;> rfl

theorem Marking.endsBy_some (m : Marking) (id : Nat) : m.endsBy (some id) = false ↔ ∀ f, m.stop ≠ .committed id f := by
  unfold Marking.endsBy
  cases m.stop with
  | committed i f => simp
  | pending | recalled | done => simp

/-- A marker output that has gone inactive: no pulse runs, and the span that event `id` ends is off the queue. -/
def MarkOut.off (k : MarkOut) (id : Option Nat) : MarkOut :=
  { k with since := none, pulseEnd := none, queue := k.queue.filter fun m => !m.endsBy id }

theorem MarkOut.mem_off_queue {k : MarkOut} {id : Nat} {m : Marking} :
    m ∈ (k.off (some id)).queue ↔ m ∈ k.queue ∧ ∀ f, m.stop ≠ .committed id f := by
  rw [MarkOut.off, List.mem_filter, Bool.not_eq_true', Marking.endsBy_some]

/-- With no event named no marking leaves the queue. -/
theorem MarkOut.off_none (k : MarkOut) : k.off none = { k with since := none, pulseEnd := none } := by
  rw [MarkOut.off, List.filter_eq_self.mpr fun m _ => by rw [m.endsBy_none]; rfl]

theorem State.mkFireOff_eq (s : State) (n : Fin 8) (id : Option Nat) :
    s.mkFireOff n id = { s with
      mrk := s.mrk.set n (s.mrk[n].off id), balls := { s.balls with mrk := s.balls.mrk.set n (s.mrkOff n) } } := by
  rw [State.mkFireOff, State.updMkr, updV_fin, setV_fin]
  rfl

theorem State.mkFireOff_balls (s : State) (n : Fin 8) (id : Option Nat) :
    (s.mkFireOff n id).balls = { s.balls with mrk := s.balls.mrk.set n (s.mrkOff n) } := by
  rw [State.mkFireOff_eq]

theorem State.mkFireOff_mrk_same (s : State) (n : Fin 8) (id : Option Nat) : (s.mkFireOff n id).mrk[n] = s.mrk[n].off id := by
  rw [State.mkFireOff_eq]
  exact getElem_set_same _ _ _

theorem State.mkFireOff_mrk_ne (s : State) {n k : Fin 8} (id : Option Nat) (h : k ≠ n) : (s.mkFireOff n id).mrk[k] = s.mrk[k] := by
  rw [State.mkFireOff_eq]
  exact getElem_set_ne _ _ h

/-! The ends of pulses -/

theorem State.mrkOff_eq (s : State) (n : Nat) : s.mrkOff n =
    if s.sys.mrkLive = false ∨ s.sys.laggLost = true then .hiZ else if s.rbit rIoxMrkPol n then .high else .low := by
  unfold State.mrkOff
  simp only [Bool.not_eq_true']

theorem trgPulseEnd_eq {s : State} {b : Fin 16} {e : Int} (h : s.pos.trgEnd[b] = some e) :
    exec (.trgPulseEnd b) s = .next (if e ≤ s.now16 then
      { s with pos := { s.pos with trgEnd := s.pos.trgEnd.set b none },
               balls := { s.balls with trg := s.balls.trg.set b (s.trgIdle b) } } else s) := by
  show execTrgPulseEnd b s = _
  rw [execTrgPulseEnd, atV_fin, h, apply_ite Host.Outcome.next, ← setV_fin, ← setV_fin]

theorem markerPulseEnd_eq {s : State} {n : Fin 8} {e : Int} (h : s.mrk[n].pulseEnd = some e) :
    exec (.markerPulseEnd n) s = .next (if e ≤ s.now16 then s.mkFireOff n none else s) := by
  show execMarkerPulseEnd n s = _
  rw [execMarkerPulseEnd, State.mkr_fin, h]

theorem markerSpanLostEnd_eq {s : State} {n : Fin 8} {e : Int} (hclk : s.clk.shutdown = false) (h : s.mrk[n].pulseEnd = some e) :
    exec (.markerSpanLostEnd n) s =
      .next (if e ≤ s.now16 ∧ (s.dom (s.mkDom n)).lock = .lost then s.mkFireOff n none else s) := by
  show execMarkerSpanLostEnd n s = _
  rw [execMarkerSpanLostEnd, State.clocked_run _ hclk, State.mkr_fin, h]

/-- Settles O25, event by event: what arrives at the Lagg die, what is withdrawn, what fires, and how pulses end. -/
theorem outputEventsAndPulses : Obligations.OutputEventsAndPulses := by
  unfold Obligations.OutputEventsAndPulses
  refine ⟨?lost, ?arrives, ?cancelled, ?fires, ?trigger, ?markerOff, ?trgEnd, ?mrkEnd⟩
  case lost =>
    intro s r hlink
    exact ⟨fun e h => outputEventArrive_lost hlink h, fun id h => outputCancelArrive_lost hlink h⟩
  case arrives =>
    intro s e r hlink h
    refine ⟨fun htime => ?_, fun g hk hlate hgone => ?_, fun g b c hk hlate => ?_⟩
    · rw [outputEventArrive_up hlink h, if_neg (show ¬ e.time < s.now16 from Int.not_lt.mpr htime)]
    · rw [outputEventArrive_up hlink h, if_pos (show e.time < s.now16 from hlate),
        State.lateEvent_trg (s := s.ldTaken r) hk hgone]
      obtain ⟨hpos, hballs, hmrk⟩ := (s.ldTaken r).lateNoted_leaves g g
      exact ⟨_, rfl, by rw [hpos]; rfl, by rw [hpos]; rfl, hballs, by rw [hpos]; rfl, hmrk⟩
    · rw [outputEventArrive_up hlink h, if_pos (show e.time < s.now16 from hlate), State.lateEvent_phase _ hk]
      obtain ⟨hpos, hballs, hmrk⟩ := (s.ldTaken r).lateNoted_leaves g (2 ^ 16 + b)
      exact ⟨_, rfl, by rw [hpos]; rfl, by rw [hpos]; rfl, hballs, by rw [hpos]; rfl, hmrk⟩
  case cancelled =>
    intro s id e r hlink h hheld
    rw [outputCancelArrive_held hlink h hheld]
    refine ⟨fun hpast => by rw [if_neg (show ¬ s.now16 < e.time from Int.not_lt.mpr hpast)]; rfl, fun hahead => ?_⟩
    rw [if_pos (show s.now16 < e.time from hahead)]
    obtain ⟨htoLd, hrest, hballs⟩ := (s.ldTaken r).withdraw_leaves id e.kind
    refine ⟨_, rfl, htoLd, hrest, hballs, fun n hk => ?_, fun n hk => ⟨?_, ?_⟩⟩
    · rw [← State.mkr_fin, State.withdraw_mkr _ _ hk]
      exact s.mkr_fin n
    · rw [← State.mkr_fin, hk, State.withdraw_queue _ _ n.isLt]
      exact List.forall_mem_map.mpr fun m _ => m.waitsAgain_start id
    · rw [← State.mkr_fin, hk, State.withdraw_queue _ _ n.isLt, List.map_map, ← State.mkr_fin]
      refine List.map_congr_left fun m _ => ?_
      obtain ⟨ht, hend⟩ := m.waitsAgain_place id
      exact Prod.ext ht hend
  case fires =>
    intro s e hheld
    refine ⟨fun hearly => outputEventFire_waits hheld hearly, fun hdue => ⟨fun g b c hb hk => ?_, fun n hk hmode hqueue => ?_⟩⟩
    · rw [outputEventFire_due hheld hdue, State.fireEvent_phase hheld hk hb]
      rfl
    · rw [outputEventFire_due hheld hdue, State.fireEvent_mrkOn hheld hk]
      have hspot : ∀ m ∈ (s.released.mkr n).queue, m.span = false := by
        rw [State.mkr_fin]
        intro m hm
        obtain ⟨-, -, hspan⟩ := hqueue m hm
        exact hspan
      obtain ⟨hballs, hpos, hend, hfired⟩ := State.mkFireOn_spot (s := s.released) (id := e.id) e.time hmode hspot
      rw [State.mkr_fin] at hend hfired
      rw [State.mkr_fin] at hfired
      refine ⟨_, rfl, ?_, fun hen => ?_, fun hen => ?_⟩
      · split
        · exact congrArg Pos.held hpos
        · rfl
      · rw [if_pos hen]
        exact ⟨hballs, hend, hfired⟩
      · rw [if_neg (by simp [hen])]
        exact ⟨rfl, rfl⟩
  case trigger => exact fun s e g tr hheld hk hdue htrigs hid => outputEventFire_trigger hheld hk hdue htrigs hid
  case markerOff =>
    intro s e n hheld hk hdue
    rw [outputEventFire_due hheld hdue, State.fireEvent_mrkOff hheld hk]
    refine ⟨_, rfl, ?_, fun hen => ?_, fun hen => ?_⟩
    · split <;> rfl
    · rw [if_pos hen, State.mkFireOff_mrk_same]
      refine ⟨s.released.mkFireOff_balls n _, rfl, rfl, fun m hm => MarkOut.mem_off_queue.mp hm,
        fun m hm hstays => MarkOut.mem_off_queue.mpr ⟨hm, hstays⟩, fun k hne => s.released.mkFireOff_mrk_ne _ hne⟩
    · rw [if_neg (by simp [hen])]
      exact ⟨rfl, rfl⟩
  case trgEnd =>
    intro s b e h
    exact trgPulseEnd_eq h
  case mrkEnd =>
    intro s n e hclk h
    rw [markerPulseEnd_eq h, markerSpanLostEnd_eq hclk h, State.mkFireOff_eq, MarkOut.off_none, State.mrkOff_eq]
    exact ⟨rfl, rfl⟩

end Sys2Proof.Machine
end

section
/-! PROOFS of O27, refuted. LINK_UP and its ACK leave a lane that has just come UP, on which TTS may go out from then on (R93, R106): the ACK
then waits while LINK_UP is still going out for more than 20 bits (log 122). `LaneFree` asks only that no trigger be committed, so the
clause in which a CAP_B brings the lane UP, with both messages sent in one step, fails on such a lane. -/
namespace Sys2Proof.Machine

/-! What a lane sends as it comes UP -/

/-- As many messages were sent as the list names. -/
theorem SentOn.length_eq {n : Nat} {before after : List Sent} {ms : List (List Sym)} (h : SentOn n before ms after) :
    after.length = before.length + ms.length := by
  induction ms generalizing before with
  | nil => exact congrArg List.length h
  | cons m ms ih =>
    obtain ⟨at_, codes, -, hrest⟩ := h
    rw [ih hrest, List.length_cons, List.length_cons]
    omega

/-- The lane at its entry to UP, with LINK_UP given to it. -/
def State.saysLinkUp (s : State) (n : Nat) : State :=
  (s.updLane n fun l => { l.resetSeq with phase := .up, retraining := false, failed := 0, since := s.ts, words := 0, badAt := [],
                                          syncLoss := false, lastIdle := s.ts }).backChannel n 0x21 []

/-- A lane that was not retraining comes UP with LINK_UP and then an ACK. -/
theorem State.laneGoUp_first {s : State} {n : Nat} (h : (s.laneAt n).retraining = false) : s.laneGoUp n = (s.saysLinkUp n).sendAck n := by
  unfold State.laneGoUp
  rw [h]
  rfl

/-- On a lane with TTS an ACK waits while the message before it has more than 20 bits to go. -/
theorem State.sendAck_waits {s : State} {n : Fin 32} (hp : s.lPers n = 1) (hq : (s.laneAt n).bcq = []) (htts : s.ttsLane n = true)
    (hbusy : s.nowBit + 20 < (s.laneAt n).bcEnd) : (s.sendAck n).sent = s.sent := by
  rw [State.sendAck, State.backChannel_waits hp hq htts hbusy]
  rfl

/-! The counterexample -/

/-- The pair of CAP words that lane 0 receives twice: CAP_A agrees with its head at reset. -/
def capABytes : List Byte := [0x2D, 1, 0, 0x10, 0, 0, 0, 0]
def capBBytes : List Byte := [0x2E, 0, 0, 0, 0, 0, 0, 0]

/-- CAP_B as it comes scrambled, after 58 bits of 0. -/
def capBWord : KslWord := { sync := 2, bits := 0xB80017000000002E }

/-- Lane 0 in CAPABILITY with the KSL personality and nothing going out on it; a pair has been received, and the CAP_A of one equal to it. The
generator of its head fires by KSL, so that TTS go out on the lane once it is UP (R106), and has no committed trigger. -/
def pairRepeats : State :=
  let s := (State.reset.setReg (rIglLCtrl 0) 1).setReg (rPosTgCtrl 0) 0x100
  { s with
    ts := 10000000
    sys := { s.sys with st := .running }
    lane := s.lane.set 0 { Lane.init with
      phase := .capability, since := 9999000, descr := 0, capA := some capABytes, capPair := some (capABytes, capBBytes) } }

/-- The same with the CAP_B taken in and the pair shown in IGL_Lnn_CAP0 and CAP1. -/
def pairTaken : State :=
  ((pairRepeats.updLane 0 fun l => (l.takeWord capBWord).2).setReg (rIglLCap0 0) (w32 (fieldAt capABytes 4 4))).setReg (rIglLCap1 0)
    (w32 (fieldAt capBBytes 3 2 * 65536 + fieldAt capBBytes 1 2))

theorem pairRepeats_capWordReceive : exec (.capWordReceive 0 capBWord) pairRepeats = .next ((pairTaken.saysLinkUp 0).sendAck 0) := by
  have hword : pairRepeats.kslWord 0 capBWord = pairTaken.laneGoUp 0 := by decide +kernel
  show execCapWordReceive 0 capBWord pairRepeats = _
  rw [execCapWordReceive, State.clocked_run _ (by decide +kernel), ← State.laneGoUp_first (by decide +kernel)]
  exact congrArg _ hword

/-- LINK_UP alone goes out: its 6 symbols have just begun, and the ACK waits behind them. -/
theorem pairRepeats_sent : ((pairTaken.saysLinkUp 0).sendAck 0).sent.length = pairRepeats.sent.length + 1 := by
  have hacked : ((pairTaken.saysLinkUp 0).sendAck 0).sent = (pairTaken.saysLinkUp 0).sent :=
    State.sendAck_waits (n := 0) (by decide +kernel) (by decide +kernel) (by decide +kernel) (by decide +kernel)
  rw [hacked]
  decide +kernel

/-- Refutes O27: on `pairRepeats` the CAP_B completes the second of two equal pairs, and the ACK waits for LINK_UP instead of leaving at once. -/
theorem not_laneTraining : ¬ Obligations.LaneTraining := by
  unfold Obligations.LaneTraining
  intro h
  obtain ⟨-, -, -, -, -, hcap, -⟩ := h pairRepeats 0 (by decide +kernel) (by decide +kernel)
  obtain ⟨-, hpair, -⟩ := hcap (by decide +kernel) (by decide +kernel) (by decide +kernel) capABytes capBWord rfl
  obtain ⟨t, ht, -, -, -, hsent, -⟩ := hpair (by decide +kernel) (by decide +kernel) (by decide +kernel) (by decide +kernel)
  obtain rfl : (pairTaken.saysLinkUp 0).sendAck 0 = t := Host.Outcome.next.inj (pairRepeats_capWordReceive.symm.trans ht)
  exact absurd (hsent.length_eq.symm.trans pairRepeats_sent) (by simp)

end Sys2Proof.Machine
end

section
/-! SUPPORT. What changes a lane and what was sent on it, and nothing else: the relation `OnLane`. What goes out on a lane that is not UP: no TTS
holds a message back there (R90, R106), so it leaves at once. -/
namespace Sys2Proof.Machine

/-- From `s` to `t` nothing changes but lane `n` and the record of what was sent. -/
structure OnLane (n : Fin 32) (s t : State) : Prop where
  rest : t = { s with lane := t.lane, sent := t.sent }
  others : ∀ m : Fin 32, m ≠ n → t.lane[m] = s.lane[m]

namespace OnLane
variable {n : Fin 32} {s t u : State}

theorem refl (s : State) : OnLane n s s := ⟨rfl, fun _ _ => rfl⟩

theorem trans (h : OnLane n s t) (k : OnLane n t u) : OnLane n s u where
  rest := by rw [k.rest, h.rest]
  others m hm := (k.others m hm).trans (h.others m hm)

theorem when {c : Bool} {f : State → State} (h : OnLane n s (f s)) : OnLane n s (s.when c f) := by
  cases c with
  | false => exact refl s
  | true => exact h

theorem regs (h : OnLane n s t) : t.regs = s.regs := by rw [h.rest]
theorem heads (h : OnLane n s t) : t.heads = s.heads := by rw [h.rest]
theorem reg (h : OnLane n s t) (o : Nat) : t.reg o = s.reg o := by rw [State.reg, State.reg, h.regs]

end OnLane

theorem State.lane_updLane_same (s : State) (n : Fin 32) (f : Lane → Lane) : (s.updLane n f).lane[n] = f s.lane[n] := by
  rw [State.updLane, updV_fin]
  simp

theorem State.updLane_onLane (s : State) (n : Fin 32) (f : Lane → Lane) : OnLane n s (s.updLane n f) where
  rest := rfl
  others m hm := by
    rw [State.updLane, updV_fin]
    exact getElem_set_ne _ _ hm

/-- What was sent, and nothing else. -/
theorem State.send_onLane (s : State) (n : Fin 32) (m : Sent) : OnLane n s (s.send m) := ⟨rfl, fun _ _ => rfl⟩

theorem State.putSyms_onLane (s : State) (n : Fin 32) (t : Int) (syms : List Sym) : OnLane n s (s.putSyms n t syms) :=
  (s.send_onLane n _).trans (State.updLane_onLane ..)

theorem State.flushBackN_onLane (n : Fin 32) (k : Nat) (s : State) : OnLane n s (State.flushBackN n k s) := by
  induction k generalizing s with
  | zero => exact .refl s
  | succ k ih =>
    unfold State.flushBackN
    split
    · exact .refl s
    · dsimp only
      split
      · exact ((s.putSyms_onLane n _ _).trans (State.updLane_onLane ..)).trans (ih _)
      · exact .refl s

theorem State.backChannel_onLane (s : State) (n : Fin 32) (mtype : Nat) (p : List Byte) : OnLane n s (s.backChannel n mtype p) := by
  unfold State.backChannel
  split
  · exact (s.updLane_onLane n _).trans (State.flushBackN_onLane ..)
  · exact .refl s

theorem State.laneAttempt_onLane (s : State) (n : Fin 32) (retrain : Bool) (failed : Nat) : OnLane n s (s.laneAttempt n retrain failed) := by
  unfold State.laneAttempt
  extract_lets quiet silenced begun
  have hsilenced : OnLane n s silenced := .when (State.updLane_onLane ..)
  have hbegun : OnLane n silenced begun := State.updLane_onLane ..
  exact (hsilenced.trans hbegun).trans (.when (State.putSyms_onLane ..))

theorem State.laneFailed_onLane (s : State) (n : Fin 32) : OnLane n s (s.laneFailed n) := State.updLane_onLane ..

/-! What goes out -/

/-- Every symbol has its code. -/
theorem code10s_length (rd : Bool) (syms : List Sym) : (code10s rd syms).1.length = syms.length := by
  induction syms generalizing rd with
  | nil => rfl
  | cons y r ih => exact congrArg Nat.succ (ih _)

/-- A message starts at the end of the last symbol or whole IDLE pairs after it. -/
theorem State.bcStart_whole (s : State) (n : Nat) : (s.bcStart n - (s.laneAt n).bcEnd).toNat % 10 = 0 := by
  unfold State.bcStart
  dsimp only
  split
  · omega
  · omega

/-- Symbols that start where a message can leave have no filler before them. -/
theorem State.putSyms_sent (s : State) (n : Nat) (syms : List Sym) : SentOn n s.sent [syms] (s.putSyms n (s.bcStart n) syms).sent := by
  refine ⟨s.bcStart n, (code10s ((s.laneAt n).idleTo (s.bcStart n)).1 syms).1, code10s_length _ _, ?_⟩
  have hfill : ∀ last, fillBits last ((s.bcStart n - (s.laneAt n).bcEnd).toNat % 10) = [] := by
    intro last
    rw [s.bcStart_whole n]
    rfl
  show Sent.lane n _ (fillBits _ ((s.bcStart n - (s.laneAt n).bcEnd).toNat % 10)) _ _ :: _ = _
  rw [hfill]
  rfl

/-- Of the lane itself only the transmitter changes. -/
theorem State.putSyms_lane (s : State) (n : Fin 32) (t : Int) (syms : List Sym) :
    ∃ e rd b, (s.putSyms n t syms).lane[n] = { s.lane[n] with bcEnd := e, rd := rd, lastBit := b } :=
  ⟨_, _, _, State.lane_updLane_same (s.send _) n _⟩

/-- What goes out after something else. -/
theorem SentOn.append {n : Nat} {a b c : List Sent} {ms ks : List (List Sym)} (h : SentOn n a ms b) (k : SentOn n b ks c) :
    SentOn n a (ms ++ ks) c := by
  induction ms generalizing a with
  | nil =>
    obtain rfl : b = a := h
    exact k
  | cons m ms ih =>
    obtain ⟨at_, codes, hlen, hrest⟩ := h
    exact ⟨at_, codes, hlen, ih hrest⟩

/-- On a lane that is not UP any message may start (R90, R106). -/
theorem State.mayStart_down {s : State} {n : Nat} (t : Int) (syms : Nat) (h : s.laneUp n = false) : s.mayStart n t syms = true := by
  rw [State.mayStart, State.ttsLane, h]
  rfl

/-- On a KSL lane that is not UP, with no message waiting, a message leaves at once. -/
theorem State.backChannel_sent {s : State} {n : Fin 32} (mtype : Nat) (p : List Byte) (hp : s.lPers n = 1) (hq : (s.laneAt n).bcq = [])
    (hup : s.laneUp n = false) : SentOn n s.sent [bcMessage mtype p] (s.backChannel n mtype p).sent := by
  rw [State.backChannel, if_pos hp]
  have hqueue : ((s.updLane n fun l => { l with bcq := l.bcq ++ [(mtype, p)] }).laneAt n).bcq = [(mtype, p)] := by
    rw [State.laneAt_updLane, hq, List.nil_append]
  have hdown : (s.updLane n fun l => { l with bcq := l.bcq ++ [(mtype, p)] }).laneUp n = false := by
    rw [State.laneUp, State.laneAt_updLane]
    exact hup
  simp only [State.flushBack, hqueue, List.length_cons, List.length_nil, State.flushBackN, State.mayStart_down _ _ hdown, if_true]
  exact State.putSyms_sent _ n _

/-- A new attempt begins with IDLE on a lane with the KSL personality (R93). -/
theorem State.laneAttempt_sent {s : State} {n : Fin 32} (retrain : Bool) (failed : Nat) (hp : s.lPers n = 1) :
    SentOn n s.sent [symIdle] (s.laneAttempt n retrain failed).sent := by
  unfold State.laneAttempt
  extract_lets quiet silenced begun
  have hsent : begun.sent = s.sent := by
    show (s.when quiet _).sent = s.sent
    unfold State.when
    split
    · rfl
    · rfl
  have hpers : begun.lPers n = 1 := by
    have hsilenced : OnLane n s silenced := .when (State.updLane_onLane ..)
    have hbegun : OnLane n silenced begun := State.updLane_onLane ..
    rw [State.lPers, State.rf, (hsilenced.trans hbegun).reg]
    exact hp
  rw [← hsent, State.when, hpers]
  exact begun.putSyms_sent n symIdle

/-- A lane at BC_LOCK that begins an attempt: `retrain` says whether it was UP before, `failed` how many attempts failed in a row. -/
structure Lane.Begins (l : Lane) (retrain : Bool) (failed : Nat) : Prop where
  phase : l.phase = .bcLock
  base : l.base = 0
  missing : l.missing = []
  retraining : l.retraining = retrain
  failed : l.failed = failed

theorem State.laneAttempt_lane (s : State) (n : Fin 32) (retrain : Bool) (failed : Nat) :
    (s.laneAttempt n retrain failed).lane[n].Begins retrain failed := by
  unfold State.laneAttempt
  extract_lets quiet silenced begun
  have hbegun : begun.lane[n].Begins retrain failed := by
    rw [show begun.lane[n] = _ from State.lane_updLane_same ..]
    exact ⟨rfl, rfl, rfl, rfl, rfl⟩
  unfold State.when
  split
  · obtain ⟨e, rd, b, hlane⟩ := begun.putSyms_lane n (begun.bcStart n) symIdle
    rw [hlane]
    exact ⟨hbegun.phase, hbegun.base, hbegun.missing, hbegun.retraining, hbegun.failed⟩
  · exact hbegun

theorem State.laneFailed_lane (s : State) (n : Fin 32) :
    (s.laneFailed n).lane[n].phase = .failed ∧ (s.laneFailed n).lane[n].base = 0 ∧ (s.laneFailed n).lane[n].missing = [] := by
  rw [State.laneFailed, State.lane_updLane_same]
  exact ⟨rfl, rfl, rfl⟩

end Sys2Proof.Machine
end

section
/-! SUPPORT. A write of RETRAIN by the control core (R95): every other field of IGL_Lnn_CTRL is static and keeps its value when the register is
written back as it stands. -/
namespace Sys2Proof.Machine

/-! A bit set in a word -/

/-- Setting bit 31 leaves the field below it. -/
theorem bitsN_putBits_top (w : Word) {hi lo : Nat} (h : hi < 31) (hl : lo ≤ hi) : bitsN (putBits w 31 31 1).toNat hi lo = bitsN w.toNat hi lo := by
  have hlow : (putBits w 31 31 1).toNat % 2 ^ 31 = w.toNat % 2 ^ 31 := by
    simp only [putBits, putBitsN, bitsN, BitVec.toNat_ofNat]
    omega
  have hfield : ∀ k : Nat, bitsN k hi lo = k % 2 ^ 31 % 2 ^ (hi + 1) / 2 ^ lo := by
    intro k
    rw [bitsN, ← Nat.mod_mul_right_div_self, ← Nat.pow_add, Nat.add_sub_cancel' (by omega), Nat.mod_mod_of_dvd _ (Nat.pow_dvd_pow 2 (by omega))]
  rw [hfield, hfield, hlow]

theorem bitN_putBits_top (w : Word) : bitN (putBits w 31 31 1).toNat 31 = true := by
  simp only [bitN, putBits, putBitsN, bitsN, BitVec.toNat_ofNat, beq_iff_eq]
  omega

/-! Fields that keep their values -/

/-- A static field takes the value that it holds (R486). -/
theorem State.putField_static {s : State} {o w : Nat} {r : RSpec} {f : RField} (hacc : f.acc = .rw) (hcls : f.cls = .s)
    (hok : f.allows r.reset (f.val w) = true) (hstep : fieldStep o f (f.val w) = true) (hsame : f.val w = f.val (s.reg o).toNat) :
    s.putField o r f w = s := by
  simp only [State.putField, hacc, hcls, hok, hstep, Bool.not_true, Bool.or_self, Bool.false_eq_true, if_false]
  rw [if_neg fun h => h.2 hsame]

/-- A word no field of which changes anything. -/
theorem State.putWord_same {s : State} {o : Nat} {w : Word} (h : ∀ r ∈ regSpec o, ∀ f ∈ r.fields, s.putField o r f w.toNat = s) :
    s.putWord o w = s := by
  unfold State.putWord
  split
  next r hr => exact List.foldlRecOn r.fields _ (motive := (· = s)) rfl fun u hu f hf => by rw [hu, h r hr f hf]
  · rfl

/-! IGL_Lnn_CTRL -/

/-- The register is RETRAIN and static fields below it (R113). -/
theorem rIglLCtrl_fields : ∀ n : Fin 32, ∀ r ∈ regSpec (rIglLCtrl n), ∀ f ∈ r.fields,
    f.acc = .w1s ∨ (f.acc = .rw ∧ f.cls = .s ∧ f.hi < 31 ∧ f.lo ≤ f.hi) := by decide +kernel

theorem rIglLCtrl_spec : ∀ n : Fin 32, (regSpec (rIglLCtrl n)).isSome = true := by decide +kernel

/-- Setting RETRAIN changes no field. -/
theorem State.putWord_retrain {s : State} {n : Fin 32} (h : s.FieldsGood (rIglLCtrl n)) :
    s.putWord (rIglLCtrl n) (putBits (s.reg (rIglLCtrl n)) 31 31 1) = s := by
  refine State.putWord_same fun r hr f hf => ?_
  rcases rIglLCtrl_fields n r hr f hf with hset | ⟨hacc, hcls, hhi, hlo⟩
  · simp only [State.putField, hset]
  · have hsame : f.val (putBits (s.reg (rIglLCtrl n)) 31 31 1).toNat = f.val (s.reg (rIglLCtrl n)).toNat := bitsN_putBits_top _ hhi hlo
    refine State.putField_static hacc hcls ?_ ?_ hsame
    · rw [hsame]
      exact h r hr f hf hacc
    · have hdma : ¬ rIglLCtrl n < rMtxDmaSrc 4 := by
        unfold rMtxDmaSrc rIglLCtrl
        omega
      simp [fieldStep, hdma]

/-- What a write of RETRAIN starts. -/
theorem State.regAct_retrain (s : State) (who : Requester) (n : Fin 32) (w : Word) (h : bitN w.toNat 31 = true) :
    s.regAct who (rIglLCtrl n) w = s.laneRetrain n := by
  have hblock : rIglLCtrl n / 65536 = 0x40 ∨ rIglLCtrl n / 65536 = 0x41 := by unfold rIglLCtrl; omega
  have hlane : (rIglLCtrl n - rIglLCtrl 0) / 0x1000 = n.val := by unfold rIglLCtrl; omega
  have hrange : rIglLCtrl 0 ≤ rIglLCtrl n ∧ rIglLCtrl n < rIglLCtrl 32 := by unfold rIglLCtrl; omega
  have hother : rIglLCtrl n ≠ rCcdCtrl ∧ rIglLCtrl n ≠ rPcieDbRecCi ∧ rIglLCtrl n ≠ rPcieDbClipCi ∧ rIglLCtrl n ≠ rClkCtrl := by
    unfold rIglLCtrl rCcdCtrl rPcieDbRecCi rPcieDbClipCi rClkCtrl
    omega
  obtain ⟨hccd, hrec, hclip, hclk⟩ := hother
  rcases hblock with hb | hb
  · simp [State.regAct, hb, hlane, hrange, hccd, hrec, hclip, hclk, h, State.when]
  · simp [State.regAct, hb, hlane, hrange, hccd, hrec, hclip, hclk, h, State.when]

/-- The register lies in no window and block whose writes are held off, muted or kept elsewhere. -/
theorem rIglLCtrl_plain : ∀ n : Fin 32, csWindow (rIglLCtrl n) = false ∧ fwReg (rIglLCtrl n) = false ∧ keptElsewhere (rIglLCtrl n) = false ∧
    rIglLCtrl n ≠ rSecSvc ∧ rIglLCtrl n ≠ rFabRaCmd ∧ ¬ (rSecBuf 0 ≤ rIglLCtrl n ∧ rIglLCtrl n < rSecBuf 8192) ∧
    ¬ rIglLCtrl n < rMtxDmaSrc 4 ∧ ¬ rLcuSCtrl 0 ≤ rIglLCtrl n ∧ ¬ rTileCtrl 0 ≤ rIglLCtrl n ∧ rIglLCtrl n / 4 * 4 = rIglLCtrl n := by
  decide +kernel

theorem State.regApply_retrain {s : State} (who : Requester) {n : Fin 32} (h : s.FieldsGood (rIglLCtrl n)) :
    s.regApply who (rIglLCtrl n) (putBits (s.reg (rIglLCtrl n)) 31 31 1) = s.laneRetrain n := by
  obtain ⟨hcs, hfw, hkept, -, hra, -, hdma, hlcu, htile, -⟩ := rIglLCtrl_plain n
  have hmuted : (s.dmaLocked (rIglLCtrl n) || s.lcuMute (rIglLCtrl n) || s.tileMute (rIglLCtrl n)) = false := by
    simp [State.dmaLocked, State.lcuMute, State.tileMute, hdma, hlcu, htile]
  have hbusy : s.raBusy (rIglLCtrl n) (putBits (s.reg (rIglLCtrl n)) 31 31 1) = false := by simp [State.raBusy, hra]
  simp only [State.regApply, hcs, hfw, hmuted, hbusy, hkept, Bool.false_eq_true, false_and, if_false]
  rw [State.putWord_retrain h, s.regAct_retrain who n _ (bitN_putBits_top _)]

/-- The control core's write of RETRAIN reaches the lane, and is answered OK. -/
theorem laneRetrainWrite_core {s : State} {n : Fin 32} (hcore : CoreMayAccess s) (hgood : s.FieldsGood (rIglLCtrl n)) :
    exec (.laneRetrainWrite .core .p n (s.reg (rIglLCtrl n))) s = .next (((s.laneRetrain n).touch 0x3FF).answer "OK" 0) := by
  obtain ⟨hhold, hwiped, -, howes⟩ := hcore
  obtain ⟨hcs, -, -, hsvc, -, hbuf, -, -, -, haligned⟩ := rIglLCtrl_plain n
  have hreach : s.busHeld .core = false := howes
  have hopen : s.shut (rIglLCtrl n) = false := by simp [State.shut, heldOff, hhold, hwiped]
  have hgate : s.gateOpen .core (rIglLCtrl n) = true := by simp [State.gateOpen, State.sessionOpen, reqId]
  have hwrite : s.regWrite .core .p (rIglLCtrl n) (putBits (s.reg (rIglLCtrl n)) 31 31 1) = ((s.laneRetrain n).touch 0x3FF, false) := by
    simp only [State.regWrite, rIglLCtrl_spec n, hcs, hopen, hgate, hsvc, hbuf, s.regApply_retrain .core hgood]
    rfl
  show Host.Outcome.next (s.busWrite .core .p (rIglLCtrl n) (putBits (s.reg (rIglLCtrl n)) 31 31 1) 15) = _
  simp only [State.busWrite, haligned, hreach, hwrite]
  rfl

/-- A write that has been applied changes sessions and claims only. -/
theorem State.touch_eq (s : State) (id : Nat) : s.touch id = { s with sec := (s.touch id).sec } := by
  unfold State.touch State.claimTouch
  dsimp only
  split
  · split
    · rfl
    · rfl
  · rfl

end Sys2Proof.Machine
end

section
/-! PROOFS of O28. A lane that goes down is no longer UP when LINK_DOWN is given to it, so no TTS holds the message back (R90, R106); on a head
with no line open nothing is declared incomplete. What is left of `laneDown` is a report and a change of the lane itself. -/
namespace Sys2Proof.Machine

/-! Reports between states that agree on the records -/

theorem Reported.of_onLane {n : Fin 32} {s u t : State} {ev : Ev} {i : Nat} (h : OnLane n s u) (k : Reported u t ev i) : Reported s t ev i := by
  rw [h.rest] at k
  exact k

theorem Reported.then_onLane {n : Fin 32} {s u t : State} {ev : Ev} {i : Nat} (k : Reported s u ev i) (h : OnLane n u t) :
    Reported s t ev i := by
  rw [h.rest]
  exact k

theorem CanReport.of_onLane {n : Fin 32} {s u : State} {ev : Ev} {i : Nat} (k : CanReport s ev i) (h : OnLane n s u) : CanReport u ev i := by
  rw [h.rest]
  exact k

/-! A lane goes down -/

/-- With every line of its generator closed nothing is declared incomplete. -/
theorem State.declareAll_closed {s : State} {g : Nat} (p : TrigRec → Bool) (h : ∀ r ∈ s.record g, r.done = true) : s.declareAll g p = s := by
  unfold State.declareAll
  extract_lets idx
  have hnone : idx = [] := by
    rw [List.reverse_eq_nil_iff, List.filter_eq_nil_iff]
    intro i _
    split
    next r hr => simp [h r (List.mem_of_getElem? hr)]
    · simp
  rw [hnone]
  rfl

/-- The lane, no longer UP, with LINK_DOWN given to it. -/
def State.saysLinkDown (s : State) (n reason : Nat) : State :=
  (s.updLane n fun l => { l.resetSeq with phase := .bcLock }).backChannel n 0x22 (leBytes 1 reason)

/-- The fall of the lane noted in its event register and reported. -/
def State.downNoted (s : State) (n reason : Nat) : State :=
  ((s.saysLinkDown n reason).orReg (rIglLEvt n) 16).raise evIglLaneDown n n 0

section
variable {s : State} {n : Fin 32} (reason : Nat)

theorem State.saysLinkDown_onLane : OnLane n s (s.saysLinkDown n reason) := (s.updLane_onLane n _).trans (State.backChannel_onLane ..)

theorem State.saysLinkDown_sent (hfree : LaneFree s n) :
    SentOn n s.sent [bcMessage 0x22 (leBytes 1 reason)] (s.saysLinkDown n reason).sent := by
  obtain ⟨hp, hq, -⟩ := hfree
  refine State.backChannel_sent (s := s.updLane n _) _ _ hp ?_ ?_
  · rw [State.laneAt_updLane]
    exact hq
  · rw [State.laneUp, State.laneAt_updLane]
    rfl

theorem State.downNoted_lane : (s.downNoted n reason).lane = (s.saysLinkDown n reason).lane := State.raise_lane _ _ _ _ (by decide)

theorem State.downNoted_sent : (s.downNoted n reason).sent = (s.saysLinkDown n reason).sent := State.raise_sent _ _ _ _ (by decide)

variable (hrep : CanReport s evIglLaneDown n)
include hrep

theorem State.downNoted_canReport : CanReport ((s.saysLinkDown n reason).orReg (rIglLEvt n) 16) evIglLaneDown n :=
  CanReport.of_onLane (u := s.saysLinkDown n reason) hrep (State.saysLinkDown_onLane reason)

theorem State.downNoted_reported : Reported s (s.downNoted n reason) evIglLaneDown n :=
  Reported.of_onLane (State.saysLinkDown_onLane reason)
    (State.raise_reported (s := (s.saysLinkDown n reason).orReg (rIglLEvt n) 16) n 0 (by decide) (State.downNoted_canReport reason hrep))

/-- The event register of the lane is the only one that changes. -/
theorem State.downNoted_reg {o : Nat} (ho : o ≠ rIglLEvt n) : (s.downNoted n reason).reg o = s.reg o := by
  rw [State.downNoted, State.raise_noting _ _ _ (by decide) (State.downNoted_canReport reason hrep)]
  exact (reg_orReg_ne _ _ ho).trans ((State.saysLinkDown_onLane reason).reg o)

/-- On a head with no line open: the report, then an attempt or FAILED. -/
theorem State.laneDown_closed (hclosed : ∀ r ∈ s.record (s.headGen n), r.done = true) :
    s.laneDown n reason = if s.lAuto n ∨ reason = 0 then ((s.downNoted n reason).addSat (rIglLRt n) 31 16 1).laneAttempt n true 0
      else (s.downNoted n reason).laneFailed n := by
  have hhead : (s.downNoted n reason).headGen n = s.headGen n := by
    rw [State.headGen, State.headGen, State.rf, State.rf, State.downNoted_reg reason hrep (by unfold rIglLHead rIglLEvt; omega)]
  have hauto : (s.downNoted n reason).lAuto n = s.lAuto n := by
    rw [State.lAuto, State.lAuto, State.rbit, State.rbit, State.downNoted_reg reason hrep (by unfold rIglLCtrl rIglLEvt; omega)]
  have hrecord : (s.downNoted n reason).record (s.headGen n) = s.record (s.headGen n) := by
    rw [State.record, State.record, State.downNoted, State.raise_heads _ _ _ _ (by decide), State.orReg_heads,
      (State.saysLinkDown_onLane reason).heads]
  rw [← hauto, ← State.declareAll_closed (s := s.downNoted n reason) (g := s.headGen n)
    (fun r => decide (r.fire ≤ 16 * ((s.downNoted n reason).ts : Int))) (by rw [hrecord]; exact hclosed), ← hhead]
  rfl

variable (hfree : LaneFree s n) (hclosed : ∀ r ∈ s.record (s.headGen n), r.done = true)
include hfree hclosed

/-- A lane that trains again: LINK_DOWN, then the IDLE of BC_LOCK. -/
theorem State.laneDown_again (h : s.lAuto n = true ∨ reason = 0) :
    SentOn n s.sent [bcMessage 0x22 (leBytes 1 reason), symIdle] (s.laneDown n reason).sent ∧
      Reported s (s.laneDown n reason) evIglLaneDown n ∧ (s.laneDown n reason).lane[n].Begins true 0 ∧
      ∀ m : Fin 32, m ≠ n → (s.laneDown n reason).lane[m] = s.lane[m] := by
  rw [State.laneDown_closed reason hrep hclosed, if_pos h]
  have hpers : ((s.downNoted n reason).addSat (rIglLRt n) 31 16 1).lPers n = 1 := by
    obtain ⟨hp, -, -⟩ := hfree
    rw [State.lPers, State.rf, State.addSat, State.setRf, reg_setReg_ne _ _ (by unfold rIglLCtrl rIglLRt; omega),
      State.downNoted_reg reason hrep (by unfold rIglLCtrl rIglLEvt; omega)]
    exact hp
  have hon := ((s.downNoted n reason).addSat (rIglLRt n) 31 16 1).laneAttempt_onLane n true 0
  refine ⟨?_, ?_, State.laneAttempt_lane .., fun m hm => ?_⟩
  · have hidle := State.laneAttempt_sent true 0 hpers
    rw [State.addSat_sent, State.downNoted_sent] at hidle
    exact (State.saysLinkDown_sent reason hfree).append hidle
  · have hnoted : Reported s ((s.downNoted n reason).addSat (rIglLRt n) 31 16 1) evIglLaneDown n := State.downNoted_reported reason hrep
    exact hnoted.then_onLane hon
  · rw [hon.others m hm, State.addSat_lane, State.downNoted_lane]
    exact (State.saysLinkDown_onLane reason).others m hm

/-- A lane that stays down: LINK_DOWN, then FAILED. -/
theorem State.laneDown_stays (h : ¬ (s.lAuto n = true ∨ reason = 0)) :
    SentOn n s.sent [bcMessage 0x22 (leBytes 1 reason)] (s.laneDown n reason).sent ∧
      Reported s (s.laneDown n reason) evIglLaneDown n ∧
      ((s.laneDown n reason).lane[n].phase = .failed ∧ (s.laneDown n reason).lane[n].base = 0 ∧ (s.laneDown n reason).lane[n].missing = []) ∧
      ∀ m : Fin 32, m ≠ n → (s.laneDown n reason).lane[m] = s.lane[m] := by
  rw [State.laneDown_closed reason hrep hclosed, if_neg h]
  have hon := (s.downNoted n reason).laneFailed_onLane n
  refine ⟨?_, (State.downNoted_reported reason hrep).then_onLane hon, State.laneFailed_lane .., fun m hm => ?_⟩
  · show SentOn n s.sent _ (s.downNoted n reason).sent
    rw [State.downNoted_sent]
    exact State.saysLinkDown_sent reason hfree
  · rw [hon.others m hm, State.downNoted_lane]
    exact (State.saysLinkDown_onLane reason).others m hm

end

/-! The commands -/

section
variable {s : State} {n : Fin 32}

theorem State.laneUp_iff : s.laneUp n = true ↔ s.lane[n].phase = .up := by
  rw [State.laneUp, decide_eq_true_iff, State.laneAt, atV_fin]

variable (hclk : s.clk.shutdown = false)
include hclk

theorem laneSyncLoss_eq : exec (.laneSyncLoss n) s =
    .next (if s.lane[n].phase = .up ∧ s.lane[n].syncLoss = true then s.laneDown n 1 else s) := by
  show execLaneSyncLoss n s = _
  rw [execLaneSyncLoss, State.clocked_run _ hclk]
  simp only [State.laneUp_iff, State.laneAt, atV_fin]

theorem laneIdleTimeout_eq : exec (.laneIdleTimeout n) s =
    .next (if s.lane[n].phase = .up ∧ s.lane[n].lastIdle + 8000 ≤ s.ts then s.laneDown n 2 else s) := by
  show execLaneIdleTimeout n s = _
  rw [execLaneIdleTimeout, State.clocked_run _ hclk]
  simp only [State.laneUp_iff, State.laneAt, atV_fin]
  rfl

end

theorem State.laneRetrain_up {s : State} {n : Fin 32} (h : s.lane[n].phase = .up) : s.laneRetrain n = s.laneDown n 0 := by
  simp only [State.laneRetrain, State.laneAt, atV_fin, h]

theorem State.laneRetrain_failed {s : State} {n : Fin 32} (h : s.lane[n].phase = .failed) : s.laneRetrain n = s.laneAttempt n false 0 := by
  simp only [State.laneRetrain, State.laneAt, atV_fin, h]

/-- What the end of a write leaves of the lanes, of what was sent and of the answer. -/
theorem State.touch_answer (s : State) (id : Nat) :
    ((s.touch id).answer "OK" 0).lane = s.lane ∧ ((s.touch id).answer "OK" 0).sent = s.sent ∧ ((s.touch id).answer "OK" 0).rdResp = "OK" := by
  rw [s.touch_eq id]
  exact ⟨rfl, rfl, rfl⟩

/-- Settles O28: both causes and RETRAIN bring the lane down by `laneDown`, whose two ends are `laneDown_again` and `laneDown_stays`; RETRAIN in
FAILED is a new attempt. -/
theorem lanesGoDown : Obligations.LanesGoDown := by
  unfold Obligations.LanesGoDown
  intro s n hclk hfree
  dsimp only
  refine ⟨fun hup => ?_, fun hsync => ?_, fun hearly => ?_, fun hup hclosed hrep => ⟨fun c hc hloss hidle => ?_, fun hcore hgood => ?_⟩,
    fun hfailed hcore hgood => ?_⟩
  · rw [laneSyncLoss_eq hclk, laneIdleTimeout_eq hclk, if_neg fun h => hup h.1, if_neg fun h => hup h.1]
    exact ⟨rfl, rfl⟩
  · rw [laneSyncLoss_eq hclk, if_neg fun h => Bool.false_ne_true (hsync.symm.trans h.2)]
  · rw [laneIdleTimeout_eq hclk, if_neg (by omega)]
  · have hdown : exec c.1 s = .next (s.laneDown n c.2) ∧ c.2 ≠ 0 := by
      simp only [List.mem_cons, List.not_mem_nil, or_false] at hc
      rcases hc with rfl | rfl
      · rw [laneSyncLoss_eq hclk, if_pos ⟨hup, hloss rfl⟩]
        exact ⟨rfl, Nat.succ_ne_zero _⟩
      · rw [laneIdleTimeout_eq hclk, if_pos ⟨hup, hidle rfl⟩]
        exact ⟨rfl, Nat.succ_ne_zero _⟩
    obtain ⟨hexec, hreason⟩ := hdown
    refine ⟨_, hexec, ?_⟩
    by_cases hauto : s.rbit (rIglLCtrl n) 4 = true
    · obtain ⟨hsent, hreported, hbegins, hothers⟩ := State.laneDown_again c.2 hrep hfree hclosed (.inl hauto)
      rw [if_pos hauto, if_pos hauto]
      exact ⟨hsent, hreported, hbegins.phase, hbegins.base, hbegins.missing, hothers⟩
    · obtain ⟨hsent, hreported, ⟨hphase, hbase, hmissing⟩, hothers⟩ :=
        State.laneDown_stays c.2 hrep hfree hclosed fun h => h.elim hauto hreason
      rw [if_neg hauto, if_neg hauto]
      exact ⟨hsent, hreported, hphase, hbase, hmissing, hothers⟩
  · obtain ⟨hsent, -, hbegins, -⟩ := State.laneDown_again 0 hrep hfree hclosed (.inr rfl)
    obtain ⟨hlane, hwent, hresp⟩ := (s.laneDown n 0).touch_answer 0x3FF
    refine ⟨_, laneRetrainWrite_core hcore hgood, ?_⟩
    rw [State.laneRetrain_up hup, hlane, hwent]
    exact ⟨hsent, hbegins.phase, hbegins.retraining, hbegins.failed, hresp⟩
  · obtain ⟨hp, -, -⟩ := hfree
    obtain ⟨hlane, hwent, -⟩ := (s.laneAttempt n false 0).touch_answer 0x3FF
    have hbegins := s.laneAttempt_lane n false 0
    refine ⟨_, laneRetrainWrite_core hcore hgood, ?_⟩
    rw [State.laneRetrain_failed hfailed, hlane, hwent]
    exact ⟨hbegins.phase, hbegins.failed, State.laneAttempt_sent false 0 hp⟩

end Sys2Proof.Machine
end

section
/-! SUPPORT. Fields in a row of bytes (R7, R270): the field written between what precedes and what follows it is read back. -/
namespace Sys2Proof.Machine

@[simp] theorem leBytes_length (k n : Nat) : (leBytes k n).length = k := by simp [leBytes]

theorem two_pow_bytes_succ (k : Nat) : 2 ^ (8 * (k + 1)) = 256 * 2 ^ (8 * k) := by rw [Nat.mul_add, Nat.pow_add, Nat.mul_comm]

/-- The lowest byte, then the others. -/
theorem leBytes_succ (k n : Nat) : leBytes (k + 1) n = BitVec.ofNat 8 n :: leBytes k (n / 256) := by
  simp only [leBytes, List.range_succ_eq_map, List.map_cons, List.map_map]
  refine List.cons_eq_cons.mpr ⟨by rw [Nat.mul_zero, Nat.pow_zero, Nat.div_one], List.map_congr_left fun i _ => ?_⟩
  simp only [Function.comp_apply, Nat.succ_eq_add_one, two_pow_bytes_succ, Nat.div_div_eq_div_mul]

theorem leNat_leBytes (k n : Nat) : leNat (leBytes k n) = n % 2 ^ (8 * k) := by
  induction k generalizing n with
  | zero => simp [leBytes, leNat, Nat.mod_one]
  | succ k ih => rw [leBytes_succ, leNat, ih, two_pow_bytes_succ, Nat.mod_mul, BitVec.toNat_ofNat]

theorem leNat_lt (bs : List Byte) : leNat bs < 2 ^ (8 * bs.length) := by
  induction bs with
  | nil => simp [leNat]
  | cons b r ih =>
    have hb : b.toNat < 256 := b.isLt
    rw [leNat, List.length_cons, two_pow_bytes_succ]
    omega

/-- A field holds no more than its bytes can. -/
theorem fieldAt_lt (bs : List Byte) (i k : Nat) : fieldAt bs i k < 2 ^ (8 * k) := by
  have h := leNat_lt (bslice bs i k)
  rwa [bslice, List.length_map, List.length_range] at h

/-- Bytes that are there are cut out of the row. -/
theorem bslice_eq {bs : List Byte} {i k : Nat} (h : i + k ≤ bs.length) : bslice bs i k = (bs.drop i).take k := by
  refine List.ext_getElem (by simp [bslice]; omega) fun j hj _ => ?_
  have hin : i + j < bs.length := by simp [bslice] at hj; omega
  simp [bslice, hin]

/-- A row of `k` bytes fits as it is. -/
theorem fitBytes_eq {bs : List Byte} {k : Nat} (h : bs.length = k) : fitBytes k bs = bs := by
  rw [fitBytes, bslice_eq (by omega), List.drop_zero, List.take_of_length_le (by omega)]

/-- A field reads as the number written into it. -/
theorem fieldAt_written {p : List Byte} {i : Nat} (h : p.length = i) (k n : Nat) (q : List Byte) :
    fieldAt (p ++ leBytes k n ++ q) i k = n % 2 ^ (8 * k) := by
  subst h
  rw [fieldAt, bslice_eq (by simp), List.append_assoc, List.drop_left,
    List.take_append_of_le_length (by simp), List.take_of_length_le (by simp), leNat_leBytes]

/-- The CRC stands behind the bytes it is taken over (R270). -/
theorem fieldAt_withCrc {b : List Byte} {i : Nat} (h : b.length = i) : fieldAt (withCrc b) i 4 = crc32c b % 2 ^ 32 := by
  rw [withCrc, ← List.append_nil (_ ++ _), fieldAt_written h]

end Sys2Proof.Machine
end

section
/-! SUPPORT. The rings of the results engine (R276 to R278): a write of that engine, by the host link or through a window, leaves the engine's
own state alone whether it succeeds or is ended with an error. -/
namespace Sys2Proof.Machine

/-! Writes of the results engine -/

@[simp] theorem State.mtxError_res (s : State) (kind master target : Nat) (write : Bool) (addr : Nat) :
    (s.mtxError kind master target write addr).res = s.res := by
  unfold State.mtxError
  extract_lets logged noted
  have hlogged : logged.res = s.res := by
    simp only [logged]
    split
    · rfl
    · rfl
  split
  · exact (State.raise_res noted _ _ _ (by decide)).trans hlogged
  · exact (State.raise_res noted _ _ _ (by decide)).trans hlogged
  · exact (State.raise_res noted _ _ _ (by decide)).trans hlogged
  · exact hlogged

@[simp] theorem State.decodeError_res (s : State) (m : Nat) (write : Bool) (a : Nat) : (s.decodeError m write a).res = s.res := by
  unfold State.decodeError
  split
  · exact State.mtxError_res ..
  · exact State.mtxError_res ..

theorem State.gddrWrite_res {s t : State} {p a : Nat} {d : List Byte} (h : s.gddrWrite p a d = some t) : t.res = s.res := by
  unfold State.gddrWrite at h
  split at h
  · cases h
  · cases h
    rfl

@[simp] theorem State.winPut_res (s : State) (a : Nat) (d : List Byte) : (s.winPut a d).res = s.res := by
  unfold State.winPut
  split
  · split
    next h => exact State.gddrWrite_res h
    · exact State.mtxError_res ..
  · split
    · rfl
    · exact State.mtxError_res ..
  · exact State.decodeError_res ..

@[simp] theorem State.resWrite_res (s : State) (dest : Bool) (a : Nat) (d : List Byte) : (s.resWrite dest a d).res = s.res := by
  unfold State.resWrite
  split
  · exact List.foldlRecOn (motive := fun t : State => t.res = s.res) _ _ rfl fun t ht x _ => (t.winPut_res x.1 x.2).trans ht
  · rfl

/-- A write to host memory is sent as it is. -/
theorem State.resWrite_host (s : State) (a : Nat) (d : List Byte) : s.resWrite false a d = s.send (.hostWrite a d) := rfl

@[simp] theorem State.writeBack_res (s : State) (dest : Bool) : (s.writeBack dest).res = s.res := State.resWrite_res ..

/-! The rings -/

@[simp] theorem Ring.push_pi (r : Ring) (ts irqN : Nat) : (r.push ts irqN).pi = (r.pi + 1) % 2 ^ 32 := by
  unfold Ring.push
  dsimp only
  split
  · rfl
  · rfl

theorem Ring.timer_due {r : Ring} {ts irqT : Nat} (h : r.unsig ≠ 0) (hts : r.firstTs + irqT * 800 ≤ ts) :
    r.timer ts irqT = { r with unsig := 0, due := true } := if_pos ⟨h, hts⟩

theorem Ring.timer_idle {r : Ring} {ts irqT : Nat} (h : r.unsig = 0 ∨ ts < r.firstTs + irqT * 800) : r.timer ts irqT = r :=
  if_neg fun ⟨hunsig, hts⟩ => h.elim hunsig (Nat.not_lt.mpr hts)

/-! Records -/

/-- A record that is written takes an entry of the record ring; nothing else of the results engine changes. -/
theorem State.recPut_res (s : State) (b : List Byte) : ∃ ring : Ring, ring.pi = (s.res.recR.pi + 1) % 2 ^ 32 ∧
    (s.recPut b).res = { s.res with recR := ring } := by
  unfold State.recPut
  extract_lets written old
  have hwritten : written.res = s.res := State.resWrite_res ..
  refine ⟨written.res.recR.push written.ts (written.rf rResRecCfg 31 16), by rw [Ring.push_pi, hwritten], ?_⟩
  show ({ written.res with recR := written.res.recR.push written.ts (written.rf rResRecCfg 31 16) } : Res) = _
  rw [hwritten]

theorem State.recPut_waiting (s : State) (b : List Byte) : (s.recPut b).res.waiting = s.res.waiting := by
  obtain ⟨ring, -, hres⟩ := s.recPut_res b
  rw [hres]

/-- A record written to host memory. -/
theorem State.recPut_host {s : State} (b : List Byte) (h : s.rbit rResCtrl 1 = false) :
    s.recPut b = { s.send (.hostWrite (s.reg64 rResRecBaseLo + 64 * (s.res.recR.pi % s.recSize)) b) with
      res := { s.res with recR := s.res.recR.push s.ts (s.rf rResRecCfg 31 16) } } := by
  rw [State.recPut, h, State.resWrite_host]
  rfl

/-- What is sent of a record written to host memory: the record, then both producer indices. -/
theorem State.recPut_host_sent {s : State} (b : List Byte) (h : s.rbit rResCtrl 1 = false) :
    ((s.recPut b).writeBack false).sent =
      .hostWrite (s.reg64 rResWbLo) (leBytes 4 ((s.res.recR.pi + 1) % 2 ^ 32) ++ leBytes 4 s.res.clipR.pi) ::
        .hostWrite (s.reg64 rResRecBaseLo + 64 * (s.res.recR.pi % s.recSize)) b :: s.sent := by
  rw [State.writeBack, State.resWrite_host, State.recPut_host b h, State.send_sent, Ring.push_pi]
  rfl

/-- With room the oldest record enters the ring first. -/
theorem State.recDrain_room {s : State} {b : List Byte} {r : List (List Byte)} (hw : s.res.waiting = b :: r) (hroom : s.recRoom = true)
    (k : Nat) : s.recDrain (k + 1) = State.recDrain k (({ s with res.waiting := r } : State).recPut b) := by
  rw [State.recDrain, hw]
  exact if_pos hroom

/-- No record joins those that wait while they enter the ring. -/
theorem State.recDrain_waiting_le (k : Nat) (s : State) : (s.recDrain k).res.waiting.length ≤ s.res.waiting.length := by
  induction k generalizing s with
  | zero => exact Nat.le_refl _
  | succ k ih =>
    unfold State.recDrain
    split
    next b r hw =>
      split
      · refine Nat.le_trans (ih _) ?_
        rw [State.recPut_waiting, hw]
        exact Nat.le_succ _
      · exact Nat.le_refl _
    · exact Nat.le_refl _

/-- With none waiting and no room, the record exported waits alone. -/
theorem State.recExport_busy {s : State} (h : RingBusy s) (b : List Byte) : s.recExport b = { s with res.waiting := [b] } := by
  obtain ⟨hw, hroom⟩ := h
  simp [State.recExport, hw, hroom]

/-- Room in the record ring does not depend on another register. -/
theorem State.recRoom_addWrap (s : State) {o : Nat} (n : Nat) (hctrl : rResCtrl ≠ o) (hcfg : rResRecCfg ≠ o) :
    (s.addWrap o n).recRoom = s.recRoom := by
  have hc : (s.addWrap o n).reg rResCtrl = s.reg rResCtrl := reg_setReg_ne s _ hctrl
  have hr : (s.addWrap o n).reg rResRecCfg = s.reg rResRecCfg := reg_setReg_ne s _ hcfg
  unfold State.recRoom State.ringOpen State.recSize State.rbit State.rf
  rw [hc, hr]
  rfl

/-! Clips -/

/-- A clip that is cut leaves the queue and takes an entry of the clip ring; nothing else of the results engine changes. -/
theorem State.clipCut_res (s : State) (c : ClipJob) : ∃ ring : Ring, ring.pi = (s.res.clipR.pi + 1) % 2 ^ 32 ∧
    (s.clipCut c).res = { s.res with clips := s.res.clips.drop 1, clipR := ring } := by
  unfold State.clipCut
  extract_lets planes line rows px part lost head dest base written old cut
  have hwritten : written.res = s.res := by simp only [written, State.resWrite_res]
  refine ⟨written.res.clipR.push written.ts (written.rf rResClipCfg 31 16), by rw [Ring.push_pi, hwritten], ?_⟩
  have hcounted : (cut.when part fun s => s.addSat rResCntClip 15 0 1).res = cut.res := by
    unfold State.when
    split
    · rfl
    · rfl
  rw [State.writeBack_res, hcounted]
  show ({ written.res with
    clips := written.res.clips.drop 1, clipR := written.res.clipR.push written.ts (written.rf rResClipCfg 31 16) } : Res) = _
  rw [hwritten]

/-! Messages and markings -/

/-- The message at the head of the inbox is taken when it is of the type. -/
theorem State.takeMsg_head {s : State} {m : FabMsg} {r : List FabMsg} {p : FabMsg → Bool} (h : s.fab.inbox = m :: r) (hp : p m = true) :
    s.takeMsg p = some (m, { s with fab.inbox := r }) := by
  simp [State.takeMsg, h, hp]

/-- An empty mask asks for no marking. -/
theorem State.requestMarks_none (s : State) (y : Int) (d : Nat) (ext : Int) (src : Option Nat) :
    s.requestMarks 0 y d ext src = (s, false, false) := by
  have hbit : ∀ n, bitN 0 n = false := fun n => by rw [bitN, Nat.zero_div]; rfl
  unfold State.requestMarks
  refine List.foldlRecOn (motive := fun x : State × Bool × Bool => x = (s, false, false)) _ _ rfl fun x hx n _ => ?_
  rw [hbit, if_neg Bool.false_ne_true]
  exact hx

end Sys2Proof.Machine
end

section
/-! PROOFS of O40. Each command is first put as an equation; the record of a token (R280) is the payload's with REMOTE set, whose fields are read
back by the rules of the bytes. -/
namespace Sys2Proof.Machine

/-! The commands -/

section
variable {s : State} (hclk : s.clk.shutdown = false)
include hclk

theorem recordRingWrite_eq : exec .recordRingWrite s =
    .next (if s.res.waiting = [] ∨ s.recRoom = false then s else (s.recDrain s.res.waiting.length).writeBack (s.rbit rResCtrl 1)) := by
  show execRecordRingWrite s = _
  rw [execRecordRingWrite, State.clocked_run _ hclk]
  simp only [Bool.not_eq_true']
  split
  · rfl
  · rfl

theorem clipCut_eq {c : ClipJob} {cs : List ClipJob} (h : s.res.clips = c :: cs) : exec .clipCut s =
    .next (if s.clipWaits c = true ∨ s.ringOpen (s.rbit rResCtrl 2) = false then s else s.clipCut c) := by
  show execClipCut s = _
  rw [execClipCut, State.clocked_run _ hclk, h]
  simp only [Bool.not_eq_true']
  split
  · rfl
  · rfl

theorem clipLineTimeout_eq {c : ClipJob} {cs : List ClipJob} (h : s.res.clips = c :: cs) : exec .clipLineTimeout s =
    .next (if c.at_ + 1600000 ≤ s.ts ∧ s.ringOpen (s.rbit rResCtrl 2) = true then s.clipCut c else s) := by
  show execClipLineTimeout s = _
  rw [execClipLineTimeout, State.clocked_run _ hclk, h]
  show (if c.at_ + 1600000 ≤ s.ts ∧ s.ringOpen (s.rbit rResCtrl 2) = true then _ else _) = _
  split
  · rfl
  · rfl

theorem ringIrqTimer_eq : exec .ringIrqTimer s = .next { s with res := { s.res with
    recR := s.res.recR.timer s.ts (s.rf rResRecCfg 15 8), clipR := s.res.clipR.timer s.ts (s.rf rResRecCfg 15 8) } } := by
  show execRingIrqTimer s = _
  rw [execRingIrqTimer, State.clocked_run _ hclk]

/-! Records and clips -/

/-- The one record that waits, written to host memory. -/
theorem recordRingWrite_one {b : List Byte} (hw : s.res.waiting = [b]) (hroom : s.recRoom = true) (hhost : s.rbit rResCtrl 1 = false) :
    exec .recordRingWrite s = .next ((({ s with res.waiting := [] } : State).recPut b).writeBack false) := by
  rw [recordRingWrite_eq hclk, if_neg (by simp [hw, hroom]), hhost, hw, List.length_singleton, State.recDrain_room hw hroom]
  rfl

theorem recordRingWrite_room {b : List Byte} {r : List (List Byte)} (hw : s.res.waiting = b :: r) (hroom : s.recRoom = true) :
    ∃ t, exec .recordRingWrite s = .next t ∧ t.res.waiting.length ≤ r.length := by
  refine ⟨_, recordRingWrite_eq hclk, ?_⟩
  rw [if_neg (by simp [hw, hroom]), State.writeBack_res, hw, List.length_cons, State.recDrain_room hw hroom]
  exact Nat.le_trans (State.recDrain_waiting_le ..) (Nat.le_of_eq (by rw [State.recPut_waiting]))

end

/-! Tokens -/

/-- The record kept of a token's payload: REMOTE set, the CRC recomputed (R271, R280). -/
def tokenRecord (b : List Byte) : List Byte := withCrc (b.take 44 ++ leBytes 2 (fieldAt b 44 2 ||| 16384) ++ (b.drop 46).take 14)

/-- The parts of 64 bytes made of 44 bytes, a field of two bytes, 14 bytes, and the CRC over them. -/
theorem withCrc_parts {p q : List Byte} {f : Nat} (hp : p.length = 44) (hq : q.length = 14) (hf : f < 2 ^ (8 * 2)) :
    let x := withCrc (p ++ leBytes 2 f ++ q)
    x.length = 64 ∧ x.take 44 = p ∧ fieldAt x 44 2 = f ∧ (x.drop 46).take 14 = q ∧ fieldAt x 60 4 = crc32c (x.take 60) % 2 ^ 32 := by
  intro x
  have hbody : (p ++ leBytes 2 f ++ q).length = 60 := by simp [hp, hq]
  have hx : x = p ++ leBytes 2 f ++ q ++ leBytes 4 (crc32c (p ++ leBytes 2 f ++ q)) := rfl
  refine ⟨?_, ?_, ?_, ?_, ?_⟩
  · rw [hx, List.length_append, hbody, leBytes_length]
  · rw [hx, List.append_assoc, List.append_assoc, List.take_left' hp]
  · rw [hx, List.append_assoc, fieldAt_written hp, Nat.mod_eq_of_lt hf]
  · rw [hx, List.append_assoc, List.drop_left' (by simp [hp]), List.take_left' hq]
  · rw [fieldAt_withCrc hbody, hx, List.take_left' hbody]

/-- The length of a token's record, its fields, and its CRC. -/
theorem tokenRecord_fields {b : List Byte} (h : 65 ≤ b.length) :
    (tokenRecord b).length = 64 ∧ (tokenRecord b).take 44 = b.take 44 ∧ fieldAt (tokenRecord b) 44 2 = fieldAt b 44 2 ||| 16384 ∧
      ((tokenRecord b).drop 46).take 14 = (b.drop 46).take 14 ∧
      fieldAt (tokenRecord b) 60 4 = crc32c ((tokenRecord b).take 60) % 2 ^ 32 :=
  withCrc_parts (by simp; omega) (by simp; omega) (Nat.or_lt_two_pow (fieldAt_lt b 44 2) (by decide))

/-- The token at the head of the inbox taken and counted; `r` are the messages behind it. -/
def State.tokenTaken (s : State) (r : List FabMsg) : State := ({ s with fab.inbox := r } : State).addWrap rResTokRx 1

/-- Counting a token leaves the controls of the rings alone. -/
theorem State.tokenTaken_ctrl (s : State) (r : List FabMsg) : (s.tokenTaken r).reg rResCtrl = s.reg rResCtrl :=
  reg_setReg_ne _ _ (by decide)

theorem State.tokenTaken_busy {s : State} (r : List FabMsg) (h : RingBusy s) : RingBusy (s.tokenTaken r) := by
  obtain ⟨hw, hroom⟩ := h
  exact ⟨hw, (State.recRoom_addWrap _ 1 (by decide) (by decide)).trans hroom⟩

section
variable {s : State} {m : FabMsg} {r : List FabMsg} (hclk : s.clk.shutdown = false) (hinbox : s.fab.inbox = m :: r) (hm : m.mtype = 0x01)
include hclk hinbox hm

/-- A token outside RUNNING is counted. -/
theorem tokenReceive_idle (hst : s.sys.st ≠ .running) : exec .tokenReceive s = .next (s.tokenTaken r) := by
  show execTokenReceive s = _
  rw [execTokenReceive, State.clocked_run _ hclk, State.takeMsg_head hinbox (by simp [hm])]
  exact if_pos hst

/-- A token in RUNNING that asks for no marking. -/
theorem tokenReceive_unmarked (hst : s.sys.st = .running) (hmk : fieldAt m.payload 64 1 = 0) (hlen : 65 ≤ m.payload.length) :
    exec .tokenReceive s =
      .next ((s.tokenTaken r).when ((s.tokenTaken r).rbit rResCtrl 3) fun u => u.recExport (tokenRecord m.payload)) := by
  have hrec : withCrc (fitBytes 60 (m.payload.take 44 ++ leBytes 2 (fieldAt m.payload 44 2 ||| 16384) ++ (m.payload.drop 46).take 14)) =
      tokenRecord m.payload := by rw [fitBytes_eq (by simp; omega), tokenRecord]
  show execTokenReceive s = _
  rw [execTokenReceive, State.clocked_run _ hclk, State.takeMsg_head hinbox (by simp [hm])]
  refine (if_neg (fun h => h hst)).trans ?_
  extract_lets _ _ _
  rw [hmk, State.requestMarks_none]
  dsimp only
  rw [hrec]
  rfl

/-- With TOK_RING set and the ring busy its record waits alone. -/
theorem tokenReceive_kept (hst : s.sys.st = .running) (hmk : fieldAt m.payload 64 1 = 0) (hlen : 65 ≤ m.payload.length)
    (hring : s.rbit rResCtrl 3 = true) (hbusy : RingBusy s) :
    exec .tokenReceive s = .next { s.tokenTaken r with res.waiting := [tokenRecord m.payload] } := by
  have hkeeps : (s.tokenTaken r).rbit rResCtrl 3 = true := by rw [State.rbit, s.tokenTaken_ctrl]; exact hring
  rw [tokenReceive_unmarked hclk hinbox hm hst hmk hlen, hkeeps, ← State.recExport_busy (State.tokenTaken_busy r hbusy)]
  rfl

end

/-- Settles O40: the equations of the commands, with `clipCut_res` for what a cut leaves and `tokenRecord_fields` for what is kept of a token. -/
theorem ringsClipsAndTokens : Obligations.RingsClipsAndTokens := by
  unfold Obligations.RingsClipsAndTokens
  intro s hclk
  refine ⟨fun h => ?_, fun b hw hroom hhost => ?_, fun c cs hclips => ?_, ?_, fun b r hw hroom => recordRingWrite_room hclk hw hroom,
    fun m r hinbox hm => ?_⟩
  · rw [recordRingWrite_eq hclk, if_pos h]
  · refine ⟨_, recordRingWrite_one hclk hw hroom hhost, ?_⟩
    let taken : State := { s with res.waiting := [] }
    obtain ⟨ring, hpi, hres⟩ := taken.recPut_res b
    rw [State.writeBack_res, hres]
    exact ⟨rfl, hpi, rfl, State.recPut_host_sent (s := taken) b hhost⟩
  · have hcut : ∀ t, t = s.clipCut c → t.res.clips = cs ∧ t.res.clipR.pi = (s.res.clipR.pi + 1) % 2 ^ 32 ∧ t.res.recR = s.res.recR := by
      rintro t rfl
      obtain ⟨ring, hpi, hres⟩ := s.clipCut_res c
      rw [hres, hclips]
      exact ⟨rfl, hpi, rfl⟩
    dsimp only
    rw [clipCut_eq hclk hclips, clipLineTimeout_eq hclk hclips]
    refine ⟨fun hwaits => by rw [if_pos (.inl hwaits)], fun hearly => by rw [if_neg fun h => absurd h.1 (Nat.not_le.mpr hearly)],
      fun hopen => ⟨fun hwaits => ⟨_, rfl, hcut _ ?_⟩, fun hlate => ⟨_, rfl, hcut _ ?_⟩⟩⟩
    · rw [if_neg (by simp [hwaits, hopen])]
    · rw [if_pos ⟨hlate, hopen⟩]
  · refine ⟨_, ringIrqTimer_eq hclk, rfl, fun p hp => ?_⟩
    simp only [List.mem_cons, List.not_mem_nil, or_false] at hp
    rcases hp with rfl | rfl
    · exact ⟨Ring.timer_due, Ring.timer_idle⟩
    · exact ⟨Ring.timer_due, Ring.timer_idle⟩
  · refine ⟨tokenReceive_idle hclk hinbox hm, fun hst hmk hlen hring hbusy _ => ?_⟩
    exact ⟨_, tokenRecord m.payload, tokenReceive_kept hclk hinbox hm hst hmk hlen hring hbusy, rfl, rfl, rfl, rfl, tokenRecord_fields hlen⟩

end Sys2Proof.Machine
end
